-- ==== Sys2Proof/Word.lean ====
section
/-! DEFINITION. Word types of the block and the carrier type of its sparse tables. -/

namespace Sys2Proof

/-- A 64-bit data word or register (R29, R542). -/
abbrev Word := BitVec 64

/-- A protected word in its stored and carried form of 80 bits (R29). -/
abbrev PWord := BitVec 80

/-- A sparse table: keys with their values, ascending, none equal to what an unlisted key reads as.
The operations are in `Sys2Proof/Machine/Table.lean`. -/
abbrev Tbl (α : Type) := List (Nat × α)

end Sys2Proof
end

