-- ==== Sys2Proof/Syntax/Operands.lean ====
section
/-! DEFINITION. Operand types of the commands: configuration fields as the manual names them, and the values that pins,
routing and other agents bring with a command. -/

namespace Sys2Proof

/-- A sector S00 to S63 of the main fabric (R9), or 64 for the Cabinet fabric, whose blocks behave as their chapters
state (R367). -/
abbrev Sec := Fin 65

/-- Leaf A is 0, Leaf B is 1. -/
abbrev LeafId := Fin 2

/-! ## Configuration fields held in frames -/

/-- Clock select and inversion of a clock input (R71). -/
structure ClkSel where
  sel : BitVec 6 := 63
  inv : Bool := false
  deriving DecidableEq, Repr

/-- Fields of one logic cell (R52). -/
structure CellCfg where
  lutInit : BitVec 64 := 0
  dual : Bool := false
  ff0d : BitVec 2 := 0
  ff1d : BitVec 2 := 0
  ff0init : Bool := false
  ff1init : Bool := false
  ff0sr : Bool := false
  ff1sr : Bool := false
  ff0ceUse : Bool := false
  ff1ceUse : Bool := false
  ff0srUse : Bool := false
  ff1srUse : Bool := false
  ff0hold : Bool := false
  ff1hold : Bool := false
  dxInv0 : Bool := false
  dxInv1 : Bool := false
  deriving DecidableEq, Repr

/-- Fields shared by the flip-flops of a half-block (R55), and its carry-in select (R59). -/
structure HalfCfg where
  clk : ClkSel := {}
  asyncSr : Bool := false
  cin : BitVec 2 := 0
  deriving DecidableEq, Repr

/-- Modes of a Bench (R76). -/
inductive BenchMode where
  | quad
  | dual
  | complex
  | wide
  deriving DecidableEq, Repr

/-- Fields of a Bench (R76), its clock and its operand-source select for A0 and A1 (R88). -/
structure BenchCfg where
  clk : ClkSel := {}
  mode : BenchMode := .quad
  preOp0 : BitVec 2 := 0
  preOp1 : BitVec 2 := 0
  tsrc : BitVec 2 := 0
  tselA : List (BitVec 2) := []
  tselB : List (BitVec 2) := []
  accIn0 : BitVec 2 := 0
  accIn1 : BitVec 2 := 0
  conj : Bool := false
  opdDelay : Bool := false
  outShift : BitVec 7 := 0
  roundMode : BitVec 2 := 0
  satWidth : BitVec 2 := 0
  outRaw : Bool := false
  pack : Bool := false
  laneSrc : Bool := false
  carryAcc : Bool := false
  cascadeOpd : Bool := false
  deriving DecidableEq, Repr

/-- Runner functions (R95). -/
inductive RunnerMode where
  | none
  | single
  | dual
  | delay
  deriving DecidableEq, Repr

/-- Fields of a Drawer and its Runner (R95), with the two port clocks. -/
structure DrawerCfg where
  clkA : ClkSel := {}
  clkB : ClkSel := {}
  raw : Bool := false
  widthA : BitVec 2 := 0
  widthB : BitVec 2 := 0
  writeModeA : BitVec 2 := 0
  writeModeB : BitVec 2 := 0
  outReg : Bool := false
  awareA : Bool := false
  awareB : Bool := false
  wsrcA : BitVec 2 := 0
  wsrcB : BitVec 2 := 0
  lanePortB : Bool := false
  init : Bool := false
  carryRunner : Bool := false
  runner : RunnerMode := .none
  stages3 : Bool := false
  aeThresh : BitVec 13 := 0
  afThresh : BitVec 13 := 0
  delay : BitVec 13 := 0
  passEn : Bool := false
  passRate : BitVec 4 := 0
  deriving DecidableEq, Repr

/-- Kinds of a Hinge (R145). -/
inductive HingeKind where
  | level
  | value
  | counter
  | wake
  deriving DecidableEq, Repr

/-- Fields of a Hinge (R145). -/
structure HingeCfg where
  kind : HingeKind := .level
  stages3 : Bool := false
  width : BitVec 7 := 0
  wakeLine : BitVec 3 := 0
  carryHinge : Bool := false
  srcClk : ClkSel := {}
  dstClk : ClkSel := {}
  deriving DecidableEq, Repr

/-- Driver index of a column bus lane (R69, R70). -/
structure LaneCfg where
  dynamic : Bool := false
  index : BitVec 6 := 63
  clk : ClkSel := {}
  deriving DecidableEq, Repr

/-- Attachment fields of a sector (R272, R289, R15). -/
structure AttCfg where
  c0En : Bool := false
  c0Period : BitVec 16 := 0
  c0Depth : BitVec 4 := 0
  c0MaxPrio : BitVec 2 := 0
  poisonAware : Bool := false
  crDdr : BitVec 5 := 0
  crSram : BitVec 5 := 0
  crFab : BitVec 5 := 0
  crPcie : BitVec 5 := 0
  crMisc : BitVec 5 := 0
  reasm : BitVec 6 := 0
  clk : ClkSel := {}
  deriving DecidableEq, Repr

/-- Fields of an I/O cell (R473), in the control frames of its owner sector, with its clock (R71) and the register
init values of R176 (in Q1, in Q2, out D1, out D2, OE). -/
structure IoCfg where
  std : BitVec 5 := 31
  drive : BitVec 2 := 0
  slew : Bool := false
  pull : BitVec 2 := 0
  odt : BitVec 2 := 0
  inMode : BitVec 2 := 0
  outMode : BitVec 2 := 0
  oeMode : Bool := false
  idelay : BitVec 8 := 0
  odelay : BitVec 8 := 0
  dlyDyn : Bool := false
  safeMode : BitVec 2 := 0
  srcTimebase : Bool := false
  carryIo : Bool := false
  clk : ClkSel := {}
  init : BitVec 5 := 0
  deriving DecidableEq, Repr

/-- Configuration of a converter tile in the Cabinet's frames (R401). -/
structure TileCfg where
  measEn : Bool := false
  adcDiv : BitVec 16 := 0
  adcPhase : BitVec 16 := 0
  srcEn : Bool := false
  dacDiv : BitVec 16 := 0
  ifClk : ClkSel := {}
  deriving DecidableEq, Repr

/-- The directions N, E, S, W in the order of R268. -/
abbrev Dir := Fin 4

/-- The classes of routing wires other than column bus lanes (R63). -/
inductive WireClass where
  | single
  | double
  | six
  | sixteen
  | thirtyTwo
  deriving DecidableEq, Repr

/-- A routing wire of a sector (R63): class, direction, number among those that start in its tile, and that tile. -/
structure Wire where
  cls : WireClass
  dir : Dir
  n : Fin 8
  u : Fin 138
  v : Fin 96
  deriving DecidableEq, Repr

/-- What one input of a multiplexer presents (R66): a level from an output of the tile's own block or from a source outside the
fabric, or the end of a wire of sector `sec`. -/
inductive Level where
  | bit (b : Bool)
  | wire (sec : Sec) (w : Wire)
  deriving DecidableEq, Repr

/-- The inputs that the multiplexer of a block input presents at an edge, in the order of its index. The pins of a block are
numbered in Machine/Routing.lean. -/
structure PinMux where
  pin : Nat
  inputs : List Level
  deriving DecidableEq, Repr

/-- The inputs that the multiplexer at the start of a wire presents, in the order of its index. -/
structure WireDrive where
  wire : Wire
  inputs : List Level
  deriving DecidableEq, Repr

/-- One configuration item that a frame holds. The place of an item within a frame is a matter of the image (R52, R165),
so a command that brings a frame's content also says which items that content configures. `mux` and `pin` are the indices of
the multiplexers of a wire and of a block input (R66), `isolation` the value of the cell where a wire enters the sector (R68). `gline` names the two sources of a
global line; it is taken from a base image only (R131). -/
inductive Setting where
  | cell (u : Fin 138) (v : Fin 96) (c : Fin 16) (cfg : CellCfg)
  | half (u : Fin 138) (v : Fin 96) (h : Fin 2) (cfg : HalfCfg)
  | bench (col : Fin 6) (site : Fin 32) (cfg : BenchCfg)
  | drawer (d : Fin 128) (cfg : DrawerCfg)
  | drawerRow (d : Fin 128) (row : Fin 1024) (content : PWord)
  | hinge (h : Fin 64) (cfg : HingeCfg)
  | lane (col : Fin 10) (lane : Fin 2) (cfg : LaneCfg)
  | regional (line : Fin 8) (global : Fin 32)
  | mux (wire : Wire) (select : Nat)
  | pin (u : Fin 138) (v : Fin 96) (pin : Nat) (select : Nat)
  | isolation (wire : Wire) (value : Bool)
  | attachment (p : Fin 4) (cfg : AttCfg)
  | ioCell (cell : Fin 480) (cfg : IoCfg)
  | userOk (en : Bool)
  | tablePort (clk : ClkSel) (carry : Bool)
  | tile (t : Fin 24) (cfg : TileCfg)
  | cabPort (source : Bool) (clk : ClkSel)
  | rawLane (lane : Fin 128) (clk : ClkSel)
  | bridge (en : Bool)
  | gline (q : Fin 4) (n : Fin 32) (selA selB : BitVec 6)
  deriving DecidableEq, Repr

/-! ## Values that routing brings to the fabric blocks -/

/-- Routing inputs of one logic cell: table inputs IN5..IN0 and the direct inputs (R52). -/
structure CellIn where
  tbl : BitVec 6 := 0
  dx0 : Bool := false
  dx1 : Bool := false
  deriving DecidableEq, Repr

/-- Routing inputs of one logic block: its 16 cells from south to north, and CIN0, CIN1 (R59). `via` gives, in place of a level, the
inputs of a pin's multiplexer. -/
structure BlockIn where
  cells : List CellIn := []
  cin0 : Bool := false
  cin1 : Bool := false
  via : List PinMux := []
  deriving DecidableEq, Repr

/-- Routing inputs of one Bench at a capture edge (R75). -/
structure BenchIn where
  site : Fin 32
  a : List (BitVec 20) := []
  b : List (BitVec 20) := []
  d0 : BitVec 20 := 0
  d1 : BitVec 20 := 0
  c : Word := 0
  t : Word := 0
  tp : Bool := false
  clr0 : Bool := false
  clr1 : Bool := false
  via : List PinMux := []
  deriving DecidableEq, Repr

/-- Fabric signals of one Drawer port at an edge (R97). -/
structure PortIn where
  en : Bool := true
  we : BitVec 4 := 0
  addr : BitVec 12 := 0
  din : PWord := 0
  wp : Bool := false
  via : List PinMux := []
  deriving DecidableEq, Repr

/-- How a reset of a Runner or Hinge goes on: RST rises, falls, or a side with the given clock sees an edge (R117, R160). -/
inductive RstEvent where
  | rise
  | fall
  | edge (second : Bool)
  deriving DecidableEq, Repr

/-- The two parts of a background pass attempt (R119). -/
inductive PassPhase where
  | read
  | writeBack
  deriving DecidableEq, Repr

/-- The values at the pad and routing of an I/O cell at an edge of its clock (R474, R475): pad level, output data D1 and
D2, output enable, and the tap steps of the input and output delay (increment, decrement). -/
structure IoEdge where
  rising : Bool := true
  pad : Bool := false
  d1 : Bool := false
  d2 : Bool := false
  oe : Bool := false
  inInc : Bool := false
  inDec : Bool := false
  outInc : Bool := false
  outDec : Bool := false
  deriving DecidableEq, Repr

/-- What an active edge reaches (R55, R70, R474): a half-block (with the routing inputs of its block and, nearest first, of
the blocks below it in the column), a column bus lane, or an I/O cell. `edge` is 0 where only an asynchronous SR acts. `wires`: the
routing of a sector settles after an edge, the multiplexers of the wires named taking what is presented to them. -/
inductive FfTarget where
  | half (sec : Sec) (u : Fin 138) (v : Fin 96) (h : Fin 2) (edge ce sr : Bool) (blk : BlockIn) (below : List BlockIn)
  | lane (sec : Sec) (col : Fin 10) (lane : Fin 2) (index : BitVec 6) (via : List PinMux := [])
  | io (cell : Fin 480) (e : IoEdge)
  | wires (sec : Sec) (drives : List WireDrive)
  deriving DecidableEq, Repr

/-! ## Clocks -/

/-- The domains whose source a clock switch changes (R133): the management clock, the timebase domain, the Cabinet
domain, and global line n of quadrant q. -/
inductive ClkDomain where
  | mgmt
  | timebase
  | cabinet
  | gline (q : Fin 4) (n : Fin 32)
  deriving DecidableEq, Repr

/-- The judged sources: XO, CHREF (R123) and the Cabinet's CXO (R364). -/
inductive JudgedSource where
  | xo
  | chref
  | cxo
  deriving DecidableEq, Repr

/-! ## Network -/

/-- A router address (R13): bits [4:0] X, bits [8:5] Y. -/
abbrev RouterAddr := BitVec 9

/-- A parcel (R257, R261): header, header parity, four protected payload words. -/
structure Parcel where
  hdr : BitVec 64
  par : BitVec 8
  pay : List PWord
  deriving DecidableEq, Repr

/-- The requests that an initiator issues (R283). -/
inductive ReqOp where
  | rd
  | wr
  | wrp
  | fadd
  | swap
  | cas
  deriving DecidableEq, Repr

/-- A request as an initiator presents it (R265, R285): address, length n, byte masks, write data parcels of four words
with their poison bits, operands of an atomic, class, priority, key id and read-ahead hint. -/
structure Request where
  op : ReqOp
  addr : BitVec 48
  len : BitVec 6 := 0
  firstMask : BitVec 32 := 0xFFFFFFFF
  lastMask : BitVec 32 := 0xFFFFFFFF
  data : List (List (Word × Bool)) := []
  operands : List (Word × Bool) := []
  bulk : Bool := true
  prio : BitVec 2 := 0
  key : BitVec 6 := 0
  raHint : Bool := false
  raStream : BitVec 3 := 0
  deriving DecidableEq, Repr

/-- An attachment point of a fabric router: router number 0 to 127 (16·(Y − 1) + X − 1) and port 0 or 1. -/
structure AttPoint where
  router : Fin 128
  port : Fin 2
  deriving DecidableEq, Repr

/-- The edge blocks (R12). -/
inductive EdgeBlock where
  | pcie (q : Fin 4)
  | ddr (n : Fin 8)
  | qdr (n : Fin 4)
  | bureau
  | timebase
  | gateway
  | debug
  deriving DecidableEq, Repr

/-- A router: one of the 128 fabric routers, or an edge router. -/
inductive Router where
  | fabric (i : Fin 128)
  | edge (e : EdgeBlock)
  deriving DecidableEq, Repr

/-- The response a fabric target port gives to a request it accepted (R284, R287): the code and the data parcels. -/
structure TargetResp where
  src : RouterAddr
  srcPort : BitVec 2
  tag : BitVec 12
  code : BitVec 6 := 0
  data : List (List (Word × Bool)) := []
  deriving DecidableEq, Repr

/-! ## Configuration commands -/

/-- The words of an image with their poison, as a source delivers them. -/
abbrev ImageWords := List (Word × Bool)

/-- Where a load takes its image from (R205, R515): a copy of a store slot (area 0 main, 1 partial), with `newest` in place of a
copy number; a host buffer with what the Bureau read from it (nothing where the read fails); the configuration port. -/
inductive LoadFrom where
  | store (area : Fin 2) (slot : Fin 32) (copy : Fin 2) (newest : Bool)
  | host (image : Option ImageWords)
  | port
  deriving DecidableEq, Repr

/-- What COMMIT and ROLLBACK name (R173). -/
inductive CommitTarget where
  | full
  | region (r : Fin 16)
  deriving DecidableEq, Repr

/-- What happens at the configuration port (R206, R207): an image passes as a whole; words of CFG_D that are taken
with CFG_VALID 1; the number of free words of its buffer changes. -/
inductive CfgPortEvent where
  | image (words : ImageWords)
  | words (ds : List (BitVec 16))
  | level (free : Nat)
  deriving DecidableEq, Repr

/-- How a STORE_WRITE goes on once it has begun (R203, R513). -/
inductive StoreOutcome where
  | ok
  | verifyFails
  | sourceFails
  | interrupted
  deriving DecidableEq, Repr

/-! ## The Cabinet -/

/-- The steps of self-test and calibration that a tile can fail by itself (R407, steps 2 to 5). -/
inductive CalStep where
  | adcOffset
  | adcGain
  | loop
  | linearity
  deriving DecidableEq, Repr

/-- What the self-tests at a Cabinet start find (R386, R407, R49): CREF in range, tiles that fail a step, the first pattern that
the gateway's decoder fails (0: none). -/
structure CabTest where
  cref : Bool := true
  fails : List (Fin 24 × CalStep) := []
  decoder : Fin 9 := 0
  deriving DecidableEq, Repr

/-- What a burn of one-time memory left where it does not verify (R383): the entry's hash, role and programmed bit. -/
structure SealBurn where
  hash : BitVec 384
  role : BitVec 2
  programmed : Bool
  deriving DecidableEq, Repr

/-- What a tile's measure side meets in a sample slot (R399, R409): the input in codes before clamping; whether the conversion
check passes. -/
structure SampleIn where
  tile : Fin 24
  code : Int
  checkOk : Bool := true
  deriving DecidableEq, Repr

/-! ## Memories -/

/-- The DQS interval oscillator count of a device on a sub-channel and logical rank (R316). -/
structure DqsCount where
  sub : Bool
  rank : Fin 4
  device : Fin 16
  count : BitVec 16
  deriving DecidableEq, Repr

/-- What a channel's SPD device says (R313, R314): readable with a good checksum, a supported module type, device width, density in
Gb, banks, logical ranks, data rate in units of 100 MT/s, the activate count at which a bank needs an RFM (0: refresh management is
not required, R324); and the DQS interval oscillator counts that its devices have at the end of training (R316). -/
structure DdrSpd where
  readable : Bool := true
  moduleOk : Bool := true
  width : Nat := 4
  density : Nat := 16
  banks : Nat := 32
  ranks : Nat := 1
  rate : Nat := 64
  rfmAt : Nat := 0
  dqs : List DqsCount := []
  deriving DecidableEq, Repr

/-- A DDR5 channel or an SRAM die, as one unit to fill (R47). -/
inductive MemUnit where
  | ddr (n : Fin 8)
  | sram (n : Fin 4)
  deriving DecidableEq, Repr

/-- Where a DRAM command went (R332): sub-channel, logical rank, device address of the request (0 for none), the last command as
two CA beats. -/
structure DdrCmdAt where
  sub : Bool
  rank : Fin 4
  addr : BitVec 48
  command : BitVec 28
  deriving DecidableEq, Repr

/-! ## Lanes -/

/-- How a lane quad fails its self-test (R438, R488): its PLL did not lock, or lanes of it counted an error. -/
structure QuadFail where
  quad : Fin 32
  pll : Bool
  lanes : BitVec 4
  deriving DecidableEq, Repr

/-- Why an ACTIVE lane is lost (R431), in the coding of R488. -/
inductive LaneCause where
  | energy
  | lock
  | headers
  | codes
  | codewords
  deriving DecidableEq, Repr

/-! ## Host -/

/-- A host access at a BAR (R23, R24, R28): a read with its byte enables from an offset on, or a write with its enabled bytes and
EP. -/
inductive HostAcc where
  | rd (off : BitVec 36) (en : List Bool)
  | wr (off : BitVec 36) (bytes : List (Option (BitVec 8))) (ep : Bool)
  deriving DecidableEq, Repr

/-- The data of a host completion: its TLPs in order with EP (R447, R448). -/
abbrev HostData := List (List (BitVec 8) × Bool)

/-- How host memory answers a read (R447, R449): Successful Completion with data, Unsupported Request, Completer Abort, completion
timeout. -/
inductive HostStatus where
  | sc (data : HostData)
  | ur
  | ca
  | timeout
  deriving DecidableEq, Repr

/-- The sizes that the host has set in configuration space (R444): Max Read Request Size 128·2^read bytes and Max Payload Size
128·2^payload bytes. -/
structure TlpLimits where
  read : Fin 6 := 2
  payload : Fin 3 := 0
  deriving DecidableEq, Repr

/-! ## Resets and supplies -/

/-- The straps sampled at the release of the management-die power-on reset (R212, R502, R523). -/
structure Straps where
  ioPullHp : BitVec 2 := 0
  ioPullHv : BitVec 2 := 0
  slotId : BitVec 6 := 0
  cfgGrp : BitVec 4 := 0
  testMode : Bool := false
  deriving DecidableEq, Repr

/-- A decoder that fails its self-test, with the first failing pattern, 1 to 8, of R49 (R50). -/
inductive DecoderFail where
  | ddr (n : Fin 8) (merge : Bool) (pattern : Fin 9)
  | sram (n : Fin 4) (merge : Bool) (pattern : Fin 9)
  | engine (e : Fin 12) (pattern : Fin 9)
  | drawer (sec : Fin 64) (d : Fin 128) (portB : Bool) (pattern : Fin 9)
  | att (p : AttPoint) (pattern : Fin 9)
  | pcie (q : Fin 4) (pattern : Fin 9)
  | loader (pattern : Fin 9)
  deriving DecidableEq, Repr

/-- The watched rails, numbered as in R488: VCC_FAB, VCC_NOC, VCC_CFG, VCC_MGT, VCC_MGTA, VCC_QDR, VDDQ_DDR, VCC_IO_HP,
VCC_IO_HV. -/
abbrev Rail := Fin 9

/-- A rail out of its range: the rail; its quadrant or bank, 0 for a rail without one; above or below; measured mV. -/
structure RailState where
  rail : Rail
  unit : Fin 10 := 0
  above : Bool := false
  mv : BitVec 16 := 0
  deriving DecidableEq, Repr

/-- A transfer on the management SPI port, from the fall of MSPI_CS_N to its rise: the bytes that the master sends (R509). -/
abbrev SpiBytes := List (BitVec 8)

/-- The paths into management space (R511): BAR0, the management SPI port, debug access, the network. -/
inductive Path where
  | bar0
  | mspi
  | debug
  | network
  deriving DecidableEq, Repr

end Sys2Proof
end

