-- ==== Sys2Proof/Syntax.lean ====
section
/-! DEFINITION. The commands of the block: one constructor per row of the command table, with the operands that its rule gives it
and the values that pins, routing, host, store, timers and other agents bring with it. Each docstring names the row and its rule. -/

namespace Sys2Proof

/-- The commands (spec/opcode_table.json). -/
inductive Instr where
  /-- REGISTER_WRITE (R542): A write to management space reaches a register that has no row of its own; each enabled bit
  acts under its field's access code. Operands: a write by a path into management space: BAR0 offset, bytes from there
  on, those not enabled absent; poison mark; the W1C bits of the slot that hardware sets in the same management clock
  cycle, by an event given before. -/
  | registerWrite (path : Path) (a : BitVec 26) (bytes : List (Option (BitVec 8))) (poison : Bool) (setNow : BitVec 64 := 0)
  /-- BAR0_ACCESS (R23): A host TLP at BAR0 reaches the management block and offset that it selects. Operands: a host
  access at BAR0 with its transaction id. -/
  | bar0Access (id : Nat) (ecrcOk : Bool) (acc : HostAcc)
  /-- BAR2_ACCESS (R24): A host access at BAR2 is translated through its segment's BAR2_XLATE register or completed with
  Unsupported Request. Operands: a host access at BAR2 of a link of Pq. -/
  | bar2Access (q link : Fin 4) (id : Nat) (ecrcOk : Bool) (acc : HostAcc)
  /-- BAR4_ACCESS (R28): A host access at BAR4 becomes a request to the target attachment window, or completes with
  Unsupported Request while target_valid is 0. Operands: a host access at BAR4. -/
  | bar4Access (id : Nat) (ecrcOk : Bool) (acc : HostAcc)
  /-- ECC_CNT_CLR (R43): A write of 1 to ECC_CNT.clr sets ce_count and ue_count to 0. Operands: clear of ECC_CNT_u; inc:
  ce_count, ue_count increment in the same cycle. -/
  | eccCntClr (u : Fin 104) (inc : BitVec 2)
  /-- START_UP_FILL_COMPLETE (R47): An SRAM die or DDR5 channel finishes writing clean zero words to every location and
  begins to perform requests. Operands: a channel or die has finished its fill. -/
  | startUpFillComplete (unit : MemUnit)
  /-- CONFIGURATION_UPSET (R62): An upset in a configuration cell of the active leaf changes the function it configures
  until the scrubber repairs the frame. Operands: bits of a frame invert; the frame then configures the items given.
  -/
  | configurationUpset (sec : Sec) (leaf : LeafId) (frame : Fin 1536) (flips : List Nat) (now : List Setting)
  /-- GLOBAL_SET_RESET_RELEASE (R57): Once every clock input of a sector has stopped, the Bureau releases global set/reset
  and restarts the clocks at least 4 management cycles later. -/
  | globalSetResetRelease (sec : Sec)
  /-- GCLK_GATE_WRITE (R132): A write to GCLK_GATE_q.gate stops or restarts global lines at their next falling edge or
  with a full high phase. -/
  | gclkGateWrite (q : Fin 4) (v : BitVec 32)
  /-- REGIONAL_GATE_ENABLE_CHANGE (R132): A regional line gate enable rises or falls and the line starts within 2 periods
  or stops after its current high phase. -/
  | regionalGateEnableChange (sec : Sec) (line : Fin 8) (en : Bool)
  /-- DRAWER_PORT_ACCESS (R99): A Drawer port acts at a clock edge with EN_x set, reading or writing an entry with read
  data valid L edges later. Operands: edges of the ports, B first or not; close: the two edges fall so close together
  that R102 applies. -/
  | drawerPortAccess (sec : Sec) (dr : Fin 128) (a b : Option PortIn) (bFirst close : Bool)
  /-- QUEUE_WRITE (R113): A Runner queue write side edge with WR_EN accepts the write or refuses it and sets WR_OVF.
  Operands: a write edge with WR_EN; rd: RD_EN at the same edge of a single-clock queue. -/
  | queueWrite (sec : Sec) (dr : Fin 128) (din : PWord) (wp rd : Bool)
  /-- QUEUE_READ (R113): A Runner queue read side edge with RD_EN accepts the read or refuses it and sets RD_UNF.
  Operands: a read edge. -/
  | queueRead (sec : Sec) (dr : Fin 128) (rd : Bool)
  /-- QUEUE_POINTER_SYNC (R115): A synchronised Gray pointer reaches the other side of a dual-clock queue and EMPTY or
  FULL falls with updated counts. Operands: a pointer arrives at the other side, passing over older ones. -/
  | queuePointerSync (sec : Sec) (dr : Fin 128) (toRead : Bool) (skip : Nat)
  /-- QUEUE_RST (R117): RST of a Runner queue or delay line puts each side in reset until S + 1 edges after it falls. -/
  | queueRst (sec : Sec) (dr : Fin 128) (ev : RstEvent)
  /-- DELAY_LINE_ADVANCE (R118): An advancing edge of a delay line writes the input row and reads the row d entries
  earlier. -/
  | delayLineAdvance (sec : Sec) (dr : Fin 128) (din : PWord) (wp : Bool)
  /-- RUNNER_PASS_ATTEMPT (R119): The pass count expires and the Runner reads, decodes and, when renewed, writes back one
  row at idle port B edges. -/
  | runnerPassAttempt (sec : Sec) (dr : Fin 128) (phase : PassPhase)
  /-- DRAWER_INIT_COMPLETE (R109): Drawer initialisation writes its 1,024th row and INIT_DONE rises. -/
  | drawerInitComplete (sec : Sec) (dr : Fin 128)
  /-- BENCH_CAPTURE (R91): A Bench captures operands, CLR and triplet at an enabled edge and produces results after the
  mode's latency. Operands: one clock edge of Benches of a column with their routing inputs. -/
  | benchCapture (sec : Sec) (col : Fin 6) (inputs : List BenchIn)
  /-- BENCH_RST (R90): RST at a Bench clock edge sets every pipeline register, accumulator and flag to 0. -/
  | benchRst (sec : Sec) (col : Fin 6) (site : Fin 32)
  /-- VALUE_LOAD (R150): A value Hinge source edge with S_LOAD places the value in hold or pending and counts overtaken
  values. Operands: a source edge; late: the first stage of the acknowledge chain resolves one edge late; via: inputs
  that come over routing multiplexers. -/
  | valueLoad (sec : Sec) (h : Fin 64) (load : Bool) (data : PWord) (clr : Bool) (late : Bool := false) (via : List PinMux := [])
  /-- VALUE_DELIVERY (R150): The destination sees a toggled take flag, copies the hold register into D_DATA, sets D_NEW
  and toggles acknowledge. Operands: a destination edge; late: the first stage of the take chain resolves one edge
  late. -/
  | valueDelivery (sec : Sec) (h : Fin 64) (late : Bool)
  /-- VALUE_HANDSHAKE_COMPLETE (R152): The returned acknowledge reaches the source, ending the handshake and sending any
  pending value. Operands: a source edge at which the acknowledge has returned. -/
  | valueHandshakeComplete (sec : Sec) (h : Fin 64) (load : Bool) (data : PWord) (clr : Bool) (late : Bool := false) (via : List PinMux := [])
  /-- COUNTER_EVENT (R155): A counter Hinge source edge with S_EVT counts the event or refuses it and sets S_DROP.
  Operands: a source edge with S_EVT; late: the first stage of the return chain resolves one edge late. -/
  | counterEvent (sec : Sec) (h : Fin 64) (late : Bool := false) (via : List PinMux := [])
  /-- COUNTER_DELIVERY (R155): A counter Hinge destination edge samples the source count and delivers up to 127 events in
  D_DELTA. Operands: a destination edge; late: how many of the newest events the first stage sees one edge late. -/
  | counterDelivery (sec : Sec) (h : Fin 64) (late : Nat)
  /-- WAKE_REQUEST (R157): A rising edge of W_REQ sets the wake latch, which enables the named regional line. Operands: a
  pulse of W_REQ of ps picoseconds. -/
  | wakeRequest (sec : Sec) (h : Fin 64) (ps : Nat)
  /-- WAKE_CLEAR (R158): An edge of the woken line with W_CLR 1 and W_REQ 0 clears the wake latch. -/
  | wakeClear (sec : Sec) (h : Fin 64) (wReq : Bool) (via : List PinMux := [])
  /-- HINGE_RST (R160): RST of a level, value or counter Hinge resets both sides until released synchronously on each. -/
  | hingeRst (sec : Sec) (h : Fin 64) (ev : RstEvent)
  /-- JUDGING_WINDOW (R123): A 65,536-cycle IRO window ends and its count advances or resets the good run, making the
  source STABLE or FAILED. Operands: a judging window ends with a count. -/
  | judgingWindow (src : JudgedSource) (count : BitVec 24)
  /-- MANAGEMENT_PLL_LOCKED (R126): Management PLLs 1 and 0 lock to the stable source and the management clock is switched
  to management PLL 0. -/
  | managementPllLocked
  /-- REJUDGE (R138): A write of 1 to REF_CFG.rejudge judges every TRIPPED or FAILED source again. -/
  | rejudge
  /-- CLOCK_SWITCH_REQUEST (R133): A domain switch request holds the output low at the old source's next falling edge and
  connects the new source. Operands: events 1 and 2 of a switch that is under way. -/
  | clockSwitchRequest (dom : ClkDomain)
  /-- SWITCH_FORCE_TIMEOUT (R133): No falling edge of the old source arrives within 64 new periods, so the output is
  forced low and the old source released. -/
  | switchForceTimeout (dom : ClkDomain)
  /-- CLOCK_SWITCH_COMPLETE (R133): The first rising edge of the new source passes after 8 new periods and any queued
  switch request is acted on. Operands: event 3; gap: timebase periods without an edge; blocks: timing stream blocks
  since the last code. -/
  | clockSwitchComplete (dom : ClkDomain) (gap blocks : Nat)
  /-- PLL_LOSS_OF_LOCK (R130): A PLL loses lock for another cause; its outputs stop low and FLT_PLL_UNLOCK is raised. -/
  | pllLossOfLock (p : Fin 63)
  /-- PLL_LOCK (R129): A started PLL reaches lock on its reference and its outputs run. -/
  | pllLock (p : Fin 63)
  /-- GLOBAL_LINE_SOURCE_CHANGE (R131): The run-time routing input of a global line changes and the line switches between
  sel_a and sel_b. -/
  | globalLineSourceChange (q : Fin 4) (n : Fin 32) (side : Bool)
  /-- TB_RETURN_HOLD_EXPIRY (R135): With return_mode 1, a higher source has been good for return_hold seconds and the
  timebase domain moves to it. -/
  | tbReturnHoldExpiry (src : Fin 3) (cab : Bool)
  /-- GO_STREAM (R136): A write of 1 to TB_CLK_CTRL.go_stream switches the timebase domain to the stream, or sets
  go_refused when it is not good. -/
  | goStream
  /-- GO_CRYSTAL (R136): A write of 1 to TB_CLK_CTRL.go_crystal switches the timebase domain to the crystal, or sets
  go_refused. -/
  | goCrystal
  /-- GO_INTERNAL (R136): A write of 1 to TB_CLK_CTRL.go_internal switches the timebase domain to the internal oscillator.
  -/
  | goInternal
  /-- CLK_MISSING_EDGE_TRIP (R140): The missing-edge detector sees no rising edge within 4 nominal periods and trips,
  raising FLT_CLK_MISSING. Operands: monitors 0 to 10; 11 the CXO and 12 the stream of the Cabinet. -/
  | clkMissingEdgeTrip (n : Fin 13)
  /-- CLK_FREQUENCY_WINDOW (R140): A monitor frequency window of 65,536 compare cycles ends, records its count and trips
  FLT_CLK_FREQ when out of limits. -/
  | clkFrequencyWindow (n : Fin 11) (count : BitVec 24)
  /-- COMMIT (R174): The COMMIT command is checked in order and either refused or started by fencing the set's attachments
  and beginning the drain. -/
  | commit (target : CommitTarget)
  /-- ROLLBACK (R181): The ROLLBACK command is checked in order and either refused or run as a commit to the retired leaf.
  -/
  | rollback (target : CommitTarget)
  /-- COMMIT_DRAIN_COMPLETE (R175): Every sector-side queue of the commit set is empty and the clock inputs are ordered to
  stop 5 ns later. -/
  | commitDrainComplete (us : Nat)
  /-- COMMIT_DRAIN_TIMEOUT (R175): drain_timeout expires; with drain_policy 0 the commit ends with DRAIN_TIMEOUT, with 1
  it continues. -/
  | commitDrainTimeout
  /-- COMMIT_QUIET_WINDOW_BEGIN (R175): The last clock input of the set stops and the isolation and owned I/O cells hold
  their values. Operands: pins: data and enable that routing presents to I/O cells in the direct modes. -/
  | commitQuietWindowBegin (pins : List (Fin 480 × Bool × Bool))
  /-- COMMIT_STROBE (R176): 8·T_q after the quiet window begins, every active-leaf select of the set flips, flip-flops
  take init values and epochs increment. -/
  | commitStrobe
  /-- COMMIT_QUIET_WINDOW_END (R175): 16·T_q after the window begins, clocks restart, isolation cells release and I/O
  cells follow the new leaf. -/
  | commitQuietWindowEnd
  /-- COMMIT_EPOCH_HOLD_END (R231): The transaction timeout after the strobe passes, attachments return to their earlier
  state and the commit responds OK. -/
  | commitEpochHoldEnd
  /-- LEDGER_READ (R186): A management read of a ledger entry decodes it, counts and logs its outcome and schedules
  recomputation when UNCORRECTABLE. -/
  | ledgerRead (leaf : LeafId) (sec : Fin 64) (frame : Fin 1536)
  /-- LOAD_IMAGE (R198): The LOAD_IMAGE command starts a full load from its source after the checks made before writing.
  -/
  | loadImage (src : LoadFrom)
  /-- LOAD_PARTIAL (R224): The LOAD_PARTIAL command starts a partial load with the write gate set to its region. -/
  | loadPartial (src : LoadFrom)
  /-- IMAGE_SECTION (R189): The loader reaches a section of the image and checks its CRC, content and tag. -/
  | imageSection
  /-- FRAME_RECORD (R190): The loader takes a frame record, checks its addresses against the write gate, decompresses it
  and writes and verifies it at every address. Operands: the items that each frame of the record configures; failed
  verifications. -/
  | frameRecord (items : List (List Setting)) (mismatches : Nat)
  /-- LOAD_COMPLETE (R198): The final trailer, stream CRC and signature checks pass and every written sector becomes
  SEALED in one cycle. -/
  | loadComplete
  /-- LOAD_ABORT (R511): A write of 1 to MBX_CTRL.abort ends a running load with LOAD_ERR_ABORTED. -/
  | loadAbort (path : Path)
  /-- CONFIGURATION_PORT_IMAGE (R206): The configuration port reads an image header and takes or skips the image according
  to group_mask and arming. -/
  | configurationPortImage (ev : CfgPortEvent)
  /-- BOOT_PROCEDURE (R210): Once the management clock is on PLL 0 or reduced service is entered, the Bureau runs the boot
  policy over its candidates. -/
  | bootProcedure
  /-- STARTUP_PLLS_LOCKED (R213): Every fabric PLL that the image enables has locked and the start-up commit strobe
  selects the new leaves. -/
  | startupPllsLocked
  /-- STARTUP_PLL_TIMEOUT (R213): A fabric PLL has not locked within 1 ms and start-up fails with LOAD_ERR_PLL or
  START_FAILED. -/
  | startupPllTimeout
  /-- STARTUP_QUADRANT_RELEASE (R213): Quadrant q's delay expires and it releases global set/reset and makes its
  attachments ACTIVE. -/
  | startupQuadrantRelease (q : Fin 4)
  /-- STARTUP_OUTPUT_RELEASE (R213): After the last quadrant release, output enables are released and owned I/O cells
  follow the active leaf. -/
  | startupOutputRelease
  /-- STARTUP_DONE (R213): DONE is driven high, the health timer starts, the lane settings table is cached and P0 begins
  to retrain. -/
  | startupDone
  /-- HEALTH_CHECK_PASS (R216): The synchronised USER_OK is seen at 1 while a health check runs and the check passes.
  Operands: USER_OK of each sector. -/
  | healthCheckPass (inputs : BitVec 64)
  /-- HEALTH_TIMEOUT (R216): health_ms expires without USER_OK; FLT_HEALTH_TIMEOUT is raised and the Bureau may roll back
  or reconfigure. -/
  | healthTimeout
  /-- RECONFIGURE (R528): The RECONFIGURE command returns sectors and pins to the initial-load state and runs the boot
  procedure. -/
  | reconfigure
  /-- STORE_WRITE (R203): The STORE_WRITE command checks its refusals and writes the older copy of a slot, ending with a
  new copy header. -/
  | storeWrite (area : Fin 4) (slot : Fin 32) (overwrite single : Bool) (img : ImageWords) (res : StoreOutcome)
  /-- STORE_SELECT (R515): The STORE_SELECT command writes the boot record from BOOT_CFG, REF_CFG, start_target and
  size_log2. -/
  | storeSelect (size : BitVec 6)
  /-- REGION_FENCE (R232): The REGION_FENCE command makes the region's router sides FENCED from the next network cycle. -/
  | regionFence (r : Fin 16)
  /-- REGION_UNFENCE (R232): The REGION_UNFENCE command returns a fenced region to ACTIVE unless escalation holds it. -/
  | regionUnfence (r : Fin 16)
  /-- REGION_RESET_ASSERT (R232): The REGION_RESET assert command fences, drains and applies global set/reset, leaving the
  region RESETTING. -/
  | regionResetAssert (r : Fin 16)
  /-- REGION_RESET_RELEASE (R232): The REGION_RESET release command releases global set/reset and leaves the region
  FENCED. -/
  | regionResetRelease (r : Fin 16)
  /-- REGION_POWER_OFF_RETAIN (R236): The REGION_POWER off retain command starts the power-down sequence towards
  OFF_RETAINED. -/
  | regionPowerOffRetain (r : Fin 16)
  /-- REGION_POWER_OFF_LOSE (R236): The REGION_POWER off lose command starts the power-down sequence towards OFF_LOST, or
  unpowers configuration from OFF_RETAINED. -/
  | regionPowerOffLose (r : Fin 16)
  /-- REGION_POWER_ON (R237): The REGION_POWER on command starts the power-up sequence from OFF_RETAINED or OFF_LOST. -/
  | regionPowerOn (r : Fin 16)
  /-- REGION_DRAIN_COMPLETE (R234): Both sector-side queues of every attachment of the region are empty and the clocks are
  ordered to stop. -/
  | regionDrainComplete (r : Fin 16) (us : Nat)
  /-- REGION_DRAIN_TIMEOUT (R233): The region drain timeout expires; with drain_policy 0 the command ends
  REGION_ERR_DRAIN, otherwise remaining parcels are dropped. -/
  | regionDrainTimeout (r : Fin 16)
  /-- REGION_CLOCKS_STOPPED (R236): The last clock input of the region stops, after which a region reset applies global
  set/reset. -/
  | regionClocksStopped (r : Fin 16)
  /-- REGION_ATTACHMENTS_OFF (R236): 100 ns after the clocks stop, attachments become OFF, epochs increment and queues are
  emptied. -/
  | regionAttachmentsOff (r : Fin 16)
  /-- VCC_FAB_SWITCH_OPEN (R236): 1 µs after the attachments go OFF, each sector's VCC_FAB switch opens. -/
  | vccFabSwitchOpen (r : Fin 16)
  /-- CONFIGURATION_UNPOWERED (R236): For lose, configuration cells are unpowered, descriptors become EMPTY and the
  command responds OK. -/
  | configurationUnpowered (r : Fin 16)
  /-- VCC_FAB_SWITCH_CLOSE (R237): The next sector's VCC_FAB switch closes 10 µs after the one before during power-up. -/
  | vccFabSwitchClose (r : Fin 16)
  /-- VCC_FAB_GOOD (R237): VCC_FAB is good in every sector of the region, and from OFF_LOST the SEALED leaf is committed
  before clocks start. -/
  | vccFabGood (r : Fin 16)
  /-- FLT_SECTOR_POWER (R237): VCC_FAB is not good 40 µs after the last switch closes; the region returns to its OFF state
  with REGION_ERR_POWER. -/
  | fltSectorPower (r : Fin 16) (sec : Fin 64) (mv : BitVec 16)
  /-- REGION_POWER_UP_RELEASE (R237): After Drawer initialisation and the transaction timeout, global set/reset is
  released and attachments become FENCED. -/
  | regionPowerUpRelease (r : Fin 16)
  /-- SCRUB_SLOT (R244): A scrub slot comes due and the frame it names is read and classified against its ledger entry.
  Operands: a slot of quadrant q, or of the Cabinet (4); flips: bits of the sequencer copies upset since the last
  vote; verifyFails: both read-backs of a correction differ. -/
  | scrubSlot (q : Fin 5) (flips : List (Fin 3 × Fin 4 × Fin 64) := []) (verifyFails : Bool := false)
  /-- STORE_REPAIR (R247): The store read for a MULTI frame returns and the frame is rewritten from its repair source or
  marked unrestored. -/
  | storeRepair (sec : Sec) (leaf : LeafId) (frame : Fin 1536) (verifyFails : Bool)
  /-- LEDGER_RECOMPUTE (R250): A LEDGER-class entry is recomputed from its repair source and rewritten, or the frame is
  unrestored. -/
  | ledgerRecompute (sec : Sec) (leaf : LeafId) (frame : Fin 1536) (verifyFails : Bool := false)
  /-- SCRUB_CNT_CLR (R252): A write of 1 to SCRUB_CFG.cnt_clr sets every SCRUB_COUNTS field to 0. -/
  | scrubCntClr (inc : BitVec 4)
  /-- PARCEL_ARRIVAL (R268): Arriving parcels at a router are checked, ranked and each ejected, forwarded productively or
  deflected. Operands: a network edge at a router begins with its arrivals. -/
  | parcelArrival (r : Router)
  /-- PARCEL_INJECT (R268): An eligible outbound head is placed on a free productive output or local ejection slot. -/
  | parcelInject (r : Router)
  /-- CROSSING_RECENTRE (R260): A die-crossing stage's fill leaves its range; it re-centres, corrupts header parity of the
  slot and raises FLT_NOC_CROSSING. -/
  | crossingRecentre (r : Router) (dir : Dir) (repeated : Bool)
  /-- TOKEN_GAIN (R271): A regulator's period expires and it gains one class 0 token up to its depth. -/
  | tokenGain (r : Router) (port : Fin 2)
  /-- NOC_RTR_CNT_CLR (R281): A write of 1 to NOC_RTR_CNT_a.clr sets every count of that register to 0. -/
  | nocRtrCntClr (r : Router) (inc : BitVec 2)
  /-- NOC_ATT_CNT_CLR (R281): A write of 1 to NOC_ATT_CNT_a_p.clr sets every count of that register to 0. -/
  | nocAttCntClr (att : AttPoint) (inc : BitVec 2)
  /-- NOC_EDGE_REG_WRITE (R281): A write to NOC_EDGE_REG_a takes effect at the next network edge keeping tokens up to the
  new depth. -/
  | nocEdgeRegWrite (e : EdgeBlock) (v : Word)
  /-- USER_REQUEST (R289): An initiator port issues a transaction, which the attachment refuses, splits or admits into its
  outbound queue under its credits. -/
  | userRequest (att : AttPoint) (req : Request)
  /-- SUB_READ_ISSUE (R291): Credits become free and the next sub-read of a split read is issued with its own tag and
  timer. -/
  | subReadIssue (att : AttPoint)
  /-- TARGET_REQUEST (R293): A target holds a request and all its data parcels and performs the transaction whole, or
  refuses it. Operands: the target performs the transaction it holds under a source and tag. -/
  | targetRequest (target : Router) (port : Fin 2) (src : RouterAddr) (srcPort : BitVec 2) (tag : BitVec 12)
  /-- REASSEMBLY_TIMEOUT (R295): Parcels of an incomplete transaction have waited one transaction timeout at a target and
  are discarded as orphans. -/
  | reassemblyTimeout (target : Router) (port : Fin 2) (src : RouterAddr) (srcPort : BitVec 2) (tag : BitVec 12)
  /-- TRANSACTION_TIMEOUT (R297): A transaction timer expires before its response completes; the attachment completes it
  with TIMEOUT and quarantines the tag. -/
  | transactionTimeout (req : Router) (port : Fin 2) (tag : BitVec 12)
  /-- TAG_QUARANTINE_END (R288): A quarantined tag's further transaction timeout ends and the tag may be allocated again.
  -/
  | tagQuarantineEnd (req : Router) (port : Fin 2) (tag : BitVec 12)
  /-- RESPONSE_DELIVERY (R302): A response reaches a router side and is delivered to the initiator port or discarded as
  stale. -/
  | responseDelivery (r : Router) (port : Fin 2)
  /-- NOC_FAULT_CNT_CLR (R300): A write of 1 to NOC_FAULT_a.cnt_clr sets count to 0. -/
  | nocFaultCntClr (r : Router) (inc : Bool)
  /-- NOC_ATT_DROP_CLR (R304): A write of 1 to NOC_ATT_DROP_a_p.clr sets every count to 0. -/
  | nocAttDropClr (r : Router) (port : Fin 2) (inc : BitVec 4)
  /-- TABLE_PORT_READ (R309): A table port read command is taken, accepted by the die and passes the encryption engine or
  is refused with TP_DERR. -/
  | tablePortRead (q : Fin 4) (ra : BitVec 22)
  /-- TABLE_PORT_WRITE (R309): A table port write command is taken and applied at the die's port cycle of acceptance. -/
  | tablePortWrite (q : Fin 4) (wa : BitVec 22) (we : BitVec 2) (w0 w1 : Word) (p0 p1 : Bool)
  /-- TABLE_PORT_READ_DATA (R309): Read data leaves the die 18 port cycles after acceptance and is presented with TP_DV
  after the crossing. -/
  | tablePortReadData (q : Fin 4)
  /-- SRAM_COMMAND_PARITY_FAIL (R312): An SRAM command fails parity and is repeated; after 16 failures the die leaves
  service with FLT_SRAM_LINK. -/
  | sramCommandParityFail (n : Fin 4) (fromTp : Bool) (addr : BitVec 48)
  /-- DDR_TRAINING_COMPLETE (R315): A channel completes boot training and its fill begins. -/
  | ddrTrainingComplete (n : Fin 8) (spd : DdrSpd)
  /-- FLT_DDR_TRAIN (R315): A channel does not complete training within 150 ms and is taken out of service. -/
  | fltDdrTrain (n : Fin 8) (sub : Bool) (rank : Fin 4) (stage : Fin 8)
  /-- DQS_OSCILLATOR_CHECK (R316): Every osc_ms the controller reads the DQS oscillators and retrains write timing of a
  drifted rank. Operands: counts: what the devices read. -/
  | dqsOscillatorCheck (n : Fin 8) (counts : List DqsCount := [])
  /-- DDR_REFRESH (R324): The refresh interval expires and the controller issues or postpones a refresh and any RFM
  required. Operands: rfm: banks (128·sub-channel + bank) that the controller gives an RFM with it, where their count
  requires one. -/
  | ddrRefresh (n : Fin 8) (bank : Fin 4) (rfm : List Nat)
  /-- DDR_POWER_DOWN_ENTRY (R325): A rank is idle for pd_idle controller cycles and enters power-down. -/
  | ddrPowerDownEntry (n : Fin 8) (rank : Fin 4)
  /-- DDR_SELF_REFRESH_ENTRY (R325): A rank is idle for sr_idle × 100 µs and enters self-refresh. -/
  | ddrSelfRefreshEntry (n : Fin 8) (rank : Fin 4)
  /-- DDR_CA_PARITY_ALERT (R329): A command/address parity alert freezes the channel and outstanding requests are answered
  within 2 µs. -/
  | ddrCaParityAlert (n : Fin 8) (cmd : DdrCmdAt)
  /-- DDR_WRITE_CRC_ALERT (R328): A write CRC alert repeats the write and freezes the channel after wcrc_retries failures
  in a row. -/
  | ddrWriteCrcAlert (n : Fin 8) (cmd : DdrCmdAt)
  /-- CHANNEL_RESET (R330): A write of 1 to DDR_CH_CTRL_n.reset answers outstanding requests CHANNEL_RESET and retrains
  and refills the channel. -/
  | channelReset (n : Fin 8)
  /-- DDR_MAP_APPLY (R320): A write of 1 to DDR_MAP_CFG.apply checks the masks and resets and refills every in-service
  channel under the new mapping. -/
  | ddrMapApply
  /-- DDR_RETRAINING_COMPLETE (R331): After a warm reset a channel finishes ZQ calibration and read training and becomes
  READY with its contents. -/
  | ddrRetrainingComplete (n : Fin 8)
  /-- KEY_LOAD_LOAD (R336): KEY_LOAD with op LOAD unwraps a key and sets mode, key material and hw 0 in a slot of every
  engine of the mask. -/
  | keyLoadLoad (mask : BitVec 12) (slot : Fin 64) (wrapped : List Word)
  /-- KEY_LOAD_CLEAR (R336): KEY_LOAD with op CLEAR sets the slot to PLAINTEXT with no key and hw 0 in every engine of the
  mask. -/
  | keyLoadClear (mask : BitVec 12) (slot : Fin 64)
  /-- KEY_RANGE_DEFINE (R356): KEY_RANGE DEFINE gives a range its slot and, for GCM, binds it and initialises every share.
  -/
  | keyRangeDefine (m : Fin 2) (r : Fin 8) (slot : Fin 64) (base size metaBase : Word)
  /-- KEY_RANGE_DISABLE (R356): KEY_RANGE DISABLE discards dirty nodes and unknown entries, unbinds the slot and makes the
  range UNDEFINED. -/
  | keyRangeDisable (m : Fin 2) (r : Fin 8)
  /-- KEY_RANGE_REINIT (R356): KEY_RANGE REINIT rewrites every line and node under a named node and clears its unknown
  entry. -/
  | keyRangeReinit (m : Fin 2) (r : Fin 8) (engine : Fin 16) (level : Fin 16) (node : BitVec 26)
  /-- RANGE_INITIALISATION_COMPLETE (R356): Every share of an integrity range has been written and the range becomes
  READY. -/
  | rangeInitialisationComplete (m : Fin 2) (r : Fin 8)
  /-- ENC_CFG_WRITE (R342): A write to ENC_CFG completes once all twelve engines hold it, or is ignored with sel_ignored
  for a defined range. -/
  | encCfgWrite (v : Word)
  /-- ENC_CFG_LOCK (R342): A write of 1 to ENC_CFG.lock locks the rights and selection fields until power-on reset. -/
  | encCfgLock
  /-- RIGHTS_WRITE (R342): A write to RIGHTS_n completes once all twelve engines hold the new value. -/
  | rightsWrite (n : Fin 64) (w : Fin 4) (v : Word)
  /-- HITS_CLR (R341): A write of 1 to RIGHTS_n.hits_clr sets hits to 0. -/
  | hitsClr (n : Fin 64)
  /-- ENC_STATUS_CLR (R360): A write of 1 to ENC_STATUS_e.clr sets every count in words 0 and 1 to 0. -/
  | encStatusClr (e : Fin 12) (inc : BitVec 6)
  /-- CABINET_POWER_ON_RESET (R526): The last Cabinet rail enters its range, and 2 ms later the Cabinet reset is released
  and start-up begins. -/
  | cabinetPowerOnReset (test : CabTest)
  /-- CAB_RST_N (R362): Assertion of CAB_RST_N resets the Cabinet, which starts again on release. -/
  | cabRstN
  /-- CABINET_AUDIT_READ (R386): Once the main side is up, the Cabinet reads its audit area and loads and commits the
  image that the log names. -/
  | cabinetAuditRead (items : List (List Setting)) (verifyFails logOk : Bool)
  /-- CABINET_NO_IMAGE_RETRY (R386): In NO_IMAGE the Cabinet retries its start-up load every 1 s. -/
  | cabinetNoImageRetry (items : List (List Setting)) (verifyFails : Bool)
  /-- CABINET_CLOCK_REQUEST (R365): The Cabinet fabric's hard clock request primitive asks the Cabinet domain to switch
  source. -/
  | cabinetClockRequest (src : Fin 3)
  /-- SEALED_LOAD (R383): The gateway SEALED_LOAD command is checked and the Bureau streams a Cabinet slot copy into the
  inactive leaf. Operands: the gateway performs a write of CMD that holds SEALED_LOAD. -/
  | sealedLoad (src : RouterAddr) (srcPort : BitVec 2) (tag : BitVec 12)
  /-- GATEWAY_ROLLBACK (R385): The gateway ROLLBACK command is checked and flips the Cabinet to its retired leaf after a
  ROLLBACK record. -/
  | gatewayRollback (src : RouterAddr) (srcPort : BitVec 2) (tag : BitVec 12)
  /-- TOKEN (R374): The gateway TOKEN command checks a KEY_ADD, KEY_REVOKE or PARAM_SET token and makes the change after
  its record counts. -/
  | token (src : RouterAddr) (srcPort : BitVec 2) (tag : BitVec 12)
  /-- EXPORT_ACK (R381): The gateway EXPORT_ACK command checks a signed acknowledgement and advances the export mark E. -/
  | exportAck (src : RouterAddr) (srcPort : BitVec 2) (tag : BitVec 12)
  /-- CABINET_LOAD_CHECKED (R383): After the last frame is verified, CRC-64, digest, signature and req_tiles are checked
  and the leaf becomes SEALED or ABORTED. -/
  | cabinetLoadChecked (items : List (List Setting)) (verifyFails : Bool)
  /-- AUDIT_RECORD_COUNTED (R378): A record written to ring A verifies and counts, advancing C and allowing the change to
  proceed. -/
  | auditRecordCounted (verifies : Bool) (burn : Option SealBurn)
  /-- CABINET_COMMIT_STROBE (R383): 8·T_c after the Cabinet quiet window begins the new leaf becomes ACTIVE and all
  results are cleared. -/
  | cabinetCommitStrobe
  /-- CABINET_QUIET_WINDOW_END (R383): 16·T_c after the window begins the new Cabinet image runs and CMD_STATUS.busy
  clears. -/
  | cabinetQuietWindowEnd
  /-- RING_B_WRITE (R378): The copy of a record is written to ring B and on failure FLT_CAB_LOG_COPY and log_copy are set.
  -/
  | ringBWrite (verifies : Bool)
  /-- GATEWAY_READ (R388): A read of the gateway returns an image of its range taken at one Cabinet clock edge, renewing
  result copies as needed. -/
  | gatewayRead (src : RouterAddr) (srcPort : BitVec 2) (tag : BitVec 12)
  /-- STAGING_BUFFER_WRITE (R388): A write to the gateway staging buffer is admitted by the filter or refused with DENIED.
  -/
  | stagingBufferWrite (src : RouterAddr) (srcPort : BitVec 2) (tag : BitVec 12)
  /-- SETPOINT_WRITE (R389): A gateway setpoint write is admitted for a tile in src_tiles or refused and counted in
  setpoint_refused. -/
  | setpointWrite (src : RouterAddr) (srcPort : BitVec 2) (tag : BitVec 12)
  /-- NON_LEGAL_PARAMETER_WRITE (R390): A write to the non-legal parameter block is applied at one Cabinet edge and
  increments its block count. -/
  | nonLegalParameterWrite (src : RouterAddr) (srcPort : BitVec 2) (tag : BitVec 12)
  /-- TIME_ALIGN (R391): A TIME_ALIGN write sets the Cabinet time, reloads the slot counter and makes the time mode
  aligned, unless in stream mode. -/
  | timeAlign (src : RouterAddr) (srcPort : BitVec 2) (tag : BitVec 12)
  /-- RING_ENGINE_BLOCK (R390): The ring engine writes a 2 KiB block of triplets to the DDR5 ring when room exists, or
  drops it. -/
  | ringEngineBlock (words : List (Word × Bool))
  /-- RESULT_WRITE (R393): The Cabinet fabric writes a result through its result port and hardware stores the value and
  status as one pair in two copies. -/
  | resultWrite (k : Fin 2048) (value : Word) (poison : Bool)
  /-- SAMPLE_SLOT (R403): A sample slot begins and each tile whose divisor and phase select it samples its input. -/
  | sampleSlot (inputs : List SampleIn) (logOk : Bool)
  /-- SAMPLE_DELIVERY (R404): At the first interface edge 400 ns after the slot start the code is presented on M_DATA with
  M_VALID. -/
  | sampleDelivery (t : Fin 24)
  /-- SOURCE_CODE_LOAD (R405): An interface edge with S_LOAD loads S_CODE into the tile's code register. -/
  | sourceCodeLoad (t : Fin 24) (code : BitVec 20)
  /-- DAC_UPDATE (R405): An update instant arrives and the DAC takes the code register's value. -/
  | dacUpdate
  /-- CAL_REQ (R408): CAL_REQ with CAL_BUSY 0 starts a 20 ms calibration at the next slot. -/
  | calReq (t : Fin 24)
  /-- CALIBRATION_COMPLETE (R408): A calibration ends, applying new coefficients or taking the tile out of service. -/
  | calibrationComplete (t : Fin 24) (fails : Option CalStep) (logOk : Bool)
  /-- CREF_RANGE_TIMEOUT (R398): CREF has been outside 4.096 V ± 2 % for 100 µs and every tile in service is taken out
  with CREF_RANGE. -/
  | crefRangeTimeout (logOk : Bool)
  /-- SRC_FAULT_TIMEOUT (R409): A source output differs from its code by more than 1 % for 100 µs and the tile leaves
  service with SRC_FAULT. -/
  | srcFaultTimeout (t : Fin 24) (logOk : Bool)
  /-- SAMPLE_PORT_PUSH (R412): The Cabinet side pushes a protected triplet into the sample port or drops it and counts
  SP_DROPS. Operands: freed: removals that the writing side sees by now. -/
  | samplePortPush (word : Word) (poison : Bool) (freed : Nat)
  /-- SP_TAKE (R412): An S12 edge with SP_TAKE removes the head word of the sample port. Operands: seen: words that the
  reading side sees by now. -/
  | spTake (seen : Nat)
  /-- SOURCE_PORT_OFFER (R413): An S12 edge with SRC_VALID and SRC_READY takes a word into the source port. -/
  | sourcePortOffer (data : Word) (poison : Bool) (tiles : List (Fin 32)) (freed : Nat)
  /-- SOURCE_PORT_ADMIT (R413): The Cabinet side takes a source port word and admits or refuses each of its samples. -/
  | sourcePortAdmit (seen : Nat)
  /-- LANE_CFG_WRITE (R432): A write that changes LANE_CFG_n mode, div, loop or prbs puts the lane into DETECT with
  retries 0. -/
  | laneCfgWrite (n : Fin 128) (v : Word)
  /-- LANE_RESTART (R432): A write of 1 to LANE_CFG_n.restart puts the lane into DETECT with retries 0. -/
  | laneRestart (n : Fin 128)
  /-- LANE_QUAD_CFG_WRITE (R432): A write to LANE_QUAD_CFG_j turns its lanes OFF, relocks or stops the quad PLL and
  restarts configured lanes. -/
  | laneQuadCfgWrite (j : Fin 32) (v : Word)
  /-- DETECT_PULSE (R430): Every 100 µs in DETECT a receiver detect pulse is sent and a found partner moves the lane to
  TRAIN. -/
  | detectPulse (n : Fin 128) (found : Bool)
  /-- PHASE_LOCK (R421): The clock recovery loop reports phase lock and the lane moves from TRAIN to LOCK. -/
  | phaseLock (n : Fin 128)
  /-- BLOCK_LOCK (R435): Bit lock and block, comma, codeword or checker lock are reached and the lane moves to EXCHANGE or
  ACTIVE. -/
  | blockLock (n : Fin 128)
  /-- EXCHANGE_COMPLETE (R462): A lane has sent and received CAP_ACK accept 1 and moves to ACTIVE. -/
  | exchangeComplete (n : Fin 128)
  /-- LANE_STAGE_TIMEOUT (R430): A bring-up stage timeout expires, returning the lane to DETECT or FAILED, or setting
  no_partner in DETECT. -/
  | laneStageTimeout (n : Fin 128)
  /-- LANE_LOSS (R431): An ACTIVE lane meets a loss condition and returns to DETECT with FLT_LANE_DOWN. -/
  | laneLoss (n : Fin 128) (cause : LaneCause)
  /-- LANE_SELF_TEST (R438): When the device reference first locks, every quad runs a near-end PRBS31 test and failing
  quads leave service. -/
  | laneSelfTest (fails : List QuadFail)
  /-- FLT_LANE_PLL (R438): A quad PLL does not relock within 1 ms of a restart and the quad leaves service. -/
  | fltLanePll (j : Fin 32)
  /-- LANE_ERR_CLR (R439): A write of 1 to LANE_ERR_n.clr sets both counts to 0. -/
  | laneErrClr (n : Fin 128) (inc : BitVec 2)
  /-- RAW_TRANSMIT_WORD (R436): A raw lane takes a word from its transmit queue, or sends the idle word, at each word
  time. -/
  | rawTransmitWord (n : Fin 128) (offers : List (BitVec 66)) (seen freed : Nat)
  /-- RAW_RECEIVE_WORD (R436): A received word is written into the receive queue or dropped and counted in rx_drops. -/
  | rawReceiveWord (n : Fin 128) (word : BitVec 66) (err : Bool) (errs taken seen freed : Nat)
  /-- PCIE_PERST_N_RISE (R454): PCIE_PERST_N[q] rises and the controller takes its lanes, reads bifurcation and trains, P0
  as the early or full endpoint. -/
  | pciePerstNRise (q : Fin 4)
  /-- PCIE_PERST_N_LOW (R454): PCIE_PERST_N[q] goes low; the controller turns off, its DMA engines stop and its
  translation registers reset. -/
  | pciePerstNLow (q : Fin 4)
  /-- PCIE_RETRAIN (R453): A write of 1 to PCIE_CTRL_0.retrain, or event 8 of start-up, takes P0's link down and retrains
  it as the full function. -/
  | pcieRetrain
  /-- PCIE_LINK_UP (R453): A PCI Express link completes training and presents its function and BARs. -/
  | pcieLinkUp (q link : Fin 4) (width : Fin 17)
  /-- OUTBOUND_REQUEST (R447): A request to the Pq outbound window becomes MRd or MWr TLPs to host memory. -/
  | outboundRequest (q : Fin 4) (src : RouterAddr) (srcPort : BitVec 2) (tag : BitVec 12) (lim : TlpLimits)
  /-- HOST_COMPLETION (R447): A host completion arrives and is mapped onto a response code for the network requester. -/
  | hostCompletion (q : Fin 4) (id : Nat) (ecrcOk : Bool) (st : HostStatus)
  /-- PCIE_COMPLETION_TIMEOUT (R447): The controller's completion timeout expires and the request is answered BAD_REQUEST.
  -/
  | pcieCompletionTimeout (q : Fin 4) (id : Nat)
  /-- DMA_ENABLE (R450): A write setting RING_CFG.en starts or restarts a DMA engine from head. -/
  | dmaEnable (q e : Fin 4) (v : Word)
  /-- DMA_STOP (R451): A write of 1 to RING_CFG.stop finishes the current descriptor and enters STOPPED. -/
  | dmaStop (q e : Fin 4)
  /-- RING_TAIL_WRITE (R450): A write to RING_TAIL posts descriptors that a running engine then processes. -/
  | ringTailWrite (q e : Fin 4) (tail : BitVec 20)
  /-- DMA_DESCRIPTOR (R450): A DMA engine reads a descriptor and moves its data in device-side transactions. Operands:
  what the host answers to the descriptor read, and to the reads of the data. -/
  | dmaDescriptor (q e : Fin 4) (desc src : HostStatus) (lim : TlpLimits)
  /-- DMA_DESCRIPTOR_COMPLETE (R450): The last response of a descriptor arrives; its status word is written, head advances
  and MSI-X is sent or ERROR entered. -/
  | dmaDescriptorComplete (q e : Fin 4)
  /-- LINK_CFG_WRITE (R467): A write to LINK_CFG_b takes the bundle down and reapplies its configuration. -/
  | linkCfgWrite (b : Fin 32) (v : Word)
  /-- BUNDLE_FORWARD (R464): A request or posted write at the bridge window is translated through LINK_XLATE and sent over
  the bundle. -/
  | bundleForward (b : Fin 32)
  /-- PARCEL_FRAME (R463): A PARCEL frame arrives and is checked, decrypted and accepted, counting gaps, or dropped as
  stale or bad. -/
  | parcelFrame (b : Fin 32) (blocks : List (BitVec 66)) (lost : Bool)
  /-- CREDIT_BLOCK (R463): A CREDIT block arrives, updating freed and trailing losses. -/
  | creditBlock (b : Fin 32) (block : BitVec 66)
  /-- CREDIT_SEND (R463): A CREDIT block is sent when freed changed or 1,024 blocks have passed. -/
  | creditSend (b : Fin 32)
  /-- ALIGN_BLOCK (R461): An ALIGN round deskews the bundle's lanes, or an out-of-position ALIGN takes the bundle down. -/
  | alignBlock (b : Fin 32) (found inPlace : Bool)
  /-- CAP_BLOCK (R462): A CAP block set is received, compared with the lane's own and answered with CAP_ACK accept 1 or 0.
  -/
  | capBlock (n : Fin 128) (words : List Word)
  /-- LINK_ERR_CLR (R467): A write of 1 to LINK_ERR_b.clr sets every count to 0. -/
  | linkErrClr (b : Fin 32) (inc : BitVec 3)
  /-- LINK_KEY_LOAD (R466): The LINK_KEY_LOAD command unwraps a bundle's link key and sets its frame counter to 0. -/
  | linkKeyLoad (b : Fin 32) (wrapped : List Word)
  /-- TIME_CODE (R469): A time code pair arrives and moves the stream receiver between SEARCH, LOCKED and HOLD or steps
  its time. -/
  | timeCode (d1 d2 : Word) (blocks : Nat)
  /-- TIME_CODE_TIMEOUT (R469): No valid code arrives for 10 ms while LOCKED and the receiver enters HOLD. -/
  | timeCodeTimeout
  /-- BANK_SUPPLY_LOSS (R477): A bank supply leaves its limits; every cell goes high-impedance and FLT_IO_SUPPLY is
  raised. -/
  | bankSupplyLoss (b : Fin 10) (above : Bool) (mv : BitVec 16)
  /-- BANK_SUPPLY_RETURN (R477): A bank supply returns and the safe-value latches are reloaded within 10 µs. -/
  | bankSupplyReturn (b : Fin 10) (mv : BitVec 16)
  /-- DELAY_CALIBRATION (R475): Every 100 ms the bank calibration engine trims t_tap, or sets cal_fail with FLT_IO_CAL. -/
  | delayCalibration (b : Fin 10) (tapFs : BitVec 16) (ok : Bool)
  /-- TB_TIME_SET_APPLY (R481): A write of 1 to TB_TIME_SET.apply sets the device time, or is refused with set_refused in
  STREAM. -/
  | tbTimeSetApply
  /-- CAPTURE_EDGE (R483): An enabled edge of a capture source is stamped and queued, or dropped. -/
  | captureEdge (src : Fin 9) (falling : Bool) (stamp : BitVec 80)
  /-- CAPTURE_POP (R485): A write of 1 to TB_CAP_CFG.pop removes the head capture entry. -/
  | capturePop
  /-- CAPTURE_CLR (R485): A write of 1 to TB_CAP_CFG.clr empties the capture queue and sets dropped to 0. -/
  | captureClr
  /-- TIMED_TRIGGER_ARM (R484): A write of 1 to TB_TRIG_n.arm arms the unit, firing at once with late when t is not in the
  future. -/
  | timedTriggerArm (n : Fin 9)
  /-- TIMED_TRIGGER_DISARM (R485): A write of 1 to TB_TRIG_n.disarm clears arm. -/
  | timedTriggerDisarm (n : Fin 9)
  /-- TIMED_TRIGGER_FIRE (R484): The time reaches an armed unit's t; it drives its action, counts and advances by its
  period or disarms. -/
  | timedTriggerFire (n : Fin 9)
  /-- TRIGGER_PULSE_END (R484): width_ns after a pulse fires, the unit drives the inverse of its level. -/
  | triggerPulseEnd (n : Fin 9)
  /-- FAULT_RAISE (R490): A fault source is raised with its reaction; it is recorded, interrupts or enters escalation. -/
  | faultRaise (id : Fin 4096) (detail scope : Word)
  /-- ESCALATION_TIMER_EXPIRY (R492): A group's escalation timer expires without acknowledgement and its level is applied
  to the affected set. -/
  | escalationTimerExpiry (g : Fin 8)
  /-- E3_TO_E4_EXPIRY (R492): With e3_to_e4 set, a further timer_us passes at E3 without acknowledgement and E4 is
  applied. -/
  | e3ToE4Expiry (g : Fin 8)
  /-- FAULT_GROUP_ACK (R493): A write of 1 to FLT_CFG_g.ack acknowledges the group and releases its holds. -/
  | faultGroupAck (g : Fin 8)
  /-- FAULT_ACK (R493): The FAULT_ACK command acknowledges each group of its mask. -/
  | faultAck (mask : BitVec 8)
  /-- FAULT_RECORD_FREE (R490): A write of 1 to FLT_REC_g.valid frees the record and clears its fields. Operands: same:
  the faults (id, detail, scope) that arrive in the same management clock cycle. -/
  | faultRecordFree (g : Fin 8) (same : List (BitVec 12 × Word × Word) := [])
  /-- FAULT_LOCK (R500): A write of 1 to FLT_SUMMARY.lock locks every RWL fault field until power-on reset. -/
  | faultLock
  /-- TEMPERATURE_SAMPLE (R497): Every 1 ms the sensors are read, raising FLT_TEMP_HIGH or FLT_TEMP_CRIT with immediate
  E3. -/
  | temperatureSample (readings : List (Fin 39 × BitVec 8))
  /-- FLT_INJECT_WRITE (R502): A write to FLT_INJECT raises the named source in factory test mode and is otherwise
  ignored. -/
  | fltInjectWrite (v : Word)
  /-- DDR_RETRY (R505): A write of 1 to UNIT_CTRL.ddr_retry runs a channel reset for an out-of-service channel. -/
  | ddrRetry (n : Fin 8)
  /-- MAILBOX_GO (R512): A write of 1 to MBX_CTRL.go copies the command area and starts the command, or is ignored with
  collision. -/
  | mailboxGo (path : Path)
  /-- MAILBOX_RESPONSE (R512): A command ends; the response area is written, busy clears, done sets and vector 8 is sent.
  -/
  | mailboxResponse
  /-- MBX_CLAIM (R511): A write of 1 to MBX_CLAIM.claim sets owner to the writing path when free. -/
  | mbxClaim (path : Path)
  /-- MBX_RELEASE (R511): A write of 1 to MBX_CLAIM.release frees the mailbox when the writing path is the owner. -/
  | mbxRelease (path : Path)
  /-- MSPI_TRANSFER (R509): A management SPI transfer between MSPI_CS_N fall and rise performs one 8-byte read or write.
  -/
  | mspiTransfer (bytes : SpiBytes)
  /-- FAULT_LOG_READ (R515): The FAULT_LOG_READ command returns persistent fault log records. -/
  | faultLogRead (count : BitVec 6) (first : BitVec 32)
  /-- UNIT_MAP_READ (R506): The UNIT_MAP_READ command returns the eight available-unit map words. -/
  | unitMapRead
  /-- CAB_SEALED_LOAD (R392): The mailbox CAB_SEALED_LOAD command issues SEALED_LOAD to the Cabinet and returns its
  result. -/
  | cabSealedLoad (newest : Bool) (slot copy : Fin 2)
  /-- CAB_ROLLBACK (R392): The mailbox CAB_ROLLBACK command issues ROLLBACK to the Cabinet and returns its result. -/
  | cabRollback
  /-- CAB_EXPORT_LOG (R515): The CAB_EXPORT_LOG command returns C, E and a run of audit records. -/
  | cabExportLog (count : BitVec 6) (first : BitVec 32)
  /-- CAB_ACK_EXPORT (R515): The CAB_ACK_EXPORT command writes a token to the staging buffer and issues EXPORT_ACK. -/
  | cabAckExport (token : List Word)
  /-- KEYSTORE_DEVKEY (R516): KEYSTORE DEVKEY burns the device key, or is refused when already burned. -/
  | keystoreDevkey (key : List Word)
  /-- KEYSTORE_IMAGE_KEY (R516): KEYSTORE IMAGE_KEY unwraps and stores an image key entry. -/
  | keystoreImageKey (e : Fin 16) (wrapped : List Word)
  /-- KEYSTORE_SIGN_ADD (R516): KEYSTORE SIGN_ADD burns an image-signing hash entry. -/
  | keystoreSignAdd (k : Fin 4) (hash : List Word)
  /-- KEYSTORE_SIGN_REVOKE (R516): KEYSTORE SIGN_REVOKE burns the revoked bit of an entry. -/
  | keystoreSignRevoke (k : Fin 4)
  /-- KEYSTORE_SIGN_FUSE (R516): KEYSTORE SIGN_FUSE burns BOOT_CFG.sign_fuse. -/
  | keystoreSignFuse
  /-- MSI_X_UNMASK (R517): Unmasking an MSI-X vector sends its pending message. -/
  | msiXUnmask (v : Fin 32)
  /-- JTAG_INSTRUCTION (R518): A JTAG instruction is selected and takes control of the pins while DONE is low, or acts as
  BYPASS. -/
  | jtagInstruction (code : BitVec 8)
  /-- DBG_ACCESS_UPDATE (R519): Update-DR of DBG_ACCESS issues an 8-byte read or write from the debug access router. -/
  | dbgAccessUpdate (v : BitVec 120)
  /-- MAIN_POWER_ON_RESET (R523): Group A enters its operating range, the IRO starts and the main side is held in power-on
  reset. Operands: group A comes into range; decoders that fail their self-test. -/
  | mainPowerOnReset (fails : List DecoderFail)
  /-- MANAGEMENT_POR_RELEASE (R523): 1 ms after group A, the management-die power-on reset is released and straps are
  sampled. -/
  | managementPorRelease (straps : Straps)
  /-- RAILS_IN_RANGE (R523): Groups B and C come within range and the network PLL and device reference proceed. Operands:
  measured millivolts of the banks 0 to 9. -/
  | railsInRange (banks : List (BitVec 16))
  /-- RAIL_WAIT_TIMEOUT (R523): Groups B and C are not in range 100 ms after release; FLT_RAIL_LIMIT is raised for each
  missing rail. -/
  | railWaitTimeout (missing : List RailState) (banks : List (BitVec 16))
  /-- RAIL_DROP (R521): VCC_FAB, VCC_NOC or VCC_CFG falls below 90 % for 10 µs and the main side undergoes power-on reset.
  -/
  | railDrop
  /-- FLT_RAIL_LIMIT (R521): A watched rail leaves its operating range for more than 10 µs and the fault is raised with
  the rail. -/
  | fltRailLimit (rail : RailState)
  /-- GROUP_A_FALL (R524): Group A falls first and the main side enters power-on reset within 1 µs. -/
  | groupAFall
  /-- WARM_RESET (R529): RST_N low passes the filter, or E4 is applied, and the warm reset ends commands and puts pins,
  sectors and attachments into reset. -/
  | warmReset
  /-- WARM_RESET_QUIESCED (R529): Engines have written back dirty nodes and DDR5 channels have entered self-refresh; the
  network is emptied and PLLs stop. -/
  | warmResetQuiesced
  /-- WARM_RESET_END (R529): The warm reset ends; sources are rejudged, channels leave self-refresh and start-up or the
  boot procedure runs. -/
  | warmResetEnd (fails : List DecoderFail)
  /-- FLIP_FLOP_CLOCK_EDGE (R55): An active edge of a half-block, I/O cell or column bus lane clock updates flip-flops,
  I/O registers, dynamic delay taps and dynamic lane indices. -/
  | flipFlopClockEdge (target : FfTarget)
  /-- LEVEL_SYNCHRONISER_SAMPLE (R147): A destination edge of a level Hinge shifts each of its eight chains so that L_OUT
  follows L_IN after S or S + 1 edges. Operands: late: chains whose first stage resolves one edge late. -/
  | levelSynchroniserSample (sec : Sec) (h : Fin 64) (inp late : BitVec 8) (via : List PinMux := [])
  /-- COUNTER_ACKNOWLEDGE (R156): The returned delivered count reaches a counter Hinge's source side and S_UNACK falls.
  Operands: a source edge without S_EVT. -/
  | counterAcknowledge (sec : Sec) (h : Fin 64) (late : Bool)
  /-- INBOUND_PARCEL_PRESENT (R278): A user edge presents the inbound queue head at an attachment's initiator or target
  port, releasing a response credit as a response parcel leaves. -/
  | inboundParcelPresent (att : AttPoint)
  /-- TARGET_PORT_RESPONSE (R277): A fabric target user port issues its response into the attachment's outbound queue. -/
  | targetPortResponse (att : AttPoint) (resp : TargetResp)
  /-- DDR_SCHEDULER_CYCLE (R322): Each controller cycle the scheduler chooses read or write mode and issues one activate,
  precharge or column command per sub-channel, returning read data and completing merges. Operands: banks ready for a
  command, by sub-channel. -/
  | ddrSchedulerCycle (n : Fin 8) (ready0 ready1 : List Nat)
  /-- SRAM_PORT_CYCLE (R306): Each SRAM port cycle allocates the word slots to table port and network accesses in
  acceptance order, applies writes, merges and atomics, and returns read data 18 cycles after acceptance. -/
  | sramPortCycle (n : Fin 4)
  /-- REINIT_COMPLETE (R356): Every line and node under the named node has been rewritten and KEY_RANGE REINIT responds,
  ending NOT_INITIALISED for those lines. -/
  | reinitComplete
  /-- CABINET_QUIET_WINDOW_BEGIN (R383): The last Cabinet fabric clock stops, tile source outputs hold their codes and
  setpoint and parameter writes wait. -/
  | cabinetQuietWindowBegin
  /-- CABINET_SUPPLY_LOSS (R526): A Cabinet rail leaves its operating range and the Cabinet is held in power-on reset,
  with the gateway answering DOMAIN_OFF. -/
  | cabinetSupplyLoss
  /-- CAB_RST_N_RELEASE (R386): CAB_RST_N rises and Cabinet start-up begins from its reference. -/
  | cabRstNRelease (test : CabTest)
  /-- PCIE_LINK_DOWN (R454): A PCI Express link leaves the up state because its partner or the physical link is lost, and
  its lanes read DETECT. -/
  | pcieLinkDown (q link : Fin 4)
  /-- PCIE_RATE_CHANGE (R456): Equalisation completes a PCI Express rate change and every receiver looks up its table
  settings for the new rate class. -/
  | pcieRateChange (q link : Fin 4) (gen : Fin 6)
  /-- TIMEBASE_EDGE (R480): Each timebase clock edge adds the scaled increment to device time. -/
  | timebaseEdge
  /-- STARTUP_CLOCKS_START (R213): 1 µs after the start-up strobe, or after event 2 following a warm reset, sector clocks
  start and every Drawer initialises. -/
  | startupClocksStart
  /-- REGION_POWER_UP_CLOCKS_START (R237): 1 µs after VCC_FAB is good, or after the OFF_LOST strobe, the region's clocks
  start and its Drawers initialise. -/
  | regionPowerUpClocksStart (r : Fin 16)
  /-- SOURCE_CURRENT_LIMIT (R411): A tile's source output reaches or leaves its current limit and S_LIMIT is set or
  cleared. -/
  | sourceCurrentLimit (t : Fin 24) (on : Bool)
  deriving DecidableEq, Repr

end Sys2Proof
end

