-- ==== Sys2Proof/Decode.lean ====
section
/-! DEFINITION. Commands spelled as words. The rows of the command table give no bits, so no word spells a command. -/

namespace Sys2Proof

/-- The command that a word of the table's bits spells: no row of the table gives bits. -/
def decodeTableWord (_nbits _w : Nat) : Option Instr := none

end Sys2Proof
end

