-- ==== Sys2Proof/Config.lean ====
section
/-! DEFINITION. What one device fixes and the manual leaves open: opaque constants without a body, so that no proof
can see a value of them. -/

namespace Sys2Proof.Config

/-- R31: outcome (0 CLEAN, 1 CORRECTED_1, 2 CORRECTED_2, 3 UNCORRECTABLE), data and poison bit that a decoder answers for
a word which differs from every valid word in four or more bits ("Not defined"). DESIGN CHOICE, assumption 2. -/
opaque decodeBeyond : PWord → Fin 4 × Word × Bool

/-- A fresh undefined bit for the `n`-th use of one. DESIGN CHOICE, assumption 3. -/
opaque freeBit : Nat → Bool

/-- A fresh undefined word for the `n`-th use of one. DESIGN CHOICE, assumption 3. -/
opaque freeWord : Nat → Word

/-- R518: what the boundary register of the JTAG chain gives pin `c` (480 for STAR_OUT): high impedance or a level. The manual names
IEEE 1149.1 for the register and no command shifts it. DESIGN CHOICE, assumption 148. -/
opaque boundaryPin : Nat → Option Bool

end Sys2Proof.Config
end

