-- ==== Sys2Proof/Machine/Bits.lean ====
section
/-! DEFINITION. Bit-field, counter and byte helpers. Bit ranges are written [msb:lsb] as in the manual. -/

namespace Sys2Proof.Machine

/-- Bits [hi:lo] of a number. -/
def nbits (w hi lo : Nat) : Nat := (w >>> lo) % 2 ^ (hi + 1 - lo)

/-- Bits [hi:lo] of a word, as a number. -/
def fld (w : BitVec n) (hi lo : Nat) : Nat := nbits w.toNat hi lo

/-- Bit [i] of a word. -/
def bit (w : BitVec n) (i : Nat) : Bool := w.getLsbD i

/-- `w` with bits [hi:lo] replaced by the low bits of `v`. -/
def putFld (w : BitVec n) (hi lo v : Nat) : BitVec n :=
  let keep := w.toNat - (nbits w.toNat hi lo) * 2 ^ lo
  BitVec.ofNat n (keep + (v % 2 ^ (hi + 1 - lo)) * 2 ^ lo)

/-- `w` with bit [i] set to `b`. -/
def putBit (w : BitVec n) (i : Nat) (b : Bool) : BitVec n := putFld w i i b.toNat

/-- `c + k`, not above the largest value of a field of `width` bits. -/
def satAdd (width c k : Nat) : Nat := min (c + k) (2 ^ width - 1)

/-- The two's complement value of the low `width` bits of `v`. -/
def sint (width v : Nat) : Int :=
  let m := v % 2 ^ width
  if m < 2 ^ (width - 1) then (m : Int) else (m : Int) - 2 ^ width

/-- The low `width` bits of an integer, as a number. -/
def wrap (width : Nat) (x : Int) : Nat := (x % 2 ^ width).toNat

/-- A mask of 8 byte enables as the 64-bit mask of the bits they cover (byte 0 lowest). -/
def byteMask : List Bool → Nat
  | [] => 0
  | e :: es => (if e then 255 else 0) + 256 * byteMask es

/-- Bytes, lowest offset first, as one number (little-endian). -/
def leNat : List (BitVec 8) → Nat
  | [] => 0
  | b :: bs => b.toNat + 256 * leNat bs

/-- The low `k` bytes of `v`, lowest first. -/
def leBytes : Nat → Nat → List (BitVec 8)
  | 0, _ => []
  | k + 1, v => BitVec.ofNat 8 v :: leBytes k (v / 256)

/-- XOR of the low `n` bits of `v`. -/
def parity : Nat → Nat → Bool
  | 0, _ => false
  | n + 1, v => (v % 2 = 1) != parity n (v / 2)

/-- Number of ones among the low `n` bits of `v`. -/
def popcount : Nat → Nat → Nat
  | 0, _ => 0
  | n + 1, v => v % 2 + popcount n (v / 2)

/-- The set bits of the low `n` bits of `v`, ascending. -/
def bitsOf (n v : Nat) : List Nat := (List.range n).filter fun i => v.testBit i

/-- The number whose set bits are `l`. -/
def maskOf (l : List Nat) : Nat := l.foldl (fun m i => m ||| 2 ^ i) 0

/-- A left fold with a running number, which is a numeral before each step (so evaluation does not put the steps off). -/
def foldNat (f : Nat → α → Nat) : Nat → List α → Nat
  | c, [] => c
  | 0, x :: l => foldNat f (f 0 x) l
  | c + 1, x :: l => foldNat f (f (c + 1) x) l

/-- One step of a bitwise CRC of `width` bits, polynomial `poly` (top bit implied), most significant bit first. -/
def crcBit (width poly : Nat) (crc : Nat) (b : Bool) : Nat :=
  let top := crc.testBit (width - 1) != b
  let sh := (crc * 2) % 2 ^ width
  if top then sh ^^^ poly else sh

/-- One step of a reflected CRC (least significant bit first), polynomial `poly` given reflected. -/
def crcBitR (poly : Nat) (crc : Nat) (b : Bool) : Nat :=
  let low := (crc % 2 = 1) != b
  if low then (crc / 2) ^^^ poly else crc / 2

/-- The low `n` bits of `v`, least significant first. -/
def lsbBits (n v : Nat) : List Bool := (List.range n).map fun i => v.testBit i

/-- The low `n` bits of `v`, most significant first. -/
def msbBits (n v : Nat) : List Bool := (lsbBits n v).reverse

/-- The value of key `k` in an association list, or `dflt`. -/
def alGet (dflt : α) (l : List (Nat × α)) (k : Nat) : α :=
  match l.find? (fun e => e.1 == k) with
  | some e => e.2
  | none => dflt

/-- The element at index `i`, or `dflt`. -/
def nth (dflt : α) (l : List α) (i : Nat) : α := (l[i]?).getD dflt

/-- `l` with the element at index `i` replaced by `f` of it. -/
def updNth : List α → Nat → (α → α) → List α
  | [], _, _ => []
  | x :: xs, 0, f => f x :: xs
  | x :: xs, i + 1, f => x :: updNth xs i f

/-- `l` with every element that `p` picks replaced by `f` of it. -/
def mapIf (p : α → Bool) (f : α → α) (l : List α) : List α := l.map fun x => if p x then f x else x

/-- `x` put into a list before the first element with a larger key. -/
def insertKey (key : α → Nat) (x : α) : List α → List α
  | [] => [x]
  | y :: ys => if key x < key y then x :: y :: ys else y :: insertKey key x ys

/-- A list in ascending order of a key; equal keys keep their order. -/
def sortKey (key : α → Nat) (l : List α) : List α := l.foldl (fun r x => insertKey key x r) []

/-- The CRC-16 of R376: polynomial 0x1021, initial value 0xFFFF, each byte from bit 7. -/
def crc16 (bytes : List Nat) : Nat := foldNat (fun c b => foldNat (crcBit 16 0x1021) c (msbBits 8 b)) 0xFFFF bytes

end Sys2Proof.Machine
end

