-- ==== Sys2Proof/Machine/Code.lean ====
section
/-! DEFINITION. The word code of R29 to R32: GF(2^7), the shortened BCH(127,113) code with overall parity, the
encoder and the decoder; and the merge and renewal rules R37, R41. -/

namespace Sys2Proof.Machine

/-- Multiplication by x in GF(2^7) modulo p(x) = x^7 + x + 1 (R30). -/
def gfDouble (a : Nat) : Nat :=
  let d := a * 2
  if d.testBit 7 then d ^^^ 0x83 else d

/-- The product in GF(2^7), over the low `n` bits of the second factor. -/
def gfMulAux : Nat → Nat → Nat → Nat
  | 0, _, _ => 0
  | n + 1, a, b => (if b % 2 = 1 then a else 0) ^^^ gfMulAux n (gfDouble a) (b / 2)

/-- The product in GF(2^7). -/
def gfMul (a b : Nat) : Nat := gfMulAux 7 a b

/-- The cube in GF(2^7). -/
def gfCube (a : Nat) : Nat := gfMul a (gfMul a a)

/-- α^i, with α = x a root of p(x) (R30). -/
def alphaPow : Nat → Nat
  | 0 => 1
  | i + 1 => gfDouble (alphaPow i)

/-- The generator g(x) = m1(x)·m3(x), with m1 = x^7 + x + 1 and m3 = x^7 + x^5 + x^3 + x + 1 (R30). -/
def bchGen : Nat := 0x547D

/-- The remainder of division by g(x) after shifting in the low `n` bits of `v`, most significant first. -/
def bchRem : Nat → Nat → Nat → Nat
  | 0, _, r => r
  | n + 1, v, r =>
    let top := r.testBit 13 != v.testBit n
    let sh := (r * 2) % 2 ^ 14
    bchRem n v (if top then sh ^^^ (bchGen % 2 ^ 14) else sh)

/-- The 14 check bits of an information polynomial of 65 bits: (x^14·i(x)) mod g(x) (R30). -/
def bchCheck (info : Nat) : Nat := bchRem 65 info 0

/-- The valid word of `data` and `poison` (R29, R30). -/
def encodeWord (data : Word) (poison : Bool) : PWord :=
  let info := data.toNat + poison.toNat * 2 ^ 64
  let low := info + bchCheck info * 2 ^ 65
  BitVec.ofNat 80 (low + (parity 79 low).toNat * 2 ^ 79)

/-- The exponent of x that stored bit `b` (0 to 78) has in the code polynomial: data bit j and the poison bit stand above
the 14 check bits (R30). -/
def codeExp (b : Nat) : Nat := if b < 65 then 14 + b else b - 65

/-- The bit of the stored word at exponent `e` (0 to 78). -/
def codeBit (e : Nat) : Nat := if e < 14 then 65 + e else e - 14

/-- The value of the received polynomial at α^k, over exponents `e` and up (`n` of them). -/
def codeEval : Nat → Nat → Nat → Nat → Nat → Nat
  | 0, _, _, _, acc => acc
  | n + 1, w, step, x, acc => codeEval n (w / 2) step (gfMul x step) (if w % 2 = 1 then acc ^^^ x else acc)

/-- The received word as a polynomial: bit e is the coefficient of x^e. -/
def codePoly (w : PWord) : Nat := (fld w 64 0) * 2 ^ 14 + fld w 78 65

/-- S1, the value at α. -/
def synd1 (w : PWord) : Nat := codeEval 79 (codePoly w) (alphaPow 1) 1 0

/-- S3, the value at α^3. -/
def synd3 (w : PWord) : Nat := codeEval 79 (codePoly w) (alphaPow 3) 1 0

/-- Overall parity mismatch: the XOR of all 80 bits. -/
def syndP (w : PWord) : Bool := parity 80 w.toNat

/-- The powers α^e of the stored exponents e = 0 to 78, in order. -/
def locators : List (Nat × Nat) := (List.range 79).map fun e => (e, alphaPow e)

/-- The exponent whose locator is `x`, if it is a stored one. -/
def locate (x : Nat) : Option Nat := (locators.find? fun p => p.2 == x).map (·.1)

/-- The two exponents, if any, whose errors give the syndromes `s1`, `s3`. -/
def locatePair (s1 s3 : Nat) : Option (Nat × Nat) :=
  (locators.findSome? fun (i, x) =>
    let y := s1 ^^^ x
    if y = 0 || y = x then none
    else if (gfCube x ^^^ gfCube y) = s3 then (locate y).map fun j => (i, j)
    else none)

/-- Whether three stored exponents, or two and the parity bit, give the syndromes. -/
def isTriple (s1 s3 : Nat) : Bool :=
  (locatePair s1 s3).isSome ||
  locators.any fun (_, x) => (locatePair (s1 ^^^ x) (s3 ^^^ gfCube x)).isSome

/-- The outcomes of a decode (R31). -/
inductive EccOutcome where
  | clean
  | corrected1
  | corrected2
  | uncorrectable
  deriving DecidableEq, Repr

/-- What a decoder gives for one received word. -/
structure Decoded where
  outcome : EccOutcome
  data : Word
  poison : Bool
  deriving DecidableEq, Repr

/-- The bits in error of a word within two bits of a valid word: none when there is no such valid word. -/
def errorBits (w : PWord) : Option (List Nat) :=
  let s1 := synd1 w
  let s3 := synd3 w
  if syndP w then
    if s1 = 0 && s3 = 0 then some [79]
    else if gfCube s1 = s3 then (locate s1).map fun e => [codeBit e] else none
  else
    if s1 = 0 && s3 = 0 then some []
    else if gfCube s1 = s3 then (locate s1).map fun e => [codeBit e, 79]
    else (locatePair s1 s3).map fun (i, j) => [codeBit i, codeBit j]

/-- Classify and correct a received word (R31). A word three bits from a valid word is UNCORRECTABLE; one farther from
every valid word has an outcome that the manual leaves open. -/
def decodeWord (w : PWord) : Decoded :=
  match errorBits w with
  | some bs =>
    let c := bs.foldl (fun v b => v ^^^ 2 ^ b) w.toNat
    { outcome := match bs with
        | [] => .clean
        | [_] => .corrected1
        | _ => .corrected2
      data := BitVec.ofNat 64 c
      poison := c.testBit 64 }
  | none =>
    if syndP w && isTriple (synd1 w) (synd3 w) then
      { outcome := .uncorrectable, data := BitVec.ofNat 64 w.toNat, poison := true }
    else
      match Config.decodeBeyond w with
      | (0, d, p) => { outcome := .clean, data := d, poison := p }
      | (1, d, p) => { outcome := .corrected1, data := d, poison := p }
      | (2, d, p) => { outcome := .corrected2, data := d, poison := p }
      | (_, d, _) => { outcome := .uncorrectable, data := d, poison := true }

/-- The syndrome field of a log entry (R45): parity mismatch, S3, S1. -/
def logSyndrome (w : PWord) : Nat := (syndP w).toNat * 2 ^ 14 + synd3 w * 2 ^ 7 + synd1 w

/-- The kind code of a log entry (R45). -/
def EccOutcome.kind : EccOutcome → Nat
  | .clean => 3
  | .corrected1 => 0
  | .corrected2 => 1
  | .uncorrectable => 2

/-- The word that a renewal point sends on (R37): corrected and re-encoded, poisoned when it cannot be trusted. -/
def renewWord (w : PWord) : PWord :=
  let d := decodeWord w
  encodeWord d.data d.poison

/-- The bits of `new` in the enabled bytes over `old` in the others. -/
def mergeBytes (en : List Bool) (old new : Word) : Word :=
  let m := BitVec.ofNat 64 (byteMask en)
  (new &&& m) ||| (old &&& ~~~m)

/-- The word that a write stores (R41): a full write stores its own word; a partial write merges into the stored word and
is poisoned by either. No enabled byte leaves the stored word as it is. -/
def mergeWrite (stored : PWord) (en : List Bool) (data : Word) (poison : Bool) : PWord :=
  if en.all id then encodeWord data poison
  else if en.any id then
    let d := decodeWord stored
    encodeWord (mergeBytes en d.data data) (d.poison || poison)
  else stored

/-- The word code's self-test patterns of R49: data, poison, inverted bits, expected outcome and poison. -/
def selfTestPatterns : List (Word × Bool × List Nat × EccOutcome × Bool) :=
  [(0, false, [], .clean, false),
   (0xA5A5A5A5A5A5A5A5, false, [], .clean, false),
   (0x5A5A5A5A5A5A5A5A, true, [], .clean, true),
   (0xA5A5A5A5A5A5A5A5, false, [0], .corrected1, false),
   (0xA5A5A5A5A5A5A5A5, false, [64], .corrected1, false),
   (0x5A5A5A5A5A5A5A5A, true, [79], .corrected1, true),
   (0xA5A5A5A5A5A5A5A5, false, [3, 70], .corrected2, false),
   (0xA5A5A5A5A5A5A5A5, false, [5, 64, 77], .uncorrectable, true)]

/-- Whether this decoder answers a self-test pattern as R49 asks. -/
def selfTestPass (p : Word × Bool × List Nat × EccOutcome × Bool) : Bool :=
  let (d, po, inv, o, po') := p
  let w := inv.foldl (fun v b => v ^^^ BitVec.ofNat 80 (2 ^ b)) (encodeWord d po)
  let r := decodeWord w
  decide (r.outcome = o) && r.poison == po' && (o == .uncorrectable || r.data == d)

end Sys2Proof.Machine
end

