-- ==== Sys2Proof/Machine/Parts/Encryption.lean ====
section
/-! DEFINITION. State of the encryption engines (chapter 15): key slots, ranges, node caches, roots, unknown subtrees. -/

namespace Sys2Proof.Machine

/-- Modes of a key slot (R334). -/
inductive KeyMode where
  | plaintext
  | xts
  | gcm
  deriving DecidableEq, Repr

/-- One key slot of one engine (R334, R359): mode, 64 bytes of key material, the range it is bound to, hw, and which
KEY_LOAD loaded it (R357, KEY_ERR_SLOT). -/
structure KeySlot where
  mode : KeyMode := .plaintext
  key : List Nat := []
  bound : Option Nat := none
  hw : Nat := 0
  load : Nat := 0
  deriving DecidableEq, Repr

/-- States of a range (R355). -/
inductive RangeState where
  | undefined
  | initialising
  | ready
  | lost
  deriving DecidableEq, Repr

/-- One range (R337, R344, R356, R359). `engines` holds the engines of an integrity range in the order of R345. -/
structure KeyRange where
  state : RangeState := .undefined
  integrity : Bool := false
  exhausted : Bool := false
  slot : Nat := 0
  base : Nat := 0
  size : Nat := 0
  metaBase : Nat := 0
  engines : List Nat := []
  deriving DecidableEq, Repr

/-- A tree node in an engine's cache (R349): range, level (1 for a leaf), index, contents, dirty. -/
structure CacheNode where
  rng : Nat
  level : Nat
  idx : Nat
  val : BitVec 512
  dirty : Bool
  deriving DecidableEq, Repr

/-- An entry of an unknown subtree (R354): range, level, index, and whether its fault was raised. -/
structure UnknownNode where
  rng : Nat
  level : Nat
  idx : Nat
  raised : Bool := false
  deriving DecidableEq, Repr

/-- One engine: its slots, its cached nodes (most recently used first), the root counters of its share of each range, its
unknown subtrees, ranges whose whole share is unknown (with the raised flag), and the time in ns at which it last raised
FLT_KEY_DENIED. -/
structure Engine where
  slots : Tbl KeySlot := []
  cache : List CacheNode := []
  roots : Tbl (List Nat) := []
  unknown : List UnknownNode := []
  lostShares : List (Nat × Bool) := []
  deniedAt : Option Nat := none
  deriving DecidableEq, Repr

/-- What an initialisation of a subtree wrote (R356): the geometry of its range, share `k` and engine, named node (level and
index; level 0 stands for the whole share), the counter value written, and the key. A memory word that it covers and that
nothing has written since reads as it left it, but for words on a channel or die that has been filled again since (`gone`). -/
structure TreeFill where
  mem : Nat
  base : Nat
  size : Nat
  metaBase : Nat
  engines : List Nat
  share : Nat
  level : Nat
  idx : Nat
  parent : Nat
  major : Nat
  key : List Nat
  gone : List Nat := []
  deriving DecidableEq, Repr

/-- A running REINIT (R356): range, share, level, node. -/
structure ReinitRun where
  rng : Nat
  share : Nat
  level : Nat
  idx : Nat
  deriving DecidableEq, Repr

/-- The encryption engines. Ranges are keyed 8·m + r. `fills` lists initialisations, newest first. -/
structure Encryption where
  engines : Tbl Engine := []
  ranges : Tbl KeyRange := []
  reinit : Option ReinitRun := none
  fills : List TreeFill := []
  loads : Nat := 0
  deriving DecidableEq, Repr

end Sys2Proof.Machine
end

