-- ==== Sys2Proof/Machine/Parts/Faults.lean ====
section
/-! DEFINITION. State of the fault collector, the available-unit map, resets and power (chapters 21, 23). -/

namespace Sys2Proof.Machine

/-- Escalation states of a group (R492). -/
inductive EscState where
  | idle
  | timing
  | escalated
  deriving DecidableEq, Repr

/-- One fault group: the first-fault record (R490), whether a message was sent and word 0 not read since, the escalation
state (R492) with its affected set, and what the group holds: pins and sectors (masks), E3, an E3 of FLT_TEMP_CRIT
that waits for the temperature (R498). -/
structure FaultGroup where
  valid : Bool := false
  overflow : Bool := false
  count : Nat := 0
  source : Nat := 0
  detail : Nat := 0
  time : Nat := 0
  sent : Bool := false
  esc : EscState := .idle
  applied : Nat := 0
  affected : Nat := 0
  pinHold : Nat := 0
  secHold : Nat := 0
  e3 : Bool := false
  crit : Bool := false
  deriving DecidableEq, Repr

/-- The persistent fault log (R499): records written so far, and the ring of 2,048 records of four words. -/
structure FaultLog where
  next : Nat := 0
  recs : Tbl (List Word) := []
  deriving DecidableEq, Repr

/-- Why a DDR5 channel is out of service (R504, R505). -/
inductive OutCause where
  | decoder
  | train
  | unsupported
  | retraining
  deriving DecidableEq, Repr

/-- Units out of service (R504, R506): sectors, attachment points (2·i + p), lane quads, SRAM dies, PCI Express controllers by
number; DDR5 channels with their cause; loader and gateway decoders; generation of the map. -/
structure Units where
  sectors : List Nat := []
  atts : List Nat := []
  quads : List Nat := []
  sram : List Nat := []
  pcie : List Nat := []
  ddr : List (Nat × OutCause) := []
  loaderDec : Bool := false
  gatewayDec : Bool := false
  generation : Nat := 0
  deriving DecidableEq, Repr

/-- A warm reset in progress (R529): last event reached; applied by E4; RST_N still low. -/
structure WarmRun where
  event : Nat
  byE4 : Bool
  rstLow : Bool
  deriving DecidableEq, Repr

/-- Power and reset (R521 to R529): rail groups in range, the management-die power-on reset held, the wait for groups B and
C ended without them, sampled straps, warm reset, FAULT_N low after E4, event 7 of a warm reset to come, temperatures by sensor, FLT_TEMP_HIGH armed,
pins in the state of R212. -/
structure Power where
  groupA : Bool := true
  groupBC : Bool := true
  por : Bool := false
  railFail : Bool := false
  ioPullHp : Nat := 0
  ioPullHv : Nat := 0
  slotId : Nat := 0
  cfgGrp : Nat := 0
  testMode : Bool := false
  warm : Option WarmRun := none
  e4FaultN : Bool := false
  warmPending : Bool := false
  temps : Tbl Nat := []
  highArmed : Bool := true
  pinsHeld : Bool := true
  deriving DecidableEq, Repr

end Sys2Proof.Machine
end

