-- ==== Sys2Proof/Machine/Parts/Clocks.lean ====
section
/-! DEFINITION. State of the clock sources, PLLs, switches and monitors (chapter 06). -/

namespace Sys2Proof.Machine

/-- Judging states of a source (R123, R125, R139). -/
inductive JudgeState where
  | off
  | judging
  | stable
  | failed
  | tripped
  deriving DecidableEq, Repr

/-- One judge (R123, R124): state, run of good windows, windows since judging started, and the class index (0 to 5, or 6
for a given nominal frequency) that the last good window matched. -/
structure Judge where
  state : JudgeState := .off
  good : Nat := 0
  t : Nat := 0
  last : Nat := 0
  deriving DecidableEq, Repr

/-- A PLL (R129, R130). -/
inductive PllState where
  | off
  | locking
  | locked
  | holdover
  | unlocked
  deriving DecidableEq, Repr

/-- A clock switch (R133, R134): source in use; the source it is switching to; whether the new source is connected and its
edges are counted; whether the output was forced low; a request waiting. -/
structure ClkSwitch where
  cur : Nat := 0
  target : Option Nat := none
  connected : Bool := false
  forced : Bool := false
  queued : Option Nat := none
  deriving DecidableEq, Repr

/-- A global line (R131): its two named sources, its run-time side (0: sel_a), its switch. -/
structure GlobalLine where
  selA : Nat := 63
  selB : Nat := 63
  sw : ClkSwitch := {}
  deriving DecidableEq, Repr

/-- The clock state of the main side. `iro`: the IRO runs, as long as its supplies VCC_MGMT and VCC_AUX, which group A holds, are
within their limits (R122). PLLs are numbered as in R488: 0 and 1 management, 2 network, 3 + 4·q + p fabric, 19 to
26 DDR5, 27 to 30 SRAM, 31 to 62 lane quads. `pll1Src` is the selected source (0 XO, 1 CHREF) as ref_sel was last acted on. `gates` holds GCLK_GATE_q.gate by q (R132). -/
structure Clocks where
  iro : Bool := true
  xo : Judge := {}
  chref : Judge := {}
  plls : Tbl PllState := []
  mgmt : ClkSwitch := {}
  tb : ClkSwitch := { cur := 2 }
  glines : Tbl GlobalLine := []
  gates : Tbl Nat := []
  reachedTarget : Bool := false
  pll1Src : Nat := 0
  reduced : Bool := false
  xoKhz : Nat := 0
  deriving DecidableEq, Repr

end Sys2Proof.Machine
end

