-- ==== Sys2Proof/Machine/Parts/Fabric.lean ====
section
/-! DEFINITION. State of a sector's fabric: flip-flops, Benches, Drawers with their Runners, Hinges, clock lines, and the
configuration state of the sector (chapters 03 to 07, 10). -/

namespace Sys2Proof.Machine

/-- The operands, CLR and event marker that a Bench captured together at one edge (R91), with which operands A and B come from a
poisoned word (R87). -/
structure BenchCap where
  a : List (BitVec 20) := []
  b : List (BitVec 20) := []
  d0 : BitVec 20 := 0
  d1 : BitVec 20 := 0
  c : Word := 0
  clr0 : Bool := false
  clr1 : Bool := false
  evt : Bool := false
  pA : List Bool := []
  pB : List Bool := []
  deriving DecidableEq, Repr

/-- The registers of a Bench (R75, R81 to R88): captures still in the pipeline, newest first; accumulators with their
overflow and poison flags; outputs. -/
structure Bench where
  pipe : List BenchCap := []
  acc0 : Word := 0
  acc1 : Word := 0
  ovf0 : Bool := false
  ovf1 : Bool := false
  flag0 : Bool := false
  flag1 : Bool := false
  out0 : Word := 0
  out1 : Word := 0
  sat0 : Bool := false
  sat1 : Bool := false
  poison0 : Bool := false
  poison1 : Bool := false
  evt : Bool := false
  deriving DecidableEq, Repr

/-- A word read from the array, on its way to a read output (R99). -/
structure ReadStage where
  data : PWord
  poison : Bool
  row : Nat
  valid : Bool
  deriving DecidableEq, Repr

/-- The read output of a Drawer port: DOUT_x, POISON_x, VALID and the word that appears at the next edge. -/
structure PortOut where
  dout : PWord := 0
  poison : Bool := false
  valid : Bool := false
  stage : Option ReadStage := none
  deriving DecidableEq, Repr

/-- A Drawer and its Runner: array, read outputs, initialisation, queue pointers with those in flight to the other side,
sticky bits, reset of each side, delay line and background pass (R94 to R120). -/
structure Drawer where
  arr : Tbl PWord := []
  a : PortOut := {}
  b : PortOut := {}
  initing : Bool := false
  wp : Nat := 0
  rp : Nat := 0
  wpSeen : Nat := 0
  rpSeen : Nat := 0
  toRead : List Nat := []
  toWrite : List Nat := []
  wrOvf : Bool := false
  rdUnf : Bool := false
  rst : Bool := false
  busyW : Nat := 0
  busyR : Nat := 0
  dlRow : Nat := 0
  dlCount : Nat := 0
  passRow : Nat := 0
  passPend : Option (Nat × PWord) := none
  deriving DecidableEq, Repr

/-- A Hinge of any kind: the level chains, the value crossing of R149, the counter crossing of R154 and the wake latch of R157, with
the reset of each side. A synchroniser chain lists its stages newest first; beside it stands what its input was at the last edge of
its clock, which a first stage that resolves late takes (R152). -/
structure Hinge where
  chain : List (BitVec 8) := []
  lPrev : BitVec 8 := 0
  hold : PWord := 0
  pending : PWord := 0
  pendFull : Bool := false
  take : Bool := false
  ackSeen : Bool := false
  ack : Bool := false
  takeChain : List Bool := []
  takePrev : Bool := false
  ackChain : List Bool := []
  ackPrev : Bool := false
  super : Nat := 0
  dData : PWord := 0
  dNew : Bool := false
  cs : Nat := 0
  cChain : List Nat := []
  csPrev : Nat := 0
  cd : Nat := 0
  backChain : List Nat := []
  cdPrev : Nat := 0
  cRet : Nat := 0
  ovf : Bool := false
  drop : Bool := false
  delta : Nat := 0
  latch : Bool := false
  rst : Bool := false
  busyS : Nat := 0
  busyD : Nat := 0
  deriving DecidableEq, Repr

/-- States of a sector (R221), with the initial-load state of R212. -/
inductive SecState where
  | initialLoad
  | active
  | fenced
  | resetting
  | offRetained
  | offLost
  deriving DecidableEq, Repr

/-- One sector: its state, `fresh` until the first configuration after it was powered (R107), supply switch, configuration power, global set/reset (applied, and release
due), its clock stop, quiet window, and the contents of its blocks; what the drivers of its wires give, and what its isolation
cells hold in a quiet window (R66, R68). -/
structure Sector where
  state : SecState := .initialLoad
  fresh : Bool := true
  vcc : Bool := true
  cfgPower : Bool := true
  gsr : Bool := true
  gsrDue : Bool := false
  clocks : Bool := false
  quiet : Bool := false
  ffs : Tbl Bool := []
  benches : Tbl Bench := []
  drawers : Tbl Drawer := []
  hinges : Tbl Hinge := []
  laneIdx : Tbl Nat := []
  lineEn : Tbl Bool := []
  wires : Tbl Bool := []
  iso : Tbl Bool := []
  userOk : Bool := false
  deriving DecidableEq, Repr

end Sys2Proof.Machine
end

