-- ==== Sys2Proof/Machine/Parts/Config.lean ====
section
/-! DEFINITION. State of configuration: frames, ledger, leaf descriptors, load records, commit, store, loader, boot,
start-up, regions and scrubber (chapters 08 to 11). -/

namespace Sys2Proof.Machine

/-- One frame of one leaf (R163): its 384 words, the items it configures now, and those of the content last written. The
two lists differ only between an upset and its repair (R62). -/
structure Frame where
  words : Tbl Word := []
  meaning : List Setting := []
  written : List Setting := []
  deriving DecidableEq, Repr

/-- Leaf states (R171). -/
inductive LeafState where
  | empty
  | loading
  | sealed
  | active
  | aborted
  | retired
  deriving DecidableEq, Repr

/-- A leaf descriptor (R170), without the sel field, which is the active-leaf select. -/
structure LeafDesc where
  state : LeafState := .empty
  imageId : Nat := 0
  digest : Nat := 0
  damaged : Bool := false
  unavail : Bool := false
  seq : Nat := 0
  commitId : Nat := 0
  deriving DecidableEq, Repr

/-- A fabric PLL's entry in the PLLS section (R194). -/
structure PllEntry where
  en : Bool := false
  ref : Bool := false
  input : Nat := 0
  refDiv : Nat := 1
  mult : Nat := 20
  phases : List Nat := []
  divs : List Nat := []
  deriving DecidableEq, Repr

/-- What a full image fixes for the device (R188, R189, R220): identifier and digest prefix, region masks, PLL entries,
owners of the high-voltage cells, health timeout, BAR4 target, group sources of the global lines. -/
structure BaseImage where
  imageId : Nat := 0
  digest : Nat := 0
  mask : Nat := 0
  regions : List Nat := []
  plls : List PllEntry := []
  hv : List Nat := []
  healthMs : Nat := 0
  bar4 : Option (Nat × Nat) := none
  lines : List (Nat × Nat × Nat) := []
  deriving DecidableEq, Repr

/-- A load record (R173): identifier, digest prefix, the sequence given to each sector written, and the base image that a
partial image names. -/
structure LoadRecord where
  imageId : Nat
  digest : Nat
  sectors : List (Nat × Nat)
  baseId : Nat
  deriving DecidableEq, Repr

/-- Kinds of an attachment's state (R15). -/
inductive AttState where
  | active
  | fenced
  | resetting
  | off
  deriving DecidableEq, Repr

/-- A commit or rollback in progress (R175, R182): its set, region number (16 for FULL), last event reached, the states its
attachments return to, sectors that fence when event 6 is reached (R179), the settle time of the drain, and who asked. -/
structure CommitRun where
  set : List Nat
  region : Nat
  rollback : Bool
  event : Nat
  prior : List (Nat × AttState)
  fenceAfter : List Nat := []
  mailbox : Bool := true
  deriving DecidableEq, Repr

/-- The start-up sequence (R213, R214): last event reached; whether a COMMIT FULL, a boot attempt or a warm reset runs it;
quadrants released. -/
structure StartupRun where
  event : Nat
  fromCommit : Bool := false
  boot : Bool := false
  warm : Bool := false
  released : List Nat := []
  deriving DecidableEq, Repr

/-- Sources of a load (R200). -/
inductive LoadSource where
  | store
  | port
  | host
  deriving DecidableEq, Repr

/-- A section table entry (R189). -/
structure SectionEntry where
  offset : Nat
  kind : Nat
  encrypted : Bool
  crc : Nat
  length : Nat
  deriving DecidableEq, Repr

/-- A running load (R198): source and image words with their poison; kind and region; header; sections and those done; read
position in words; frame addresses written, in order of the records; the leaf written in each sector; facts of a full
image; section and position of the record of each frame (R247); whether a mailbox command or a boot attempt asked for it. -/
structure Load where
  source : LoadSource
  copy : Option Nat
  image : List (Word × Bool)
  isPartial : Bool
  region : Nat
  header : List Word
  sections : List SectionEntry
  next : Nat := 0
  pos : Nat := 0
  plain : List (Word × Bool) := []
  started : Bool := false
  seen : List Nat := []
  leaves : List (Nat × Nat) := []
  base : BaseImage := {}
  index : List (Nat × Nat × Nat) := []
  mailbox : Bool := true
  boot : Bool := false
  deriving DecidableEq, Repr

/-- One copy of a store slot (R202, R203): whether its copy header is valid, the header's fields (store_seq, image length, image CRC,
image id, version), the image's words with their poison, and its count in copies A and B of the wear table. -/
structure StoreCopy where
  valid : Bool := false
  seq : Nat := 0
  length : Nat := 0
  crc : Nat := 0
  imageId : Nat := 0
  version : Nat := 0
  image : List (Word × Bool) := []
  wear : Nat := 0
  wearB : Nat := 0
  deriving DecidableEq, Repr

/-- The boot record of the store (R201). -/
structure BootRecord where
  bootCfg : Nat
  refCfg : Nat
  startTarget : Nat
  sizeLog2 : Nat
  deriving DecidableEq, Repr

/-- The configuration port (R206 to R208): armed for an image of a kind, CFG_BUSY_N low, the 16-bit words of the stream since the end of
the last whole image. -/
structure CfgPort where
  part : List (BitVec 16) := []
  armed : Bool := false
  armedPartial : Bool := false
  busy : Bool := false
  deriving DecidableEq, Repr

/-- The boot procedure (R210): to be run once the management clock permits; running, copies left to try, copies tried, waiting for the host, copy of the running
attempt; a reload of R216 that waits for the end of a commit (R179). -/
structure Boot where
  due : Bool := true
  running : Bool := false
  cands : List Nat := []
  tried : List Nat := []
  waitHost : Bool := false
  attempt : Option Nat := none
  reload : Bool := false
  deriving DecidableEq, Repr

/-- The health check (R216): running; whether it followed a boot attempt's start-up, or a COMMIT FULL; its timeout and the
commit count at its start. -/
structure Health where
  running : Bool := false
  afterBoot : Bool := false
  afterCommit : Bool := false
  ms : Nat := 0
  count : Nat := 0
  deriving DecidableEq, Repr

/-- Region commands whose sequence is running (R232). -/
inductive RegionCmd where
  | reset
  | offRetain
  | offLose
  | on
  deriving DecidableEq, Repr

/-- A running region sequence (R236, R237): command, last event, region state at acceptance, switches closed; its command has ended
with a reset while the power-up goes on (R544), with or without the strobe of event 3. -/
structure RegionSeq where
  region : Nat
  cmd : RegionCmd
  event : Nat
  prior : SecState
  switches : Nat := 0
  ended : Bool := false
  strobes : Bool := true
  deriving DecidableEq, Repr

/-- A copy of the sequencer's state (R241): per quadrant the active position, the inactive position and the active slots since the last
inactive one; SCRUB_CFG, at its reset value (R252). -/
structure ScrubCopy where
  pos : Tbl Nat := []
  inPos : Tbl Nat := []
  ratio : Tbl Nat := []
  cfg : Word := 0x8000001000000064
  deriving DecidableEq, Repr

/-- The scrubber (R241, R244, R248): three copies of the sequencer's state, of which the first takes SCRUB_CFG from the register; frames
unrestored; entries scheduled for recomputation; frames waiting for their repair or recomputation. -/
structure Scrub where
  pos : Tbl Nat := []
  inPos : Tbl Nat := []
  ratio : Tbl Nat := []
  second : ScrubCopy := {}
  third : ScrubCopy := {}
  unrestored : List Nat := []
  scheduled : List Nat := []
  waiting : List Nat := []
  deriving DecidableEq, Repr

/-- The configuration state of the main side. Leaves are keyed 2·s + l, frames (2·s + l)·2048 + f; sector 64 is the Cabinet
fabric. `index` says of each frame where its record lies (R247). `bootRecord` and `bootRecordB` are the copies of R201. `records` is keyed by region number, with 16 for full images; `loadedBase` belongs to the record of key 16, `base` is the
active base image and `prevBase` the one before it. -/
structure Config where
  frames : Tbl Frame := []
  ledger : Tbl PWord := []
  ledgerBase : Tbl PWord := []
  leaves : Tbl LeafDesc := []
  active : Tbl Nat := []
  records : List (Nat × LoadRecord) := []
  loadedBase : Option BaseImage := none
  prevBase : Option BaseImage := none
  base : Option BaseImage := none
  repair : Tbl (Option Nat) := []
  index : Tbl PWord := []
  commit : Option CommitRun := none
  startup : Option StartupRun := none
  load : Option Load := none
  gate : Nat := 0
  store : Tbl StoreCopy := []
  bootRecord : Option BootRecord := none
  bootRecordB : Option BootRecord := none
  port : CfgPort := {}
  boot : Boot := {}
  health : Health := {}
  regions : List RegionSeq := []
  scrub : Scrub := {}
  done : Bool := false
  confErrN : Bool := true
  deriving DecidableEq, Repr

end Sys2Proof.Machine
end

