-- ==== Sys2Proof/Machine/Parts/Cabinet.lean ====
section
/-! DEFINITION. State of the Cabinet and its converter tiles (chapters 16, 17). -/

namespace Sys2Proof.Machine

/-- States of the Cabinet (R394, word 9); CHANGING is RUNNING or NO_IMAGE with a command in progress. -/
inductive CabState where
  | start
  | noImage
  | running
  deriving DecidableEq, Repr

/-- Time modes (R391, R393). -/
inductive TimeMode where
  | stream
  | aligned
  | free
  deriving DecidableEq, Repr

/-- The CAB_DECL section of a sealed image (R370). -/
structure CabDecl where
  reqTiles : Nat := 0
  srcTiles : Nat := 0
  cxoKhz : Nat := 0
  cxoTol : Nat := 0
  returnHold : Nat := 0
  returnMode : Nat := 0
  startTarget : Nat := 0
  scrubMs : Nat := 20
  deriving DecidableEq, Repr

/-- What a Cabinet leaf's descriptor holds beyond R171 (R367): the image's full digest as a little-endian number, its version,
the entry that signed it, and what it declares. -/
structure CabLeaf where
  digest : Nat := 0
  version : Nat := 0
  signer : Nat := 0
  decl : CabDecl := {}
  deriving DecidableEq, Repr

/-- One entry of the Cabinet one-time memory (R372); the hash is its 48 bytes as a little-endian number. -/
structure SealEntry where
  hash : Nat := 0
  role : Nat := 0
  programmed : Bool := false
  revoked : Bool := false
  deriving DecidableEq, Repr

/-- The audit area of the store (R378): rings, writes of each position of ring A, export marks, parameter copies, and the copy
that the next PARAM_SET writes. -/
structure AuditArea where
  ringA : Tbl (List Word) := []
  ringB : Tbl (List Word) := []
  wear : Tbl Nat := []
  marks : Tbl (Option Nat) := []
  params : Tbl (List Nat) := []
  older : Nat := 0
  deriving DecidableEq, Repr

/-- The change that a Cabinet command makes after its record counts (R379, R383). -/
inductive CabChange where
  | load (slot copy : Nat)
  | rollback
  | keyAdd (entry role hash : Nat)
  | keyRevoke (entry hash signer : Nat)
  | paramSet (copy : Nat)
  deriving DecidableEq, Repr

/-- A command in progress (R383): change, last event, image words of a SEALED_LOAD, whether a mailbox command issued it. -/
structure CabRun where
  opcode : Nat
  change : CabChange
  event : Nat
  image : List (Word × Bool) := []
  mailbox : Bool := false
  deriving DecidableEq, Repr

/-- A sample on its way to the interface (R404). -/
structure Sample where
  code : BitVec 20
  ovr : Bool
  red : Bool
  wrap : Bool
  deriving DecidableEq, Repr

/-- Calibration of a tile (R408). -/
inductive CalState where
  | idle
  | waiting
  | running
  deriving DecidableEq, Repr

/-- One converter tile (R402 to R410): out of service with its cause; `failed`: the cause for which it leaves service at the next slot;
samples not yet presented; the presented sample with
M_VALID; the code register, the code the DAC holds and S_LIMIT; calibration; M_WRAP due on the next sample; consecutive
failures of the conversion check. `sampled`: it has taken a sample since the last Cabinet reset. -/
structure Tile where
  out : Bool := false
  cause : Nat := 0
  failed : Option Nat := none
  waiting : List Sample := []
  data : BitVec 20 := 0
  valid : Bool := false
  ovr : Bool := false
  red : Bool := false
  wrap : Bool := false
  code : BitVec 20 := 0
  dac : BitVec 20 := 0
  limit : Bool := false
  cal : CalState := .idle
  sampled : Bool := false
  wrapDue : Bool := false
  adcFails : Nat := 0
  deriving DecidableEq, Repr

/-- A dual-clock port queue of 64 words (R412, R413): its words; how many of the youngest are not yet seen by the reading
side; how many removals the writing side has not yet seen. -/
structure PortQueue (α : Type) where
  words : List α := []
  unseen : Nat := 0
  freed : Nat := 0
  deriving DecidableEq, Repr

/-- A word of the source port (R36, R413): the protected triplet word of 80 bits, three tile indices. -/
structure SourceWord where
  word : PWord
  tiles : List Nat
  deriving DecidableEq, Repr

/-- The stream receiver of R469, one for the device and one for the Cabinet. -/
inductive StreamState where
  | search
  | locked
  | hold
  deriving DecidableEq, Repr

/-- A stream instance: its state; the last valid code's value (80-bit time), sequence number and whether there is one; the
run of agreeing codes in SEARCH; the run of codes that disagree with the time and agree among themselves; the receiver's
time at the last valid code, in 2^-64 s (R469). -/
structure StreamRx where
  state : StreamState := .search
  has : Bool := false
  last : Nat := 0
  seq : Nat := 0
  good : Nat := 0
  bad : Nat := 0
  ref : Nat := 0
  deriving DecidableEq, Repr

/-- The Cabinet. Its frames, ledger, leaf states and fabric are those of sector 64. `time` and `timeRem` hold the Cabinet time
in 2^-32 s and in 5,000,000ths of that; `slot` is the number of the next sample slot; `ringBDue` and `ringBFail` the
counters of records whose copy in ring B is due or failed; `spOut` what SP_DATA and SP_POISON present (none: SP_VALID 0). -/
structure Cabinet where
  id : Word := 0
  powered : Bool := true
  rstN : Bool := true
  byRst : Bool := false
  state : CabState := .start
  leaves : List CabLeaf := [{}, {}]
  active : Option Nat := none
  otp : Tbl SealEntry := []
  audit : AuditArea := {}
  onDie : Tbl (List Word) := []
  c : Nat := 0
  e : Nat := 0
  logCopy : Bool := false
  logFault : Bool := false
  fullRaised : Bool := false
  lostObserved : Nat := 0
  ringBDue : List Nat := []
  ringBFail : List Nat := []
  paramDigest : Nat := 0
  paramBlock : List Nat := []
  run : Option CabRun := none
  result : Nat := 0
  detail : Nat := 0
  lastOpcode : Nat := 0
  record : Nat := 0
  value0 : Tbl PWord := []
  value1 : Tbl PWord := []
  status0 : Tbl PWord := []
  status1 : Tbl PWord := []
  staging : Tbl Word := []
  nonLegal : Tbl Word := []
  blockCount : Nat := 0
  setpoints : Tbl Nat := []
  setpointCounts : Tbl Nat := []
  setpointRefused : Nat := 0
  ringRun : Bool := false
  ringOff : Nat := 0
  ringErr : Nat := 0
  drops : Nat := 0
  time : Nat := 0
  timeRem : Nat := 0
  mode : TimeMode := .free
  stream : StreamRx := {}
  slot : Nat := 0
  reduced : Bool := true
  everFull : Bool := false
  swTrip : Bool := false
  tiles : Tbl Tile := []
  cxo : Judge := {}
  sw : ClkSwitch := { cur := 2 }
  reachedTarget : Bool := false
  quiet : Bool := false
  sampleQ : PortQueue PWord := {}
  spOut : Option (Word × Bool) := none
  spDrops : Nat := 0
  sourceQ : PortQueue SourceWord := {}
  srcRefused : Nat := 0
  inVal : Tbl Nat := []
  inCnt : Tbl Nat := []
  deriving DecidableEq, Repr

end Sys2Proof.Machine
end

