-- ==== Sys2Proof/Machine/Parts/Network.lean ====
section
/-! DEFINITION. State of the network: links, attachment points and edge blocks, transactions (chapters 12, 13). -/

namespace Sys2Proof.Machine

/-- Who awaits a transaction's completion at a requester. -/
inductive ReqUser where
  | userPort
  | host (q : Nat)
  | dma (q d : Nat)
  | bundle (b id : Nat)
  | ring
  | debug
  | bureau
  | ddrPart (c id : Nat)
  deriving DecidableEq, Repr

/-- A request that waits in an outbound queue (R279): its name there, which its parcels carry in place of a tag until it is injected;
request, destination, response parcels needed, the split it belongs to, and the agent whose tags it takes (R339). -/
structure Queued where
  id : Nat
  op : ReqOp
  addr : Nat
  len : Nat
  dstR : Nat
  dstP : Nat
  need : Nat
  split : Option Nat := none
  agent : Option Nat := none
  user : ReqUser := .userPort
  deriving DecidableEq, Repr

/-- A transaction of a requester (R288, R289): tag, request, destination, epoch, response parcels needed, those arrived, how
many of them the user port has been shown, the response code, whether its request has been injected, the split it belongs
to, quarantine, the name of its request in the outbound queue, and whether it has raised FLT_POISON_CONSUMED (R39). -/
structure Txn where
  tag : Nat
  op : ReqOp
  addr : Nat
  len : Nat
  dstR : Nat
  dstP : Nat
  epoch : Nat
  need : Nat
  got : List (Nat × List PWord) := []
  shown : Nat := 0
  code : Nat := 0
  injected : Bool := false
  split : Option Nat := none
  quarantined : Bool := false
  user : ReqUser := .userPort
  id : Nat := 0
  noted : Bool := false
  deriving DecidableEq, Repr

/-- A read issued as sub-reads (R291): its request; the offset in parcels of the next sub-read; the codes and data of those
that completed, by their order; how many have been issued. -/
structure Split where
  id : Nat
  req : Request
  dstR : Nat
  dstP : Nat
  step : Nat
  issued : Nat
  total : Nat
  done : List (Nat × Nat × List (List PWord))
  user : ReqUser := .userPort
  deriving DecidableEq, Repr

/-- A completion that an initiator receives: tag, response code, data parcels in order, name of its request. -/
structure Completion where
  user : ReqUser
  tag : Nat
  code : Nat
  data : List (List PWord)
  id : Nat := 0
  deriving DecidableEq, Repr

/-- A transaction that a target holds (R293): source router and port, tag, request parcel, data parcels by seq; refused as too
large, its data parcels discarded as they arrive (R294); at a user port, whether it has raised FLT_POISON_CONSUMED, and the place
(parcel, word) of a poisoned word that was presented before its request (R39). -/
structure Reasm where
  src : Nat
  port : Nat
  tag : Nat
  req : Option Parcel
  data : List (Nat × List PWord)
  refused : Bool := false
  noted : Bool := false
  early : Option (Nat × Nat) := none
  deriving DecidableEq, Repr

/-- A parcel or word presented at a user port: the words as presented with their poison flags (R39). -/
structure Presented where
  hdr : BitVec 64
  words : List (Word × Bool)
  deriving DecidableEq, Repr

/-- One attachment point or edge block: router-side state and epoch (R15); tokens (R271); inbound queue or ejection buffer;
responses ejected and not yet delivered; outbound queue; answers of
the router side (R301) not yet injected; tags, splits and completions of its initiator; transactions its
target holds and those it accepted but has not answered. `entering`: parcels that a user port has offered and that the outbound
queue takes one at each user edge (R277). `requests`: the requests in both, in order; `sending`: tags of the injected writes by
request name, for the data parcels that follow. `lag`: parcels that have left the inbound queue and that its write side does
not count as gone yet, by stage of the pointer's way (R278, R115). -/
structure Endpoint where
  state : AttState := .resetting
  epoch : Nat := 0
  tokens : Nat := 1
  inq : List Parcel := []
  resp : List Parcel := []
  outq : List Parcel := []
  answers : List Parcel := []
  nextTag : Nat := 0
  txns : List Txn := []
  splits : List Split := []
  nextSplit : Nat := 0
  completions : List Completion := []
  reasm : List Reasm := []
  accepted : List Reasm := []
  presented : Option Presented := none
  entering : List Parcel := []
  requests : List Queued := []
  nextId : Nat := 0
  sending : List (Nat × Nat) := []
  lag : List Nat := []
  deriving DecidableEq, Repr

/-- The network: parcels on each link input (router address·4 + direction of arrival), what the current network edge has
taken at each router (outputs in bits 0 to 3, ejection slots in bits 4 and 5), the attachment last offered first, endpoints
keyed 4·address + port, and the attachment states that the routers have sampled in the edge under way (R17). -/
structure Network where
  links : Tbl (List Parcel) := []
  taken : Tbl Nat := []
  offered : Tbl Nat := []
  eps : Tbl Endpoint := []
  sampled : Tbl (Option AttState) := []
  deriving DecidableEq, Repr

end Sys2Proof.Machine
end

