-- ==== Sys2Proof/Machine/Parts/Memory.lean ====
section
/-! DEFINITION. State of the in-package SRAM and the DDR5 channels (chapter 14). -/

namespace Sys2Proof.Machine

/-- A request as a target decodes it (R265, R266): header facts to answer with, the operation, its range and its words. -/
structure MemReq where
  src : Nat
  port : Nat
  tag : Nat
  epoch : Nat
  bulk : Bool
  prio : Nat
  key : Nat
  op : ReqOp
  addr : Nat
  len : Nat
  first : Nat
  last : Nat
  data : List (List PWord)
  operands : List PWord
  raHint : Bool := false
  raStream : Nat := 0
  deriving DecidableEq, Repr

/-- What the engine fixed for a request when it accepted it (R336): the slot's mode and key material, and the integrity range
(8·m + r) through which it was selected. -/
structure KeyCtx where
  mode : KeyMode := .plaintext
  key : List Nat := []
  rng : Option Nat := none
  deriving DecidableEq, Repr

/-- A network access that an SRAM die has accepted (R306, R307): its request and key, the first words of the units still to do
(a word, an AES block of two words, or a line), read and write slots that the next unit has had already, words read so far, response
code, and the port cycles since the unit done last. -/
structure SramAcc where
  req : MemReq
  ctx : KeyCtx := {}
  left : List Nat
  paid : Nat × Nat := (0, 0)
  got : List (Nat × PWord) := []
  code : Nat := 0
  age : Nat := 0
  deriving DecidableEq, Repr

/-- A table port command in its crossing queue (R308): a read pair address, or a write with its enables, data and poison. -/
structure TpWrite where
  wa : Nat
  we : Nat
  wd : Word × Word
  wp : Bool × Bool
  deriving DecidableEq, Repr

/-- What a table port read gives (R308): data and poison of the two words, or a refusal. -/
structure TpResult where
  d0 : Word
  d1 : Word
  p0 : Bool
  p1 : Bool
  err : Bool
  deriving DecidableEq, Repr

/-- One SRAM die with its table port: words (an unlisted one is as its last fill or initialisation left it), fill, runs of parity failures by command (from the table port or not, device address; R312), network accesses in acceptance order,
table port queues, reads on their way out with the port cycles left, results waiting, and the result presented last; the
number of results to discard (R311); the time in ns at which
FLT_TP_REFUSED was last raised (R310). -/
structure SramDie where
  arr : Tbl (Option PWord) := []
  filled : Bool := false
  parityRuns : List ((Bool × Nat) × Nat) := []
  accs : List SramAcc := []
  tpReads : List Nat := []
  tpWrites : List TpWrite := []
  tpPipe : List (Nat × TpResult) := []
  tpResp : List TpResult := []
  tpOut : Option TpResult := none
  tpDiscard : Nat := 0
  refusedAt : Option Nat := none
  deriving DecidableEq, Repr

/-- Channel states (R327). -/
inductive DdrState where
  | training
  | filling
  | ready
  | frozen
  | resetting
  | selfRefresh
  | outOfService
  deriving DecidableEq, Repr

/-- Kinds of a queue entry (R322, R323, R326): a line read, a whole-line write, a read-compute-write of a merge or atomic, in
its read or its write part, or a line read ahead. -/
inductive EntryKind where
  | read
  | write
  | mergeRead
  | mergeWrite
  | ahead
  deriving DecidableEq, Repr

/-- One entry of a sub-channel: order of acceptance, transaction, line number (offset / 64), kind, and the words to write with
their device addresses. -/
structure DdrEntry where
  seq : Nat
  txn : Nat
  line : Nat
  kind : EntryKind
  data : List (Nat × PWord) := []
  deriving DecidableEq, Repr

/-- How the part of a transaction that another channel serves stands (R321). -/
inductive PartState where
  | none
  | toSend
  | sent
  | done
  deriving DecidableEq, Repr

/-- A transaction held by a channel: request, what the engine fixed, lines not finished (read, or accepted into the write
entries), lines not yet accepted as entries, words read, response code of its own lines; the forwarded part and its code. -/
structure DdrTxn where
  id : Nat
  req : MemReq
  ctx : KeyCtx := {}
  lines : List Nat
  waiting : List Nat
  got : List (Nat × PWord) := []
  code : Nat := 0
  part : PartState := .none
  partFrom : Nat := 0
  partCode : Nat := 0
  deriving DecidableEq, Repr

/-- One sub-channel's scheduler state (R322). `last`: the write issued last, whose CRC is not yet known to be good, with the words it
replaced; `wcrcRun`: write CRC failures in a row (R328). -/
structure SubChannel where
  reads : List DdrEntry := []
  writes : List DdrEntry := []
  writeMode : Bool := false
  openRows : Tbl (Option Nat) := []
  lastBank : Nat := 0
  runBank : Nat := 0
  run : Nat := 0
  last : Option (DdrEntry × List (Nat × PWord)) := none
  wcrcRun : Nat := 0
  deriving DecidableEq, Repr

/-- A stream tracker (R326): its key, the line after its previous read in channel-local order, how often that was hit, and
its last use. -/
structure Tracker where
  key : Nat
  nextLine : Nat
  hits : Nat
  deriving DecidableEq, Repr

/-- One DDR5 channel: state, whether boot training is the present one and whether the first fill has ended, geometry,
stored words by word index of the DDR5 offset, sub-channels, transactions, read-ahead trackers, buffered lines with their words as
read, lines still to be read ahead, postponed refreshes, activate counts and the threshold at which a bank needs an RFM (0: none,
R324), rank power (0 up, 1 power-down, 2 self-refresh), DQS oscillator counts at training and the ranks whose write timing is
being retrained, by 4·sub-channel + rank (R316). -/
structure DdrChan where
  state : DdrState := .training
  boot : Bool := true
  firstFill : Bool := false
  retry : Bool := false
  cap : Nat := 0
  ranks : Nat := 0
  x8 : Bool := false
  gb32 : Bool := false
  rate : Nat := 0
  arr : Tbl (Option PWord) := []
  sub0 : SubChannel := {}
  sub1 : SubChannel := {}
  txns : List DdrTxn := []
  nextId : Nat := 0
  nextSeq : Nat := 0
  trackers : List Tracker := []
  buffer : List (Nat × List PWord) := []
  ahead : List Nat := []
  postponed : Nat := 0
  activates : Tbl Nat := []
  rfmAt : Nat := 0
  power : Tbl Nat := []
  dqs : Tbl Nat := []
  retrain : List Nat := []
  resetAfterWarm : Bool := false
  deriving DecidableEq, Repr

/-- The DDR5 mapping in force (R318, R320): the masks applied, and whether the default masks are used in region 0. -/
structure DdrMap where
  masks : List Nat := []
  useDefault : Bool := true
  deriving DecidableEq, Repr

/-- The memories: four SRAM dies, eight DDR5 channels, the mapping in force. -/
structure Memory where
  sram : Tbl SramDie := []
  ddr : Tbl DdrChan := []
  map : DdrMap := {}
  deriving DecidableEq, Repr

end Sys2Proof.Machine
end

