-- ==== Sys2Proof/Machine/Parts/Links.lean ====
section
/-! DEFINITION. State of the serial lanes, the PCI Express controllers, the Eovar Link bundles and the timing stream
(chapters 18, 19). -/

namespace Sys2Proof.Machine

/-- Stages of a lane, in the coding of LANE_STATUS.stage (R439). -/
inductive Stage where
  | off
  | detect
  | train
  | lock
  | exchange
  | active
  | failed
  deriving DecidableEq, Repr

/-- A received raw word with LX_RERR (R436). -/
structure RawWord where
  data : BitVec 66
  err : Bool
  deriving DecidableEq, Repr

/-- One lane: stage, its settings (R425, two words), queues of the raw interface, no-partner fault raised in this bring-up, CAP_ACK
accept 1 sent; the word on its way round a near-end loop (R434), and the words of an uncorrectable codeword still to come (R437). -/
structure Lane where
  stage : Stage := .off
  set0 : Word := 0
  set1 : Word := 0
  txq : PortQueue (BitVec 66) := {}
  rxq : PortQueue RawWord := {}
  noPartner : Bool := false
  ackSent : Bool := false
  looped : Option (BitVec 66) := none
  badLeft : Nat := 0
  deriving DecidableEq, Repr

/-- The cached lane settings table (R428, R440). -/
structure LaneTable where
  copy : Nat
  seq : Nat
  entries : List (Word × Word)
  deriving DecidableEq, Repr

/-- The lanes: per lane state; the cached table; FLT_LANE_TABLE raised for want of a copy; the self-test has run; every lane held
OFF by E3. -/
structure Lanes where
  lanes : Tbl Lane := []
  table : Option LaneTable := none
  noTableRaised : Bool := false
  tested : Bool := false
  heldE3 : Bool := false
  deriving DecidableEq, Repr

/-- States of a controller, in the coding of PCIE_STATUS.state (R455). -/
inductive PcieState where
  | off
  | early
  | training
  | up
  | retraining
  deriving DecidableEq, Repr

/-- A request of the network at a controller's outbound window that awaits host completions (R447): the reads still
outstanding by id, with the window offset and length of each; the bytes received by offset, with EP. -/
structure Outbound where
  req : MemReq
  left : List (Nat × Nat × Nat)
  got : List (Nat × BitVec 8 × Bool) := []
  deriving DecidableEq, Repr

/-- A host read at BAR2 or BAR4 under way (R446): its link and id, first device address and bytes asked for; the names of its
transactions in order, those answered with code and data. -/
structure HostRead where
  id : Nat
  link : Nat
  tags : List Nat
  done : List (Nat × Nat × List (List PWord)) := []
  lo : Nat := 0
  en : List Bool := []
  deriving DecidableEq, Repr

/-- The descriptor that a DMA engine works on (R449, R450): host and device address and length, direction, irq; transactions not
yet issued, by offset and length; those outstanding, by name; what host memory delivered, with EP; bytes moved, poison met, the
code that ended it. -/
structure DmaRun where
  host : Nat
  toHost : Bool
  irq : Bool
  dev : Nat
  length : Nat
  todo : List (Nat × Nat) := []
  tags : List (Nat × Nat × Nat) := []
  data : List (BitVec 8 × Bool) := []
  moved : Nat := 0
  poisoned : Bool := false
  code : Nat := 0
  deriving DecidableEq, Repr

/-- States of a DMA engine (R451). -/
inductive DmaState where
  | idle
  | running
  | stopped
  | error
  deriving DecidableEq, Repr

/-- One DMA engine: state, stop requested, descriptor in progress. -/
structure Dma where
  state : DmaState := .idle
  stopping : Bool := false
  run : Option DmaRun := none
  deriving DecidableEq, Repr

/-- One controller: PERST_N high, state, links up, rate and width of link 0, bifurcation read at the rise, outbound
requests, host accesses, DMA engines. -/
structure Pcie where
  perstHigh : Bool := false
  state : PcieState := .off
  up : List Nat := []
  gen : Nat := 0
  width : Nat := 0
  links : Nat := 1
  full : Bool := false
  out : List Outbound := []
  host : List HostRead := []
  nextId : Nat := 0
  dmas : Tbl Dma := []
  deriving DecidableEq, Repr

/-- States of a bundle, in the coding of LINK_STATUS.state (R467). -/
inductive BundleState where
  | off
  | bringup
  | exchange
  | aligning
  | up
  deriving DecidableEq, Repr

/-- A request from a bundle, issued from the bridge attachment with a tag of its own (R464): requester beyond the bundle with tag
and epoch; class and priority, of the last response parcel once one has come; operation and address; own tag; destination and
WDATA parcels still to come. -/
structure Forwarded where
  id : Nat
  src : Nat
  port : Nat
  tag : Nat
  epoch : Nat
  bulk : Bool
  prio : Nat
  op : ReqOp
  addr : Nat
  own : Nat := 0
  dstR : Nat := 0
  dstP : Nat := 0
  left : Nat := 0
  deriving DecidableEq, Repr

/-- One bundle (R457 to R466): state; sent count S; last freed F; frame counter expected, whose low 12 bits are the sequence
expected; freed count; freed as last sent; own frame counter; counter that the partner's CAP set announced; link key; accepted
frames that wait for the attachment; answers that wait for room at the partner; requests issued for the bundle. -/
structure Bundle where
  state : BundleState := .off
  sent : Nat := 0
  freedGot : Nat := 0
  expect : Nat := 0
  freed : Nat := 0
  freedSent : Nat := 0
  counter : Nat := 0
  peer : Nat := 0
  key : List Nat := []
  buffer : List Parcel := []
  owed : List Parcel := []
  fwd : List Forwarded := []
  nextId : Nat := 0
  deriving DecidableEq, Repr

/-- A value that a command sends out of the block: host completions and requests, MSI-X messages, words of the management SPI
port and the debug port, frames and credits of a bundle, raw lane words, capability acknowledgements, the JTAG identification code, a ledger entry read. -/
inductive Output where
  | completion (q link id status : Nat) (data : List Word) (ep : Bool)
  | memRead (q link : Nat) (addr len id : Nat)
  | memWrite (q link : Nat) (addr : Nat) (mask : List (Option (BitVec 8))) (ep relaxed : Bool)
  | msix (vector : Nat) (addr data : Nat)
  | mspi (data : Word)
  | debug (done : Bool) (code : Nat) (data : Word)
  | frame (bundle : Nat) (blocks : List (BitVec 66))
  | credit (bundle : Nat) (block : BitVec 66)
  | capAck (lane : Nat) (accept : Bool)
  | raw (lane : Nat) (data : BitVec 66)
  | idcode (value : Nat)
  | ledger (data : Word)
  deriving DecidableEq, Repr

/-- The links: lanes, controllers keyed q, bundles keyed b, the main receiver of the timing stream. -/
structure Links where
  lanes : Lanes := {}
  pcie : Tbl Pcie := []
  bundles : Tbl Bundle := []
  stream : StreamRx := {}
  deriving DecidableEq, Repr

end Sys2Proof.Machine
end

