-- ==== Sys2Proof/Machine/Parts/Host.lean ====
section
/-! DEFINITION. State of the I/O cells, the timebase unit and the Bureau's host interface (chapters 20, 22). -/

namespace Sys2Proof.Machine

/-- The safe-value latch of a cell (R476, R477): the standard, drive and safe mode taken from a leaf. -/
structure SafeLatch where
  std : BitVec 5 := 31
  drive : BitVec 2 := 0
  safe : BitVec 2 := 0
  deriving DecidableEq, Repr

/-- One I/O cell (R473 to R476): values captured at rising and falling edges, Q1 and Q2 as presented, output registers D1 and
D2, output-enable register, current input and output taps, safe-value latch; FLT_IO_STANDARD raised. -/
structure IoCell where
  c1 : Bool := false
  c2 : Bool := false
  q1 : Bool := false
  q2 : Bool := false
  d1 : Bool := false
  d2 : Bool := false
  oe : Bool := false
  itap : Nat := 0
  otap : Nat := 0
  latch : SafeLatch := {}
  stdErr : Bool := false
  hold : Option (Option Bool) := none
  deriving DecidableEq, Repr

/-- Time modes of the device (R481). -/
inductive TbMode where
  | free
  | stream
  | running
  deriving DecidableEq, Repr

/-- An entry of the capture queue (R483). -/
structure Capture where
  time : Nat
  mode : TbMode
  falling : Bool
  source : Nat
  deriving DecidableEq, Repr

/-- The timebase unit: time in units of 2^-64 s (R480); mode; capture queue and the time of each source's last edge; per
trigger unit its driven level, the level that a running pulse asserts, and whether it is to fire late: 1 because it was armed with a time
already past, 2 because the time was moved past it. -/
structure Timebase where
  time : Nat := 0
  mode : TbMode := .free
  queue : List Capture := []
  lastEdge : Tbl (Option Nat) := []
  level : Tbl Bool := []
  pulse : Tbl (Option Bool) := []
  lateDue : Tbl Nat := []
  deriving DecidableEq, Repr

/-- I/O cells (keyed 48·b + c), banks at high impedance after a supply loss, whether each bank's supply is present. -/
structure Io where
  cells : Tbl IoCell := []
  bankHiZ : Tbl Bool := []
  deriving DecidableEq, Repr

/-- A command that the mailbox runs (R512): opcode, seq, argument words from word 2 on. -/
structure MbxCmd where
  opcode : Nat
  seq : Nat
  args : List Word
  deriving DecidableEq, Repr

/-- How a mailbox command ended: family, value, data words of the response. -/
structure MbxResult where
  family : Nat
  value : Nat
  data : List Word := []
  deriving DecidableEq, Repr

/-- The mailbox (R510 to R514): running command, its result once it has ended. Its areas are registers of block 1. -/
structure Mailbox where
  run : Option MbxCmd := none
  result : Option MbxResult := none
  deriving DecidableEq, Repr

/-- A hash entry of the device key store (R516). -/
structure SignEntry where
  hash : Nat := 0
  programmed : Bool := false
  revoked : Bool := false
  deriving DecidableEq, Repr

/-- The device key store (R516): device key, wrapped image keys (unwrapped here), hash entries, the sign fuse. `testFuse`: the
factory test fuse is intact, which it is on no shipped part (R502). -/
structure KeyStore where
  devKey : Option (List Nat) := none
  imageKeys : Tbl (List Nat) := []
  sign : Tbl SignEntry := []
  signFuse : Bool := false
  testFuse : Bool := false
  deriving DecidableEq, Repr

/-- A debug access (R519): outstanding, done, response code, data; its address, and whether it writes. -/
structure DbgAccess where
  waiting : Bool := false
  done : Bool := false
  code : Nat := 0
  data : Word := 0
  addr : Nat := 0
  isWrite : Bool := false
  deriving DecidableEq, Repr

/-- The Bureau's host interface: mailbox, key store, JTAG instruction and debug access. -/
structure Bureau where
  mbx : Mailbox := {}
  keys : KeyStore := {}
  jtag : Nat := 1
  dbg : DbgAccess := {}
  deriving DecidableEq, Repr

end Sys2Proof.Machine
end

