-- ==== Sys2Proof/Machine/Parts/Device.lean ====
section
/-! DEFINITION. The whole device: every part's state, the management registers and the counter of free values. -/

namespace Sys2Proof.Machine

/-- An ECC log entry (R45). -/
structure EccEntry where
  valid : Bool := false
  kind : Nat := 0
  location : Nat := 0
  count : Nat := 0
  syndrome : Nat := 0
  deriving DecidableEq, Repr

/-- The device. `regs` holds the fields of management registers, keyed by BAR0 offset (an unlisted register holds its reset
value); sectors are keyed 0 to 63, and 64 for the Cabinet fabric; `eccLog` is keyed 16·u + n; `thr` lists the units that
have raised FLT_MEM_CE_THRESHOLD (R43); `groups` is keyed g; `free` counts the uses of undefined values and is the
model's own (assumption 3); `out` is what the last command sent out of the block (assumption 5);
`due` lists escalation levels that faults of the running command apply (group, level, affected sectors), empty between
commands. -/
structure Dev where
  regs : Tbl Word := []
  sectors : Tbl Sector := []
  eccLog : Tbl EccEntry := []
  thr : List Nat := []
  clk : Clocks := {}
  cfg : Config := {}
  net : Network := {}
  mem : Memory := {}
  enc : Encryption := {}
  cab : Cabinet := {}
  links : Links := {}
  io : Io := {}
  tb : Timebase := {}
  groups : Tbl FaultGroup := []
  flog : FaultLog := {}
  units : Units := {}
  power : Power := {}
  bureau : Bureau := {}
  free : Nat := 0
  out : List Output := []
  due : List (Nat × Nat × Nat) := []
  deriving DecidableEq, Repr

end Sys2Proof.Machine
end

