-- ==== Sys2Proof/Machine/Table.lean ====
section
/-! DEFINITION. Sparse tables in one canonical form: ascending keys, no entry that equals what an unlisted key
reads as (`dflt`). Every register file, memory and numbered resource of the block is held in one. -/

namespace Sys2Proof.Machine

/-- The value at key `k`; an unlisted key reads as `dflt k`. -/
def tGet (dflt : Nat → α) : Tbl α → Nat → α
  | [], k => dflt k
  | (j, v) :: t, k => if k < j then dflt k else if k = j then v else tGet dflt t k

/-- Write `v` at key `k`, keeping the canonical form. -/
def tSet [DecidableEq α] (dflt : Nat → α) : Tbl α → Nat → α → Tbl α
  | [], k, v => if v = dflt k then [] else [(k, v)]
  | (j, w) :: t, k, v =>
    if k < j then (if v = dflt k then (j, w) :: t else (k, v) :: (j, w) :: t)
    else if k = j then (if v = dflt k then t else (k, v) :: t)
    else (j, w) :: tSet dflt t k v

/-- Apply `f` to the value at key `k`. -/
def tUpd [DecidableEq α] (dflt : Nat → α) (t : Tbl α) (k : Nat) (f : α → α) : Tbl α :=
  tSet dflt t k (f (tGet dflt t k))

/-- Return every key that `p` picks to its unlisted value. -/
def tDrop (p : Nat → Bool) (t : Tbl α) : Tbl α := t.filter fun e => !p e.1

/-- Every key of the table is above `b`. -/
def tAbove (b : Nat) (t : Tbl α) : Bool := t.all fun e => b < e.1

/-- The canonical form: keys strictly rising, no entry equal to its unlisted value. -/
def tWf [DecidableEq α] (dflt : Nat → α) : Tbl α → Bool
  | [] => true
  | (j, v) :: t => tAbove j t && decide (v ≠ dflt j) && tWf dflt t

/-- Apply `f` at each key of `ks` in turn. -/
def tUpdAll [DecidableEq α] (dflt : Nat → α) (t : Tbl α) (ks : List Nat) (f : Nat → α → α) : Tbl α :=
  ks.foldl (fun t k => tUpd dflt t k (f k)) t

end Sys2Proof.Machine
end

