-- ==== Sys2Proof/Machine/RegMap.lean ====
section
/-! DEFINITION. The registers of management space: addresses as BAR0 offsets (block · 2^20 + offset, R22, R23), and each
register's fields with access code and reset value, as the field tables of the manual give them. Fields the tables call
reserved are absent here and read as 0 (R3). -/

namespace Sys2Proof.Machine

/-- Access codes (R1). No register of the manual has an RWO field. -/
inductive Access where
  | ro
  | rw
  | rwl
  | wo
  | w1c
  | w1s
  deriving DecidableEq, Repr

/-- One field of a register. -/
structure RegField where
  hi : Nat
  lo : Nat
  acc : Access
  reset : Nat := 0
  deriving DecidableEq, Repr

/-- Base of block `b`. -/
def blk (b : Nat) : Nat := b * 2 ^ 20

/-! ## Addresses -/

def rXlate (n : Nat) : Nat := 0x1000 + 8 * n
def rBar4 : Nat := 0x1080
def rFill : Nat := 0x1100
def rMbxCmd (w : Nat) : Nat := blk 1 + 8 * w
def rMbxResp (w : Nat) : Nat := blk 1 + 0x800 + 8 * w
def rMsix (v w : Nat) : Nat := blk 1 + 0x20000 + 16 * v + 8 * w
def rPba : Nat := blk 1 + 0x30000
def rMbxCtrl : Nat := blk 1 + 0x1000
def rMbxStatus : Nat := blk 1 + 0x1008
def rMbxClaim : Nat := blk 1 + 0x1010
def rRefCfg : Nat := blk 2
def rRefStatus : Nat := blk 2 + 8
def rTbClkCtrl : Nat := blk 2 + 0x10
def rTbClkStatus : Nat := blk 2 + 0x18
def rClkMon (n : Nat) : Nat := blk 2 + 0x100 + 8 * n
def rClkMonLast (n : Nat) : Nat := blk 2 + 0x180 + 8 * n
def rCommitCfg : Nat := blk 3 + 0x1000
def rCommitStatus : Nat := blk 3 + 0x1008
def rBootCfg : Nat := blk 3 + 0x2000
def rLoadStatus : Nat := blk 3 + 0x2008
def rHealth : Nat := blk 3 + 0x2010
def rRegionStatus (n : Nat) : Nat := blk 3 + 0x3000 + 8 * n
def rRegionCfg : Nat := blk 3 + 0x3080
def rGateStatus : Nat := blk 3 + 0x3100
def rGateImage : Nat := blk 3 + 0x3108
def rSectorState (n : Nat) : Nat := blk 3 + 0x3200 + 8 * n
def rScrubCfg : Nat := blk 3 + 0x4000
def rScrubStatus : Nat := blk 3 + 0x4008
def rScrubCounts : Nat := blk 3 + 0x4010
def rScrubFirst : Nat := blk 3 + 0x4018
def rRtrCnt (a : Nat) : Nat := blk 6 + 0x100 * a
def rAttCnt (a p : Nat) : Nat := blk 6 + 0x100 * a + 8 + 8 * p
def rEdgeReg (a : Nat) : Nat := blk 6 + 0x100 * a + 0x20
def rDrop (a p : Nat) : Nat := blk 6 + 0x100 * a + 0x40 + 0x20 * p
def rNocFault (a : Nat) : Nat := blk 6 + 0x100 * a + 0x80
def rTxnCfg : Nat := blk 6 + 0x20000
def rDdrMapCfg : Nat := blk 7
def rDdrMask (m : Nat) : Nat := blk 7 + 8 + 8 * m
def rDdrCtrl (n : Nat) : Nat := blk 7 + 0x1000 + 0x100 * n
def rDdrStatus (n : Nat) : Nat := rDdrCtrl n + 8
def rDdrFreeze (n : Nat) : Nat := rDdrCtrl n + 0x10
def rEncCfg : Nat := blk 8
def rRights (n w : Nat) : Nat := blk 8 + 0x1000 + 0x20 * n + 8 * w
def rEncStatus (e w : Nat) : Nat := blk 8 + 0x12000 + 0x20 * e + 8 * w
def rQuadCfg (j : Nat) : Nat := blk 10 + 8 * j
def rLaneCfg (n : Nat) : Nat := blk 10 + 0x1000 + 0x40 * n
def rLaneStatus (n : Nat) : Nat := rLaneCfg n + 8
def rLaneApplied (n w : Nat) : Nat := rLaneCfg n + 0x10 + 8 * w
def rLaneErr (n : Nat) : Nat := rLaneCfg n + 0x20
def rLaneTable : Nat := blk 10 + 0x3000
def rLaneTmo : Nat := blk 10 + 0x3008
def rPcieCtrl (q : Nat) : Nat := blk 11 + 0x10000 * q
def rPcieStatus (q : Nat) : Nat := rPcieCtrl q + 8
def rOutwin (q : Nat) : Nat := rPcieCtrl q + 0x10
def rPcieXlate (q n : Nat) : Nat := rPcieCtrl q + 0x100 + 8 * n
def rRingBase (q d : Nat) : Nat := rPcieCtrl q + 0x1000 + 0x40 * d
def rRingCfg (q d : Nat) : Nat := rRingBase q d + 8
def rRingTail (q d : Nat) : Nat := rRingBase q d + 0x10
def rRingStatus (q d : Nat) : Nat := rRingBase q d + 0x18
def rLinkCfg (b : Nat) : Nat := blk 11 + 0x40000 + 0x100 * b
def rLinkStatus (b : Nat) : Nat := rLinkCfg b + 8
def rLinkErr (b : Nat) : Nat := rLinkCfg b + 0x10
def rLinkXlate (b n : Nat) : Nat := rLinkCfg b + 0x40 + 8 * n
def rTsStatus : Nat := blk 11 + 0x50000
def rTsLast (w : Nat) : Nat := blk 11 + 0x50008 + 8 * w
def rBank (b : Nat) : Nat := blk 12 + 8 * b
def rTbTime (w : Nat) : Nat := blk 12 + 0x10000 + 8 * w
def rTbSet (w : Nat) : Nat := blk 12 + 0x10010 + 8 * w
def rTbCtrl : Nat := blk 12 + 0x10020
def rCapCfg : Nat := blk 12 + 0x10040
def rCapStatus : Nat := blk 12 + 0x10048
def rCapHead (w : Nat) : Nat := blk 12 + 0x10050 + 8 * w
def rTrig (n w : Nat) : Nat := blk 12 + 0x10100 + 0x20 * n + 8 * w
def rFltCfg (g : Nat) : Nat := blk 13 + 0x40 * g
def rFltRec (g w : Nat) : Nat := blk 13 + 0x40 * g + 8 + 8 * w
def rFltSummary : Nat := blk 13 + 0x400
def rFltTherm : Nat := blk 13 + 0x408
def rReact (g k : Nat) : Nat := blk 13 + 0x1000 + 0x80 * g + 8 * k
def rUnitMap (w : Nat) : Nat := blk 13 + 0x2000 + 8 * w
def rUnitCtrl : Nat := blk 13 + 0x2040
def rFltInject : Nat := blk 13 + 0x3000
def rEccCnt (u : Nat) : Nat := blk 14 + 8 * u
def rEccLog (u n w : Nat) : Nat := blk 14 + 0x10000 + 0x100 * u + 0x10 * n + 8 * w

/-! ## Fields -/

def ro (hi lo : Nat) (reset : Nat := 0) : RegField := ⟨hi, lo, .ro, reset⟩
def rw (hi lo : Nat) (reset : Nat := 0) : RegField := ⟨hi, lo, .rw, reset⟩
def rwl (hi lo : Nat) (reset : Nat := 0) : RegField := ⟨hi, lo, .rwl, reset⟩
def wo (b : Nat) : RegField := ⟨b, b, .wo, 0⟩
def w1c (b : Nat) : RegField := ⟨b, b, .w1c, 0⟩
def w1s (b : Nat) : RegField := ⟨b, b, .w1s, 0⟩

/-- A register at a base with a stride: `n` when `o` is the offset of the `n`-th of `count`. -/
def slotOf (o base stride count : Nat) : Option Nat :=
  if base ≤ o && o < base + stride * count && (o - base) % stride = 0 then some ((o - base) / stride) else none

/-- BAR2_XLATE_n and PCIE_XLATE_q_n (R25, R445). -/
def xlateFields : List RegField := [rw 63 63, rw 47 32, rw 5 0]

/-- Block 0 (R25, R27, R48). -/
def fields0 (o : Nat) : List RegField :=
  if (slotOf o 0x1000 8 16).isSome then xlateFields
  else if o = 0x1080 then [ro 63 63, ro 21 16, ro 10 9, ro 8 0]
  else if o = 0x1100 then [ro 23 16, ro 11 8, ro 7 0]
  else []

/-- Block 1 (R510, R511, R517): the areas of the mailbox and the MSI-X structures are plain words. An MSI-X entry holds the
address in word 0 and data and mask bit in word 1, as PCI Express lays them out (PRESUMED, assumption 7). -/
def fields1 (o : Nat) : List RegField :=
  if o < 0x800 then [rw 63 0]
  else if o < 0x1000 then [ro 63 0]
  else if o = 0x1000 then [wo 63, wo 62]
  else if o = 0x1008 then [ro 63 63, w1c 62, w1c 61, ro 31 0]
  else if o = 0x1010 then [wo 63, wo 62, ro 1 0]
  else if (slotOf o 0x20000 8 64).isSome then
    if o % 16 = 0 then [rw 63 2] else [rw 32 32 1, rw 31 0]
  else if o = 0x30000 then [ro 31 0]
  else []

/-- Block 2 (R136 to R141). GCLK_GATE_q has no address in the manual (assumption 6). -/
def fields2 (o : Nat) : List RegField :=
  if o = 0 then [wo 63, rw 40 40, rw 39 32 8, rw 23 0]
  else if o = 8 then [ro 40 40, ro 39 39, ro 34 32, ro 26 24, ro 23 0]
  else if o = 0x10 then [wo 63, wo 62, wo 61, rw 17 16, rw 8 8, rw 7 0 0x3C]
  else if o = 0x18 then [ro 47 32, w1c 4, ro 3 3, ro 2 2 1, ro 1 0 2]
  else if (slotOf o 0x100 8 11).isSome then
    [rw 63 63, w1c 62, w1c 61, rw 60 60 1, rw 59 56 0xF, rw 47 24 0xFFFFFF, rw 23 0]
  else if (slotOf o 0x180 8 11).isSome then [ro 23 0]
  else []

/-- Block 3 (R170, R180, R200, R209, R218, R228, R239, R252). -/
def fields3 (o : Nat) : List RegField :=
  if o < 0x1000 && o % 8 = 0 then
    match o % 0x20 / 8 with
    | 0 => [ro 63 0]
    | 1 => [ro 63 16, ro 7 7, ro 6 6, ro 5 5, ro 2 0]
    | 2 => [ro 63 32, ro 31 0]
    | _ => []
  else if o = 0x1000 then [rw 20 20, rw 19 0 0x64]
  else if o = 0x1008 then [ro 63 32, ro 31 31, ro 30 29, ro 23 20, ro 19 0]
  else if o = 0x2000 then
    [ro 21 21, rwl 20 20, rw 17 16 2, rw 12 12, rw 11 11, rw 10 8, rw 4 4, rw 2 0]
  else if o = 0x2008 then [ro 63 63, ro 62 61, ro 60 60, ro 59 56, ro 55 48, ro 39 32, ro 31 0]
  else if o = 0x2010 then [ro 63 63, ro 62 62, w1c 61, ro 60 60, ro 31 0]
  else if (slotOf o 0x3000 8 16).isSome then [ro 63 63, ro 62 60, ro 59 56, ro 51 44, ro 19 0]
  else if o = 0x3080 then [rw 20 20, rw 19 0 0x64]
  else if o = 0x3100 then [w1c 63, ro 47 44, ro 16 0]
  else if o = 0x3108 then [ro 63 0]
  else if (slotOf o 0x3200 8 64).isSome then [ro 11 11, ro 10 7, ro 3 3, ro 2 0]
  else if o = 0x4000 then [rw 63 63 1, wo 62, rw 39 32 0x10, rw 13 0 0x64]
  else if o = 0x4008 then [ro 63 63, ro 47 32, ro 31 0]
  else if o = 0x4010 then [ro 63 48, ro 47 32, ro 31 16, ro 15 0]
  else if o = 0x4018 then [w1c 63, ro 62 62, ro 61 60, ro 16 0]
  else []

/-- Router addresses that name a fabric router, and those that name an edge router (R10, R12). -/
def isFabricAddr (a : Nat) : Bool :=
  let x := a % 32
  let y := a / 32
  decide (1 ≤ x ∧ x ≤ 16 ∧ 1 ≤ y ∧ y ≤ 8)

def isEdgeAddr (a : Nat) : Bool :=
  let x := a % 32
  let y := a / 32
  (x = 0 && (y = 2 || y = 4 || y = 5 || y = 7)) || (x = 17 && (y = 2 || y = 4 || y = 5 || y = 7)) ||
  (y = 0 && [2, 4, 6, 11, 13, 15].contains x) || (y = 9 && [2, 4, 6, 11, 13, 15].contains x)

/-- Block 6 (R281, R296, R300, R304). -/
def fields6 (o : Nat) : List RegField :=
  if o = 0x20000 then [rw 15 0 0x64]
  else
    let a := o / 0x100
    let r := o % 0x100
    let fab := isFabricAddr a
    let edge := isEdgeAddr a
    if !fab && !edge then []
    else if r = 0 then [wo 63, ro 55 48, ro 47 32, ro 31 0]
    else if fab && (r = 8 || r = 0x10) then [wo 63, ro 31 16, ro 15 0]
    else if edge && r = 0x20 then [rw 63 63 1, rw 51 48 4, rw 33 32 3, rw 31 16 0x10, ro 15 0]
    else if r = 0x40 || (fab && r = 0x60) then [wo 63, ro 53 48, ro 47 36, ro 35 24, ro 23 12, ro 11 0]
    else if r = 0x48 || (fab && r = 0x68) then [w1c 63, ro 59 58, ro 57 56, ro 47 0]
    else if r = 0x50 || (fab && r = 0x70) then [ro 63 0]
    else if r = 0x80 then [ro 63 0]
    else if r = 0x88 then [w1c 63, wo 62, ro 61 60, ro 59 58, ro 55 48, ro 47 32]
    else []

/-- Block 7 (R320, R332). -/
def fields7 (o : Nat) : List RegField :=
  if o = 0 then [wo 63, w1c 62, ro 61 61, rw 8 8 1, ro 3 0]
  else if (slotOf o 8 8 11).isSome then [rw 41 0]
  else if 0x1000 ≤ o && o < 0x1800 then
    match (o - 0x1000) % 0x100 with
    | 0 => [wo 63, rw 59 56 4, rw 55 48 0x10, rw 47 40, rw 39 24 0x40, rw 23 16 0x64, rw 0 0]
    | 8 => [ro 63 61, ro 56 48, ro 47 45, ro 44 44, ro 43 43, ro 39 32, ro 31 16, ro 15 0]
    | 0x10 => [w1c 63, ro 62 60, ro 59 59, ro 58 57, ro 47 0]
    | 0x18 => [ro 27 0]
    | _ => []
  else []

/-- Block 8 (R341, R342, R359, R360). -/
def fields8 (o : Nat) : List RegField :=
  if o = 0 then [w1s 63, w1c 62, rwl 21 20, rwl 17 16, rwl 13 8, rwl 5 0]
  else if 0x1000 ≤ o && o < 0x1800 && o % 8 = 0 then
    let last := decide ((o - 0x1000) / 0x20 = 63)
    let one := last.toNat
    let all := if last then 2 ^ 64 - 1 else 0
    match o % 0x20 / 8 with
    | 0 => [rwl 63 63 one, rwl 34 32, rwl 31 31 one, rwl 27 26, rwl 25 25 one, rwl 17 9, rwl 8 0]
    | 1 => [rwl 63 0 all]
    | 2 => [rwl 63 0 all]
    | _ => [wo 63, ro 31 0]
  else if 0x3000 ≤ o && o < 0x3200 && o % 8 = 0 then
    match o % 0x20 / 8 with
    | 0 => [ro 63 62, ro 61 61, ro 60 60, ro 59 54, ro 47 0]
    | 1 => [ro 47 0]
    | 2 => [ro 47 0]
    | _ => [ro 63 32, ro 4 0]
  else if 0x10000 ≤ o && o < 0x11800 && o % 8 = 0 then [ro 63 63, ro 62 61, ro 60 60, ro 58 56, ro 55 0]
  else if 0x12000 ≤ o && o < 0x12180 && o % 8 = 0 then
    match o % 0x20 / 8 with
    | 0 => [wo 63, ro 47 32, ro 31 16, ro 15 0]
    | 1 => [ro 63 48, ro 47 32, ro 31 0]
    | 2 => [w1c 63, ro 62 60, ro 47 0]
    | _ => [ro 63 0]
  else []

/-- Block 9 (R387): the read-only mirror of the identification block and the audit log. -/
def fields9 (o : Nat) : List RegField :=
  if (0x10000 ≤ o && o < 0x10400) || (0x20000 ≤ o && o < 0x28000) then [ro 63 0] else []

/-- Block 10 (R433, R439, R440). -/
def fields10 (o : Nat) : List RegField :=
  if (slotOf o 0 8 32).isSome then [rw 63 63, rw 62 62, rw 61 61, rw 24 0]
  else if 0x1000 ≤ o && o < 0x3000 then
    match (o - 0x1000) % 0x40 with
    | 0 => [wo 63, rw 55 53, rw 52 50, rw 49 49, rw 48 48, rw 47 44 8, rw 39 37 5, rw 33 32, rw 3 3 1,
        rw 2 0 (if o = 0x1000 then 5 else 0)]
    | 8 => [ro 63 61, ro 60 60, w1c 59, ro 58 58, ro 57 55, ro 47 40, ro 31 16, ro 15 0]
    | 0x10 => [ro 63 0]
    | 0x18 => [ro 63 0]
    | 0x20 => [wo 63, ro 47 32, ro 31 0]
    | _ => []
  else if o = 0x3000 then [ro 63 63, ro 62 62, ro 61 56, ro 47 32, ro 31 0]
  else if o = 0x3008 then [rw 63 48 0x64, rw 47 32 0x7D0, rw 31 16 0x1388, rw 15 0 0xA]
  else []

/-- Block 11 (R445, R451, R455, R467, R470). -/
def fields11 (o : Nat) : List RegField :=
  if o < 0x40000 then
    let q := o / 0x10000
    let r := o % 0x10000
    if r = 0 then [wo 63, rw 62 62 1, rw 61 59 5, rw 1 0]
    else if r = 8 then
      [ro 63 61, ro 60 58, ro 57 53, ro 52 49, ro 48 41, ro 40 32, ro 31 24, ro 23 12, ro 11 0]
    else if r = 0x10 then [rw 63 63, rw 28 0]
    else if (slotOf r 0x100 8 16).isSome then (if q = 0 then [] else xlateFields)
    else if 0x1000 ≤ r && r < 0x1100 then
      match r % 0x40 with
      | 0 => [rw 63 6]
      | 8 => [rw 63 63, wo 62, rw 3 0]
      | 0x10 => [rw 19 0]
      | 0x18 => [ro 63 61, w1c 60, ro 55 48, ro 19 0]
      | _ => []
    else []
  else if o < 0x42000 then
    let r := o % 0x100
    if r = 0 then [rw 63 63, rw 62 62, rw 61 61, rw 2 0 2]
    else if r = 8 then [ro 63 61, ro 60 60, ro 59 59, ro 58 56, ro 31 16, ro 15 0]
    else if r = 0x10 then [wo 63, ro 47 32, ro 31 16, ro 15 0]
    else if (slotOf r 0x40 8 16).isSome then [rw 63 63, rw 16 0]
    else []
  else if o = 0x50000 then [ro 63 62, ro 61 59, ro 47 32, ro 31 16, ro 15 0]
  else if o = 0x50008 then [ro 63 0]
  else if o = 0x50010 then [ro 23 16, ro 15 0]
  else []

/-- Block 12 (R485). -/
def fields12 (o : Nat) : List RegField :=
  if (slotOf o 0 8 10).isSome then [ro 63 63, ro 62 62, w1c 61, w1c 60, ro 47 32, ro 15 0]
  else if o = 0x10000 then [ro 63 0]
  else if o = 0x10008 then [ro 17 16, ro 15 0]
  else if o = 0x10010 then [rw 63 0]
  else if o = 0x10018 then [wo 63, rw 15 0]
  else if o = 0x10020 then [w1c 63, ro 47 32, rw 31 0]
  else if o = 0x10040 then [wo 63, wo 62, rw 17 0]
  else if o = 0x10048 then [w1c 63, ro 38 32, ro 15 0]
  else if o = 0x10050 then [ro 63 0]
  else if o = 0x10058 then [ro 63 63, ro 22 21, ro 20 20, ro 19 16, ro 15 0]
  else if 0x10100 ≤ o && o < 0x10220 then
    match o % 0x20 with
    | 0 => [rw 63 0]
    | 8 => [w1s 63, w1c 62, w1c 61, rw 60 59, rw 58 58 1, wo 57, rw 47 32 0x64, rw 15 0]
    | 0x10 => [ro 63 32, rw 31 0]
    | _ => []
  else []

/-- Number of sources of group `g` (R487). -/
def groupSources (g : Nat) : Nat := nth 0 [10, 4, 7, 7, 4, 6, 8, 8] g

/-- Reset reaction of source `id` (R487). -/
def resetReaction (id : Nat) : Nat :=
  if id = 0x605 then 3
  else if [0x202, 0x406, 0x603, 0x803, 0xA00, 0xA01].contains id then 1
  else if id % 512 < groupSources (id / 512) then 2
  else 0

/-- Block 13 (R500, R501, R505, R506). FLT_INJECT reads 0 and ignores writes on a shipped part (R502). -/
def fields13 (o : Nat) : List RegField :=
  if o < 0x200 then
    let g := o / 0x40
    match o % 0x40 with
    | 0 => if g = 7 then [wo 63, ro 62 62, ro 58 56, rwl 23 0 0xF4240]
        else [wo 63, rwl 62 62, rwl 58 56, rwl 23 0 0xF4240]
    | 8 => [w1c 63, ro 62 62, ro 61 60, ro 59 57, ro 47 32, ro 11 0]
    | 0x10 => [ro 63 0]
    | 0x18 => [ro 63 0]
    | 0x20 => [ro 63 0]
    | _ => []
  else if o = 0x400 then [w1s 63, ro 62 62, ro 61 61, ro 39 24, ro 23 16, ro 15 8, ro 7 0]
  else if o = 0x408 then [rwl 31 24 0x5F, ro 7 0]
  else if 0x1000 ≤ o && o < 0x1400 && o % 8 = 0 then
    let g := (o - 0x1000) / 0x80
    let k := (o - 0x1000) % 0x80 / 8
    ((List.range 32).filter fun j => 32 * k + j < groupSources g).map fun j =>
      let id := 512 * g + 32 * k + j
      if id = 0x605 then ro (2 * j + 1) (2 * j) 3 else rwl (2 * j + 1) (2 * j) (resetReaction id)
  else if (slotOf o 0x2000 8 8).isSome then
    match (o - 0x2000) / 8 with
    | 1 => [ro 49 49, ro 48 48, ro 47 44, ro 43 40, ro 39 32, ro 31 0]
    | 2 => [ro 23 0]
    | 7 => [ro 43 32, ro 15 0]
    | _ => [ro 63 0]
  else if o = 0x2040 then (List.range 8).map wo
  else if o = 0x3000 then [wo 63, ⟨11, 0, .wo, 0⟩]
  else []

/-- Units that have an ECC_CNT register (R508). -/
def hasEccCnt (u : Nat) : Bool := u < 12 || (16 ≤ u && u < 104)

/-- Units that have an ECC log (R508). -/
def hasEccLog (u : Nat) : Bool := u < 12 || (16 ≤ u && u < 80) || u = 127

/-- Block 14 (R43, R45, R508). -/
def fields14 (o : Nat) : List RegField :=
  if o < 0x10000 then
    if o % 8 = 0 && hasEccCnt (o / 8) then [wo 63, w1c 62, rw 47 32, ro 31 16, ro 15 0] else []
  else
    let u := (o - 0x10000) / 0x100
    if hasEccLog u && u < 128 then
      if o % 16 = 0 then [w1c 63, ro 62 61, ro 47 0]
      else if o % 16 = 8 then [ro 63 48, ro 14 0]
      else []
    else []

/-- Block 15 (R516). -/
def fields15 (o : Nat) : List RegField :=
  if o = 0 then [ro 63 63, ro 62 62, ro 47 32, ro 7 0]
  else if 0x100 ≤ o && o < 0x200 && o % 8 = 0 && o % 0x40 < 0x30 then [ro 63 0]
  else []

/-- The fields of the register at a BAR0 offset; none where no register lies (R4, R22). -/
def regFields (a : Nat) : List RegField :=
  let o := a % 2 ^ 20
  match a / 2 ^ 20 with
  | 0 => fields0 o
  | 1 => fields1 o
  | 2 => fields2 o
  | 3 => fields3 o
  | 4 => if o < 0xC0000 && o % 8 = 0 then [ro 63 0] else []
  | 5 => if o < 0xC0000 && o % 8 = 0 then [ro 63 0] else []
  | 6 => fields6 o
  | 7 => fields7 o
  | 8 => fields8 o
  | 9 => fields9 o
  | 10 => fields10 o
  | 11 => fields11 o
  | 12 => fields12 o
  | 13 => fields13 o
  | 14 => fields14 o
  | 15 => fields15 o
  | _ => []

/-- The reset value of the register at a BAR0 offset. -/
def regReset (a : Nat) : Word :=
  BitVec.ofNat 64 ((regFields a).foldl (fun v f => v + f.reset * 2 ^ f.lo) 0)

/-- The bits of a field. -/
def fieldMask (f : RegField) : Nat := (2 ^ (f.hi + 1 - f.lo) - 1) * 2 ^ f.lo

/-- What a write of `data` under `mask` does to one field of `old` (R1); `locked` is the lock field of an RWL field. -/
def writeField (locked : Bool) (mask data : Nat) (old : Nat) (f : RegField) : Nat :=
  let m := fieldMask f &&& mask
  let keep := old ^^^ (old &&& m)
  match f.acc with
  | .rw => keep ||| (data &&& m)
  | .rwl => if locked then old else keep ||| (data &&& m)
  | .w1c => old ^^^ (old &&& (m &&& data))
  | .w1s => old ||| (m &&& data)
  | .ro => old
  | .wo => old

/-- A write to a register: every field in turn. -/
def writeFields (locked : Bool) (fs : List RegField) (mask data old : Nat) : Nat :=
  fs.foldl (writeField locked mask data) old

end Sys2Proof.Machine
end

