-- ==== Sys2Proof/Machine/Topology.lean ====
section
/-! DEFINITION. Where things lie: sectors, routers, attachment points, edge blocks, pins, lanes, and the device address map
(R9 to R21, R418, R436, R457). -/

namespace Sys2Proof.Machine

/-- Router address (R13). -/
def rAddr (x y : Nat) : Nat := 32 * y + x

/-- Address of fabric router number `i` (R506: i = 16·(Y − 1) + X − 1). -/
def fabricAddr (i : Nat) : Nat := rAddr (i % 16 + 1) (i / 16 + 1)

/-- Number of the fabric router at an address. -/
def fabricIndex (a : Nat) : Nat := 16 * (a / 32 - 1) + (a % 32 - 1)

/-- Sector of the fabric router at an address (R10). -/
def sectorOfAddr (a : Nat) : Nat :=
  let x := a % 32
  let y := a / 32
  let q := x / 9 + 2 * (y / 5)
  16 * q + 4 * ((y - 1) % 4) + ((x - 1) % 8) / 2

/-- Which router of its sector: 0 west, 1 east (R10). -/
def sideOfAddr (a : Nat) : Nat := (a % 32 - 1) % 2

/-- Address of router `h` of sector `s` (R10). -/
def sectorRouter (s h : Nat) : Nat :=
  let q := s / 16
  let r := s / 4 % 4
  let c := s % 4
  rAddr (1 + 8 * (q % 2) + 2 * c + h) (1 + 4 * (q / 2) + r)

/-- Endpoint keys (4·address + port) of the four attachment points of sector `s`, ascending router and port (R15). -/
def sectorAtts (s : Nat) : List Nat :=
  [4 * sectorRouter s 0, 4 * sectorRouter s 0 + 1, 4 * sectorRouter s 1, 4 * sectorRouter s 1 + 1]

/-- Endpoint key of an attachment point. -/
def attKey (p : AttPoint) : Nat := 4 * fabricAddr p.router.val + p.port.val

/-- Number of an attachment point in the available-unit map (R506). -/
def attNumber (key : Nat) : Nat := 2 * fabricIndex (key / 4) + key % 4

/-- Addresses of the edge routers (R12). -/
def pcieAddr (q : Nat) : Nat := nth 0 [rAddr 0 2, rAddr 17 2, rAddr 0 7, rAddr 17 7] q
def ddrAddr (n : Nat) : Nat :=
  nth 0 [rAddr 2 0, rAddr 6 0, rAddr 11 0, rAddr 15 0, rAddr 2 9, rAddr 6 9, rAddr 11 9, rAddr 15 9] n
def sramAddr (n : Nat) : Nat := nth 0 [rAddr 4 0, rAddr 13 0, rAddr 4 9, rAddr 13 9] n
def bureauAddr : Nat := rAddr 0 4
def timebaseAddr : Nat := rAddr 17 4
def gatewayAddr : Nat := rAddr 0 5
def debugAddr : Nat := rAddr 17 5

/-- Address of an edge block's router. -/
def edgeAddr : EdgeBlock → Nat
  | .pcie q => pcieAddr q.val
  | .ddr n => ddrAddr n.val
  | .qdr n => sramAddr n.val
  | .bureau => bureauAddr
  | .timebase => timebaseAddr
  | .gateway => gatewayAddr
  | .debug => debugAddr

/-- Address of a router. -/
def routerAddr : Router → Nat
  | .fabric i => fabricAddr i.val
  | .edge e => edgeAddr e

/-- The addresses of the edge routers. -/
def edgeAddrs : List Nat :=
  (List.range 4).map pcieAddr ++ (List.range 8).map ddrAddr ++ (List.range 4).map sramAddr ++
    [bureauAddr, timebaseAddr, gatewayAddr, debugAddr]

/-- An address names a router (R13). -/
def isRouter (a : Nat) : Bool := isFabricAddr a || isEdgeAddr a

/-- The router in direction `d` (0 N, 1 E, 2 S, 3 W) of the router at `a`, where a link leads (R12). -/
def neighbour (a d : Nat) : Option Nat :=
  let x := a % 32
  let y := a / 32
  let b := if d = 0 then (if y = 0 then none else some (rAddr x (y - 1)))
    else if d = 1 then some (rAddr (x + 1) y)
    else if d = 2 then some (rAddr x (y + 1))
    else if x = 0 then none else some (rAddr (x - 1) y)
  match b with
  | none => none
  | some n => if isRouter n && (isFabricAddr a || isFabricAddr n) && isRouter a then some n else none

/-- The direction opposite to `d`. -/
def opposite (d : Nat) : Nat := (d + 2) % 4

/-- The quadrant of a sector. -/
def quadrantOf (s : Nat) : Nat := s / 16

/-- Sector in row `r` of the outer column of quadrant `q` (R11). -/
def outerColumn (q r : Nat) : Nat := 16 * q + 4 * r + (if q % 2 = 0 then 0 else 3)

/-- Sector in column `c` of the outer row of quadrant `q` (R11). -/
def outerRow (q c : Nat) : Nat := 16 * q + 4 * (if q < 2 then 0 else 3) + c

/-- Owner of cell `c` of high-performance bank `b` (R11). -/
def hpOwner (b c : Nat) : Nat :=
  if b % 2 = 0 then outerColumn (b / 2) (c / 12) else outerRow (b / 2) (c / 12)

/-- Sector whose fabric holds the raw interface of lane quad `j`, and the bridge of bundle `j` (R436, R458). -/
def quadSector (j : Nat) : Nat := outerColumn (j / 8) (j % 8 / 2)

/-- Endpoint of the bridge of bundle `b`: attachment point 1 of the west router (R458). -/
def bridgeKey (b : Nat) : Nat := 4 * sectorRouter (quadSector b) 0 + 1

/-- Lanes that controller Pq holds (R418, R442). -/
def pcieLanes (q : Nat) : List Nat := (List.range 16).map fun i => 32 * q + 16 + i

/-- Number of units of R508: sector `s`, quadrant attachments, and the others. -/
def uSector (s : Nat) : Nat := 16 + s
def uEngine (e : Nat) : Nat := 80 + e
def uPcie (q : Nat) : Nat := 92 + q
def uGateway : Nat := 96
def uLoader : Nat := 97
def uQuadrant (q : Nat) : Nat := 98 + q
def uBureau : Nat := 102
def uTimebase : Nat := 103

/-! ## Device addresses (R18) -/

/-- Spaces of the address map. -/
inductive Space where
  | ddr
  | sram
  | window
  | mgmt
  deriving DecidableEq, Repr

/-- The space of a device address. -/
def spaceOf (a : Nat) : Space :=
  match nbits a 47 46 with
  | 0 => .ddr
  | 1 => .sram
  | 2 => .window
  | _ => .mgmt

/-- Device address of byte `off` of SRAM die `n` with bits [45:42] zero (R18). -/
def sramBase (n : Nat) : Nat := 2 ^ 46 + n * 2 ^ 26

/-- Device address of BAR0 offset `o`: block in [45:32], offset in [31:0] (R18, R23). -/
def mgmtBase (o : Nat) : Nat := 3 * 2 ^ 46 + o / 2 ^ 20 * 2 ^ 32 + o % 2 ^ 20

/-- The BAR0 offset of an address in space 0b11; none where no register can lie (R18, R22). -/
def bar0Of (a : Nat) : Option Nat :=
  if nbits a 45 32 < 64 && nbits a 31 0 < 2 ^ 20 then some (nbits a 45 32 * 2 ^ 20 + nbits a 31 0) else none

/-- Device address of a window (R18). -/
def windowBase (r p : Nat) : Nat := 2 ^ 47 + r * 2 ^ 37 + p * 2 ^ 35

/-- A window address is valid for this router and port (R19). -/
def validWindow (r p : Nat) : Bool :=
  (isFabricAddr r && p < 2) ||
  (p = 0 && ((List.range 4).map pcieAddr ++ [timebaseAddr, gatewayAddr]).contains r)

end Sys2Proof.Machine
end

