-- ==== Sys2Proof/Machine/Ops.lean ====
section
/-! DEFINITION. Named operations over the device: registers, sectors, leaves, attachment points, free values, messages. -/

namespace Sys2Proof.Machine

/-! ## Registers -/

/-- The stored value of the register at BAR0 offset `a`. -/
def getR (s : Dev) (a : Nat) : Word := tGet regReset s.regs a

/-- Field [hi:lo] of a register. -/
def fldR (s : Dev) (a hi lo : Nat) : Nat := fld (getR s a) hi lo

/-- Bit [i] of a register. -/
def bitR (s : Dev) (a i : Nat) : Bool := bit (getR s a) i

/-- Replace a whole register. -/
def putR (s : Dev) (a : Nat) (v : Word) : Dev := { s with regs := tSet regReset s.regs a v }

/-- Set field [hi:lo]. -/
def setR (s : Dev) (a hi lo v : Nat) : Dev := putR s a (putFld (getR s a) hi lo v)

/-- Add `n` to field [hi:lo], saturating (R43 and the other counters). -/
def incR (s : Dev) (a hi lo n : Nat) : Dev := setR s a hi lo (satAdd (hi + 1 - lo) (fldR s a hi lo) n)

/-- Add `n` to field [hi:lo], wrapping. -/
def addR (s : Dev) (a hi lo n : Nat) : Dev := setR s a hi lo (fldR s a hi lo + n)

/-- Return registers to their reset values. -/
def resetR (s : Dev) (p : Nat → Bool) : Dev := { s with regs := tDrop p s.regs }

/-- Clear the count [hi:lo], leaving 1 where it increments in the same management clock cycle (R44). -/
def clrCount (s : Dev) (a hi lo : Nat) (inc : Bool) : Dev := setR s a hi lo inc.toNat

/-! ## Free values -/

/-- A fresh undefined bit (assumption 3). -/
def takeBit (s : Dev) : Bool × Dev := (Config.freeBit s.free, { s with free := s.free + 1 })

/-- A fresh undefined word (assumption 3). -/
def takeWord (s : Dev) : Word × Dev := (Config.freeWord s.free, { s with free := s.free + 1 })

/-! ## Sectors and leaves -/

def sectorDflt : Nat → Sector := fun _ => {}

/-- Sector `i` (64: the Cabinet fabric). -/
def getSec (s : Dev) (i : Nat) : Sector := tGet sectorDflt s.sectors i

/-- Apply `f` to sector `i`. -/
def updSec (s : Dev) (i : Nat) (f : Sector → Sector) : Dev := { s with sectors := tUpd sectorDflt s.sectors i f }

/-- Apply `f` to each sector of a list. -/
def updSecs (s : Dev) (l : List Nat) (f : Sector → Sector) : Dev := l.foldl (fun s i => updSec s i f) s

/-- The active-leaf select of a sector: 0 for Leaf A, 1 for Leaf B (R166). -/
def activeLeaf (s : Dev) (i : Nat) : Nat := tGet (fun _ => 0) s.cfg.active i

/-- The leaf that is not selected. -/
def otherLeaf (s : Dev) (i : Nat) : Nat := 1 - activeLeaf s i

def leafDflt : Nat → LeafDesc := fun _ => {}

/-- Descriptor of leaf `l` of sector `i` (R170). -/
def getLeaf (s : Dev) (i l : Nat) : LeafDesc := tGet leafDflt s.cfg.leaves (2 * i + l)

/-- Apply `f` to a descriptor. -/
def updLeaf (s : Dev) (i l : Nat) (f : LeafDesc → LeafDesc) : Dev :=
  { s with cfg := { s.cfg with leaves := tUpd leafDflt s.cfg.leaves (2 * i + l) f } }

/-- Descriptor of the active leaf. -/
def activeDesc (s : Dev) (i : Nat) : LeafDesc := getLeaf s i (activeLeaf s i)

def frameDflt : Nat → Frame := fun _ => {}

/-- Key of a frame. -/
def frameKey (i l f : Nat) : Nat := (2 * i + l) * 2048 + f

/-- Frame `f` of leaf `l` of sector `i`. -/
def getFrame (s : Dev) (i l f : Nat) : Frame := tGet frameDflt s.cfg.frames (frameKey i l f)

/-- Replace a frame. -/
def setFrame (s : Dev) (i l f : Nat) (v : Frame) : Dev :=
  { s with cfg := { s.cfg with frames := tSet frameDflt s.cfg.frames (frameKey i l f) v } }

/-- Every item that a leaf's frames configure now, in frame order. -/
def leafItems (s : Dev) (i l : Nat) : List Setting :=
  (s.cfg.frames.filter fun e => e.1 / 2048 == 2 * i + l).flatMap fun e => e.2.meaning

/-- Every item that the active leaf configures. -/
def items (s : Dev) (i : Nat) : List Setting := leafItems s i (activeLeaf s i)

/-- Number of frames of a leaf of sector `i` (R163, R367). -/
def framesOf (i : Nat) : Nat := if i = 64 then 512 else 1536

/-- Attachment fields of port `p` (0 and 1 of the west router, 2 and 3 of the east router) of a leaf's items (R272, R289). -/
def attCfgOf (l : List Setting) (p : Nat) : AttCfg :=
  (l.findSome? fun x => match x with
    | .attachment q g => if q.val = p then some g else none
    | _ => none).getD {}

/-- Fields of I/O cell `c` (48·bank + cell) in a leaf's items (R473). -/
def ioCfgOf (l : List Setting) (c : Nat) : IoCfg :=
  (l.findSome? fun x => match x with
    | .ioCell d g => if d.val = c then some g else none
    | _ => none).getD {}

/-- The leaf connects USER_OK (R216). -/
def userOkOf (l : List Setting) : Bool :=
  (l.findSome? fun x => match x with
    | .userOk e => some e
    | _ => none).getD false

/-! ## Regions (R220) -/

/-- The sector mask of region `n` in the base image. -/
def regionMask (s : Dev) (n : Nat) : Nat :=
  match s.cfg.base with
  | some b => nth 0 b.regions n
  | none => 0

/-- The sectors of region `n`. -/
def regionSectors (s : Dev) (n : Nat) : List Nat := bitsOf 64 (regionMask s n)

/-- The region that contains sector `i`. -/
def regionOf (s : Dev) (i : Nat) : Option Nat := (List.range 16).find? fun n => (regionMask s n).testBit i

/-- A set of sectors extended to whole regions (R491). -/
def extendRegions (s : Dev) (mask : Nat) : Nat :=
  (List.range 16).foldl (fun m n => let r := regionMask s n; if r &&& mask ≠ 0 then m ||| r else m) mask

/-- Owner sector of I/O cell `c` = 48·bank + cell (R11); none for an unassigned high-voltage cell. -/
def ioOwner (s : Dev) (c : Nat) : Option Nat :=
  let b := c / 48
  if b < 8 then some (hpOwner b (c % 48))
  else match s.cfg.base with
    | none => none
    | some base => let o := nth 255 base.hv (c - 384); if o < 64 then some o else none

/-- A word of the available-unit map changes (R506). -/
def bumpMap (s : Dev) : Dev := { s with units := { s.units with generation := (s.units.generation + 1) % 65536 } }

/-! ## Attachment points -/

/-- An endpoint before anything has changed it: the router side of a fabric attachment point is RESETTING (R212); an edge
block's is ACTIVE, since it belongs to no sector (R8), and its regulator holds its depth (R271). -/
def epDflt : Nat → Endpoint := fun k => if isEdgeAddr (k / 4) then { state := .active, tokens := 4 } else {}

/-- The endpoint of key `k`. -/
def getEp (s : Dev) (k : Nat) : Endpoint := tGet epDflt s.net.eps k

/-- Apply `f` to an endpoint. -/
def updEp (s : Dev) (k : Nat) (f : Endpoint → Endpoint) : Dev :=
  { s with net := { s.net with eps := tUpd epDflt s.net.eps k f } }

/-- Out of service by R504. -/
def attOut (s : Dev) (k : Nat) : Bool :=
  isFabricAddr (k / 4) && (s.units.atts.contains (attNumber k) || s.units.sectors.contains (sectorOfAddr (k / 4)))

/-- The state of an attachment point as the control hierarchy has set it; one out of service is OFF (R504). -/
def epState (s : Dev) (k : Nat) : AttState := if attOut s k then .off else (getEp s k).state

/-- Set the state of the attachment points of sector `i`. -/
def setAtts (s : Dev) (i : Nat) (st : AttState) : Dev :=
  (sectorAtts i).foldl (fun s k => updEp s k fun e => { e with state := st }) s

/-- The epoch increments and every outstanding transaction is forgotten, releasing credits and tags (R230, R303). -/
def bumpEpoch (e : Endpoint) : Endpoint :=
  { e with epoch := (e.epoch + 1) % 4, txns := [], splits := [], completions := [] }

/-- The sector-side queues are emptied (R236, R175). -/
def emptyQueues (e : Endpoint) : Endpoint :=
  { e with inq := [], outq := [], resp := [], reasm := [], accepted := [], presented := none, entering := [], requests := []
           sending := [], lag := [] }

/-- Both, for every attachment point of sector `i`. -/
def bumpSector (s : Dev) (i : Nat) : Dev := (sectorAtts i).foldl (fun s k => updEp s k bumpEpoch) s

/-- Empty the queues of every attachment point of sector `i`. -/
def emptySector (s : Dev) (i : Nat) : Dev := (sectorAtts i).foldl (fun s k => updEp s k emptyQueues) s

/-- The sector-side queues of a sector are empty (R234). -/
def sectorDrained (s : Dev) (i : Nat) : Bool :=
  (sectorAtts i).all fun k => let e := getEp s k; e.inq.isEmpty && e.resp.isEmpty && e.outq.isEmpty && e.entering.isEmpty

/-! ## Time and messages -/

/-- The device time in the 80-bit format (R480). -/
def time80 (s : Dev) : Nat := s.tb.time / 2 ^ 32 % 2 ^ 80

/-- The device time in nanoseconds. -/
def timeNs (s : Dev) : Nat := s.tb.time * 1000000000 / 2 ^ 64

/-- Send a value out of the block. -/
def emit (s : Dev) (o : Output) : Dev := { s with out := s.out ++ [o] }

/-- Controller `q`. -/
def pcieDflt : Nat → Pcie := fun _ => {}

def getPcie (s : Dev) (q : Nat) : Pcie := tGet pcieDflt s.links.pcie q

def updPcie (s : Dev) (q : Nat) (f : Pcie → Pcie) : Dev :=
  { s with links := { s.links with pcie := tUpd pcieDflt s.links.pcie q f } }

/-- P0 has a link on which messages can be sent (R517). -/
def hostLinkUp (s : Dev) : Bool := (getPcie s 0).up.contains 0

/-- Send vector `v`, or keep it pending while it is masked or P0 has no link (R517). -/
def sendVector (s : Dev) (v : Nat) : Dev :=
  if bitR s (rMsix v 1) 32 || !hostLinkUp s then
    putR s rPba (putBit (getR s rPba) v true)
  else emit s (.msix v (getR s (rMsix v 0)).toNat (fldR s (rMsix v 1) 31 0))

/-- Send every pending message that may be sent (R517). -/
def sendPending (s : Dev) : Dev :=
  (List.range 32).foldl (fun s v =>
    if bitR s rPba v && hostLinkUp s && !bitR s (rMsix v 1) 32 then
      emit (putR s rPba (putBit (getR s rPba) v false)) (.msix v (getR s (rMsix v 0)).toNat (fldR s (rMsix v 1) 31 0))
    else s) s

/-! ## Lanes -/

def laneDflt : Nat → Lane := fun _ => {}

/-- Lane `n`. -/
def getLane (s : Dev) (n : Nat) : Lane := tGet laneDflt s.links.lanes.lanes n

/-- Apply `f` to lane `n`. -/
def updLane (s : Dev) (n : Nat) (f : Lane → Lane) : Dev :=
  { s with links := { s.links with lanes := { s.links.lanes with lanes := tUpd laneDflt s.links.lanes.lanes n f } } }

/-- Lane 0 is in TIMING mode (R420, R439). -/
def laneTiming (s : Dev) : Bool := fldR s (rLaneCfg 0) 2 0 = 5

/-! ## Clocks that gate whole units -/

/-- State of PLL `p` (R488 numbering). PLL_STATUS, which reports holdover (R130), has no place in the register map: this is what it
would show (assumption 141). -/
def pllState (s : Dev) (p : Nat) : PllState := tGet (fun _ => PllState.off) s.clk.plls p

/-- Set the state of PLL `p`. -/
def setPll (s : Dev) (p : Nat) (st : PllState) : Dev :=
  { s with clk := { s.clk with plls := tSet (fun _ => PllState.off) s.clk.plls p st } }

/-- A PLL's outputs run: locked, or in holdover (R130). -/
def pllRuns (s : Dev) (p : Nat) : Bool := pllState s p = .locked || pllState s p = .holdover

/-- The network clock runs (R129). -/
def netRuns (s : Dev) : Bool := pllRuns s 2

/-- The main side is out of its power-on reset (R523). -/
def mainUp (s : Dev) : Bool := s.power.groupA && !s.power.por

end Sys2Proof.Machine
end

