-- ==== Sys2Proof/Machine/Faults.lean ====
section
/-! DEFINITION. Raising a fault (R486 to R492, R499), and counting and logging decode outcomes (R42 to R46). Levels that a
fault applies are put into `due`; `settle` (Resets.lean) carries them out at the end of the command. -/

namespace Sys2Proof.Machine

/-! ## Source ids (R487) -/

def fltPoisonConsumed : Nat := 0x000
def fltPoisonRefused : Nat := 0x001
def fltCeThreshold : Nat := 0x002
def fltDecoder : Nat := 0x003
def fltDdrUnsupported : Nat := 0x004
def fltDdrTrain : Nat := 0x005
def fltDdrFrozen : Nat := 0x006
def fltSramLink : Nat := 0x007
def fltIntegrityUnknown : Nat := 0x008
def fltRangeLost : Nat := 0x009
def fltLoadFailed : Nat := 0x200
def fltScrubDamaged : Nat := 0x201
def fltScrubUnavail : Nat := 0x202
def fltHealth : Nat := 0x203
def fltRefFailed : Nat := 0x400
def fltPllRef : Nat := 0x401
def fltPllUnlock : Nat := 0x402
def fltClkMissing : Nat := 0x403
def fltClkFreq : Nat := 0x404
def fltTimebase : Nat := 0x405
def fltTsStep : Nat := 0x406
def fltSectorPower : Nat := 0x600
def fltIoSupply : Nat := 0x601
def fltIoStandard : Nat := 0x602
def fltIoCal : Nat := 0x603
def fltTempHigh : Nat := 0x604
def fltTempCrit : Nat := 0x605
def fltRail : Nat := 0x606
def fltNocParity : Nat := 0x800
def fltNocMisdirect : Nat := 0x801
def fltNocCrossing : Nat := 0x802
def fltNocTimeout : Nat := 0x803
def fltLaneTable : Nat := 0xA00
def fltNoPartner : Nat := 0xA01
def fltLaneFailed : Nat := 0xA02
def fltLaneDown : Nat := 0xA03
def fltLaneSelfTest : Nat := 0xA04
def fltLanePll : Nat := 0xA05
def fltImageAuth : Nat := 0xC00
def fltRegionGate : Nat := 0xC01
def fltTpRefused : Nat := 0xC02
def fltKeyDenied : Nat := 0xC03
def fltIntegrity : Nat := 0xC04
def fltExhausted : Nat := 0xC05
def fltLinkAuth : Nat := 0xC06
def fltTestModePin : Nat := 0xC07
def fltCab (i : Nat) : Nat := 0xE00 + i

/-- A named source (R487). -/
def isSource (id : Nat) : Bool := id < 4096 && id % 512 < groupSources (id / 512)

/-! ## Groups -/

def groupDflt : Nat → FaultGroup := fun _ => {}

def getGroup (s : Dev) (g : Nat) : FaultGroup := tGet groupDflt s.groups g

def updGroup (s : Dev) (g : Nat) (f : FaultGroup → FaultGroup) : Dev :=
  { s with groups := tUpd groupDflt s.groups g f }

/-- The reaction of source `id` (R489, R501): group 7 treats 3 as 2; FLT_TEMP_CRIT is fixed at 3. -/
def reactionOf (s : Dev) (id : Nat) : Nat :=
  if id = fltTempCrit then 3
  else
    let g := id / 512
    let i := id % 512
    let r := fldR s (rReact g (i / 32)) (2 * (i % 32) + 1) (2 * (i % 32))
    if g = 7 && r = 3 then 2 else r

/-- The level of a group (R500): 5 to 7 are treated as 0. -/
def levelOf (s : Dev) (g : Nat) : Nat :=
  let l := fldR s (rFltCfg g) 58 56
  if l ≤ 4 then l else 0

/-- All sectors. -/
def allSectors : Nat := 2 ^ 64 - 1

/-- The sectors of quadrant `q`. -/
def quadSectors (q : Nat) : Nat := (2 ^ 16 - 1) * 2 ^ (16 * q)

/-- Bits of CRC-32C, reflected form of 0x1EDC6F41 (R184). -/
def crc32c (bytes : List Nat) : Nat :=
  (foldNat (fun c b => foldNat (fun c i => crcBitR 0x82F63B78 c (b.testBit i)) c (List.range 8)) 0xFFFFFFFF bytes)
    ^^^ 0xFFFFFFFF

/-- Bytes of 64-bit words, little-endian, as numbers. -/
def wordBytes (ws : List Word) : List Nat :=
  ws.flatMap fun w => (List.range 8).map fun i => fld w (8 * i + 7) (8 * i)

/-- Append a record to the persistent fault log, or count it as lost when the Bureau cannot write the store (R499). -/
def logFault (s : Dev) (kind id detail time : Nat) : Dev :=
  if mainUp s then
    let r := s.flog.next % 2 ^ 32
    let w0 := BitVec.ofNat 64 (r * 2 ^ 32 + kind * 2 ^ 12 + id)
    let w1 := BitVec.ofNat 64 detail
    let w2 := BitVec.ofNat 64 time
    let hi := time / 2 ^ 64 % 2 ^ 16
    let crc := crc32c ((wordBytes [w0, w1, w2]) ++ [hi % 256, hi / 256])
    let w3 := BitVec.ofNat 64 (crc * 2 ^ 32 + hi)
    { s with flog := { next := s.flog.next + 1, recs := tSet (fun _ => []) s.flog.recs (r % 2048) [w0, w1, w2, w3] } }
  else incR s rFltSummary 39 24 1

/-- Record a fault in its group (R490). -/
def latchFault (s : Dev) (id detail : Nat) : Dev :=
  let g := id / 512
  let rec0 := getGroup s g
  if rec0.valid then updGroup s g fun r => { r with count := satAdd 16 r.count 1, overflow := true }
  else
    let t := time80 s
    let s := updGroup s g fun r =>
      { r with valid := true, overflow := false, count := 1, source := id, detail := detail % 2 ^ 64, time := t % 2 ^ 64 }
    logFault s 0 id (detail % 2 ^ 64) t

/-- Send the group's vector unless a message was sent and word 0 has not been read since (R490). -/
def notifyGroup (s : Dev) (g : Nat) : Dev :=
  if (getGroup s g).sent then s
  else sendVector (updGroup s g fun r => { r with sent := true }) g

/-- Apply `level` of group `g` to a set of sectors: log it and put it into `due` (R492, R499). Level 0 applies nothing. -/
def applyLevel (s : Dev) (g level affected : Nat) : Dev :=
  let r := getGroup s g
  let s := if level = 0 then s else logFault s level r.source r.detail (time80 s)
  let s := updGroup s g fun r => { r with applied := level }
  if level = 0 then s else { s with due := s.due ++ [(g, level, affected)] }

/-- The level in force for a group that is ESCALATED: E3 where FLT_TEMP_CRIT escalated it, otherwise its level. -/
def levelInForce (s : Dev) (g : Nat) : Nat := if (getGroup s g).crit then 3 else levelOf s g

/-- A fault enters escalation (R492); FLT_TEMP_CRIT applies E3 at once (R498). -/
def escalate (s : Dev) (id scope : Nat) : Dev :=
  let g := id / 512
  let set := extendRegions s scope
  let r := getGroup s g
  if id = fltTempCrit then
    let all := if r.esc = .idle then set else r.affected ||| set
    applyLevel (updGroup s g fun r => { r with esc := .escalated, affected := all, crit := true }) g 3 all
  else
    match r.esc with
    | .idle => updGroup s g fun r => { r with esc := .timing, affected := set }
    | .timing => updGroup s g fun r => { r with affected := r.affected ||| set }
    | .escalated =>
      let s := updGroup s g fun r => { r with affected := r.affected ||| set }
      applyLevel s g (levelInForce s g) set

/-- Raise source `id` with its detail word and the sectors of its scope (R489 to R492). -/
def raise (s : Dev) (id detail scope : Nat) : Dev :=
  let rx := reactionOf s id
  if rx = 0 then s
  else
    let s := latchFault s id detail
    let s := if 2 ≤ rx then notifyGroup s (id / 512) else s
    if rx = 3 then escalate s id scope else s

/-- Raise with scope S (R487): one sector. -/
def raiseS (s : Dev) (id detail sector : Nat) : Dev := raise s id detail (2 ^ sector)

/-- Raise with scope U for a unit of die Qq or SRAM die Dq. -/
def raiseU (s : Dev) (id detail q : Nat) : Dev := raise s id detail (quadSectors q)

/-- Raise with scope D. -/
def raiseD (s : Dev) (id detail : Nat) : Dev := raise s id detail allSectors

/-- Raise a Cabinet fault: scope C (R396). -/
def raiseC (s : Dev) (i detail : Nat) : Dev := if mainUp s then raise s (fltCab i) detail 0 else s

/-! ## Counting and logging (R42 to R46) -/

/-- The sectors that FLT_MEM_CE_THRESHOLD of unit `u` names: its quadrant, or every sector (R487, R508). -/
def unitScope (u : Nat) : Nat :=
  if u < 8 then quadSectors (u / 2)
  else if u < 12 then quadSectors (u - 8)
  else if 16 ≤ u && u < 80 then quadSectors ((u - 16) / 16)
  else if 80 ≤ u && u < 88 then quadSectors ((u - 80) / 2)
  else if 88 ≤ u && u < 92 then quadSectors (u - 88)
  else if 92 ≤ u && u < 96 then quadSectors (u - 92)
  else if 98 ≤ u && u < 102 then quadSectors (u - 98)
  else allSectors

/-- Raise the threshold fault once until the next clr (R43). -/
def checkThreshold (s : Dev) (u : Nat) : Dev :=
  let thr := fldR s (rEccCnt u) 47 32
  let ce := fldR s (rEccCnt u) 15 0
  if thr ≠ 0 && thr ≤ ce && !s.thr.contains u then
    raise { s with thr := u :: s.thr } fltCeThreshold (u * 2 ^ 57 + ce) (unitScope u)
  else s

/-- Count one outcome in ECC_CNT_u (R43). -/
def eccCount (s : Dev) (u : Nat) (o : EccOutcome) : Dev :=
  match o with
  | .clean => s
  | .uncorrectable => incR s (rEccCnt u) 31 16 1
  | _ => checkThreshold (incR s (rEccCnt u) 15 0 1) u

def eccDflt : Nat → EccEntry := fun _ => {}

/-- The lowest-count entry of a corrected kind among the 16 of a log, lowest index first. -/
def lowestCorrected (t : Tbl EccEntry) (u : Nat) : Option Nat :=
  (List.range 16).foldl (fun best n =>
    let e := tGet eccDflt t (16 * u + n)
    if e.kind = 2 then best
    else match best with
      | none => some n
      | some b => if e.count < (tGet eccDflt t (16 * u + b)).count then some n else best) none

/-- Log one outcome in the log of unit `u` (R46); `cu` is the unit whose ECC_CNT holds log_ovf. -/
def eccLogPut (s : Dev) (u cu loc kind synd : Nat) : Dev :=
  let at' := fun n => tGet eccDflt s.eccLog (16 * u + n)
  let put := fun n (e : EccEntry) => { s with eccLog := tSet eccDflt s.eccLog (16 * u + n) e }
  match (List.range 16).find? fun n => (at' n).valid && (at' n).location = loc && (at' n).kind = kind with
  | some n => put n { (at' n) with count := satAdd 16 (at' n).count 1, syndrome := synd }
  | none =>
    let fresh : EccEntry := { valid := true, kind := kind, location := loc, count := 1, syndrome := synd }
    match (List.range 16).find? fun n => !(at' n).valid with
    | some n => put n fresh
    | none =>
      match if kind = 2 then lowestCorrected s.eccLog u else none with
      | some n => put n fresh
      | none => setR s (rEccCnt cu) 62 62 1

/-- Count and log the decoding of the stored word `w` in unit `u`, in its own log at `loc` (R42, R46). -/
def eccNote (s : Dev) (u loc : Nat) (w : PWord) : Dev :=
  let o := (decodeWord w).outcome
  if o = .clean then s
  else eccLogPut (eccCount s u o) u u loc o.kind (logSyndrome w)

/-- The same for a unit that logs in the transit log, with the source router (R42, R45). -/
def eccTransit (s : Dev) (u src : Nat) (w : PWord) : Dev :=
  let o := (decodeWord w).outcome
  if o = .clean then s
  else eccLogPut (eccCount s u o) 127 u (u * 2 ^ 40 + src) o.kind (logSyndrome w)

/-- Decode a word at a consumer that logs in the transit log: data, poison (R31, R37), counted. -/
def consume (s : Dev) (u src : Nat) (w : PWord) : (Word × Bool) × Dev :=
  let d := decodeWord w
  ((d.data, d.poison || d.outcome = .uncorrectable), eccTransit s u src w)

end Sys2Proof.Machine
end

