-- ==== Sys2Proof/Machine/Clocks.lean ====
section
/-! DEFINITION. Clock sources, judging, PLLs, switches, the timebase chain, monitors and clock lines (chapter 06). -/

namespace Sys2Proof.Machine

/-- Apply `f` to the clock state. -/
def updClk (s : Dev) (f : Clocks → Clocks) : Dev := { s with clk := f s.clk }

/-! ## Sources (R121 to R125) -/

/-- Tolerance of REF_CFG.tol in steps of 0.25 % (R138). -/
def tolSteps (s : Dev) : Nat :=
  let t := fldR s rRefCfg 39 32
  if t = 0 then 8 else min t 0x28

/-- Effective tolerance of a raw field (R138, R370). -/
def tolOf (t : Nat) : Nat := if t = 0 then 8 else min t 0x28

/-- Standard frequencies in kHz and their expected counts (R124). -/
def stdKhz : List Nat := [25000, 33333, 50000, 100000, 125000, 156250]
def stdCount : List Nat := [8192, 10923, 16384, 32768, 40960, 51200]

/-- A count lies within ±tol of an expected count `num / den`. -/
def within (tol count num den : Nat) : Bool :=
  let c := count * den
  let d := if num ≤ c then c - num else num - c
  decide (d * 400 ≤ num * tol)

/-- The class that a window's count matches: 6 for a given nominal frequency, an index of `stdKhz` otherwise (R124). -/
def matchClass (khz tol count : Nat) : Option Nat :=
  if 25000 ≤ khz && khz ≤ 156250 then
    if within tol count (khz * 32768) 100000 then some 6 else none
  else (List.range 6).find? fun i => within tol count (nth 0 stdCount i) 1

/-- One window of judging (R123, R124). -/
def judgeWindow (khz tol count : Nat) (j : Judge) : Judge :=
  match matchClass khz tol count with
  | some c =>
    let good := if j.good = 0 || j.last = c then j.good + 1 else 1
    if good = 8 then { j with state := .stable, good := 8, last := c }
    else
      let t := j.t + 1
      { state := if t ≥ 153 then .failed else .judging, good := good, t := t, last := c }
  | none =>
    let t := j.t + 1
    { state := if t ≥ 153 then .failed else .judging, good := 0, t := t, last := j.last }

/-- Judging starts. -/
def judgeStart : Judge := { state := .judging }

/-- Judge a TRIPPED or FAILED source again (R125). -/
def judgeAgain (j : Judge) : Judge := if j.state = .tripped || j.state = .failed then judgeStart else j

/-- The frequency in kHz that class `c` stands for. -/
def classKhz (khz c : Nat) : Nat := if c = 6 then khz else nth 0 stdKhz c

/-- Nominal frequency in kHz of a monitored clock (R140). -/
def monKhz (s : Dev) (n : Nat) : Nat :=
  match n with
  | 0 => 200000
  | 1 => s.clk.xoKhz
  | 3 => 156250
  | 9 => 1600000
  | 10 => 200000
  | _ => 100000

/-- The monitor number of the compare clock of monitor `n` (R140, R141). -/
def compareClock (s : Dev) (n : Nat) : Nat :=
  let c := fldR s (rClkMon n) 59 56
  if c ≤ 10 then c
  else match n with
    | 0 => 8
    | 3 => if s.clk.xo.state = .stable then 1 else 0
    | 9 => 8
    | 10 => if s.clk.mgmt.cur = 0 then 8 else 0
    | _ => 0

/-- The monitor of a source that becomes STABLE is enabled with limits E·(1 ± tol) scaled to the compare clock (R141). -/
def armMonitor (s : Dev) (n khz : Nat) : Dev :=
  let cmp := max 1 (monKhz s (compareClock s n))
  let tol := tolSteps s
  let num := khz * 65536
  let lo := (num * (400 - tol) + 400 * cmp - 1) / (400 * cmp)
  let hi := num * (400 + tol) / (400 * cmp)
  setR (setR (setR s (rClkMon n) 63 63 1) (rClkMon n) 47 24 (min hi (2 ^ 24 - 1))) (rClkMon n) 23 0 lo

/-! ## Switches (R133, R134) -/

/-- Request a switch: the source to go to, or a second request kept for after event 3. -/
def requestSwitch (new : Nat) (w : ClkSwitch) : ClkSwitch :=
  match w.target with
  | none => if w.cur = new then w else { w with target := some new, connected := false, forced := false }
  | some _ => { w with queued := some new }

/-- Event 1 and 2: the output is held low and the new source connected. -/
def connectSwitch (w : ClkSwitch) : ClkSwitch := if w.target.isSome then { w with connected := true } else w

/-- Event 1a: forced low, old source released; then event 2. -/
def forceSwitch (w : ClkSwitch) : ClkSwitch :=
  if w.target.isSome && !w.connected then { w with connected := true, forced := true } else w

/-- Event 3: the new source is in use; a queued request is acted on. -/
def completeSwitch (w : ClkSwitch) : ClkSwitch :=
  match w.target with
  | some t =>
    if w.connected then
      let w' : ClkSwitch := { cur := t }
      match w.queued with
      | some q => requestSwitch q w'
      | none => w'
    else w
  | none => w

/-- The source that the domain will use once every request is carried out. -/
def switchGoal (w : ClkSwitch) : Nat := w.queued.getD (w.target.getD w.cur)

/-! ## The timebase chain (R135) -/

/-- The effective start target. -/
def startTarget (raw : Nat) : Nat := if raw = 3 then 0 else raw

def tbTarget (s : Dev) : Nat := startTarget (fldR s rTbClkCtrl 17 16)

/-- The timing stream is good: lane 0 ACTIVE in timing stream mode and its monitor clear. -/
def streamGood (s : Dev) : Bool :=
  laneTiming s && (getLane s 0).stage = .active && !bitR s (rClkMon 3) 62 && !bitR s (rClkMon 3) 61

/-- A source of the timebase chain is good: 0 stream, 1 crystal, 2 internal. -/
def tbGood (s : Dev) (src : Nat) : Bool :=
  match src with
  | 0 => streamGood s
  | 1 => s.clk.xo.state = .stable
  | _ => true

/-- The timebase domain may step to a source: it is good, and in reduced service it lies above the crystal only while the XO is
STABLE (R127). -/
def tbMay (s : Dev) (src : Nat) : Bool := tbGood s src && !(src = 0 && s.clk.reduced && s.clk.xo.state ≠ .stable)

/-- Request that the timebase domain moves to a source. -/
def tbMove (s : Dev) (src : Nat) : Dev := updClk s fun c => { c with tb := requestSwitch src c.tb }

/-- The highest good source at or below the target. -/
def bestSource (good : Nat → Bool) (target : Nat) : Nat :=
  ((List.range 3).find? fun i => target ≤ i && good i).getD 2

/-- Until the domain first reaches its start target it climbs at once (R135). -/
def tbClimb (s : Dev) : Dev :=
  if s.clk.reachedTarget then s
  else if tbTarget s = s.clk.tb.cur && s.clk.tb.target.isNone then updClk s fun c => { c with reachedTarget := true }
  else
    let b := bestSource (tbMay s) (tbTarget s)
    if b < switchGoal s.clk.tb then tbMove s b else s

/-- The current source of the timebase domain fails: fall to the crystal when it is good, else to the internal oscillator;
count the fall, and raise FLT_TIMEBASE_DEGRADED at a fall to the internal oscillator (R135, R137). -/
def tbFall (s : Dev) : Dev :=
  let cur := s.clk.tb.cur
  if cur = 2 then s
  else
    let next := if cur = 0 && tbGood s 1 then 1 else 2
    let s := incR (tbMove s next) rTbClkStatus 47 32 1
    if next = 2 then
      raiseD s fltTimebase (cur * 2 ^ 62 + next * 2 ^ 60 + fldR s rTbClkStatus 47 32 * 2 ^ 32)
    else s

/-- A source of the chain has stopped being good: fall when it is the one in use and no switch runs; during a switch the
trip is handled at its end (R134). -/
def tbSourceLost (s : Dev) (src : Nat) : Dev :=
  if s.clk.tb.cur = src && s.clk.tb.target.isNone then tbFall s else s

/-! ## PLLs (R129, R130) -/

/-- The sectors that a fault of PLL `p` names (R487). -/
def pllScope (p : Nat) : Nat :=
  if p < 3 then allSectors
  else if p < 19 then quadSectors ((p - 3) / 4)
  else if p < 27 then quadSectors ((p - 19) / 2)
  else if p < 31 then quadSectors (p - 27)
  else quadSectors ((p - 31) / 8)

/-- The entry of fabric PLL `p` (3 to 18) in the base image. -/
def fabricPll (s : Dev) (p : Nat) : PllEntry :=
  match s.cfg.base with
  | some b => nth {} b.plls (p - 3)
  | none => {}

/-- A lane quad's PLL takes PCIE_REFCLK (R419, R439). -/
def quadUsesRefclk (s : Dev) (j : Nat) : Bool := decide (4 ≤ j % 8) && bitR s (rQuadCfg j) 61

/-- The PLLs whose reference is monitored clock `n` (R129). -/
def pllsOn (s : Dev) (n : Nat) : List Nat :=
  if n = 1 then (if s.clk.pll1Src = 0 then [1] else [])
  else if n = 2 then (if s.clk.pll1Src = 1 then [1] else [])
  else if 4 ≤ n && n ≤ 7 then
    ((List.range 32).filter fun j => j / 8 = n - 4 && quadUsesRefclk s j).map (31 + ·)
  else if n = 8 then
    [0, 2] ++ ((List.range 16).filter fun i => !(fabricPll s (3 + i)).ref).map (3 + ·) ++
      (List.range 12).map (19 + ·) ++ ((List.range 32).filter fun j => !quadUsesRefclk s j).map (31 + ·)
  else []

/-- A locked PLL enters holdover, raising FLT_PLL_REF_LOST (R130). -/
def pllHoldover (s : Dev) (p : Nat) : Dev :=
  if pllState s p = .locked then raise (setPll s p .holdover) fltPllRef (p * 2 ^ 56) (pllScope p) else s

/-- A PLL loses lock for another cause: its outputs stop and FLT_PLL_UNLOCK is raised (R130). The PLLs that follow the
device reference lose it when management PLL 1 stops. -/
def pllLossOfLock (s : Dev) (p : Nat) : Dev :=
  if pllRuns s p then
    let s := raise (setPll s p .unlocked) fltPllUnlock (p * 2 ^ 56) (pllScope p)
    if p = 1 then (pllsOn s 8).foldl pllHoldover s else s
  else s

/-- Start PLL `p` where it is off. Reduced service starts none (R127). -/
def pllStart (s : Dev) (p : Nat) : Dev := if pllState s p = .off && !s.clk.reduced then setPll s p .locking else s

/-- Restart PLL `p` on its reference. Reduced service starts none (R127). -/
def pllRestart (s : Dev) (p : Nat) : Dev := setPll s p (if s.clk.reduced then .off else .locking)

/-- The PLLs that start once the device reference runs and groups B and C are in range: network, DDR5, SRAM, and the lane
quads for the self-test of R438. -/
def startDevicePlls (s : Dev) : Dev :=
  if pllRuns s 1 && s.power.groupBC then
    ([2] ++ (List.range 12).map (19 + ·)).foldl pllStart s
  else s

/-- Whether PLL `p` has a running reference. -/
def pllHasRef (s : Dev) (p : Nat) : Bool :=
  if p = 1 then (if s.clk.pll1Src = 0 then s.clk.xo.state = .stable else s.clk.chref.state = .stable)
  else pllRuns s 1 || (31 ≤ p && quadUsesRefclk s (p - 31)) || (3 ≤ p && p < 19 && (fabricPll s p).ref)

/-! ## Judging (R123 to R127) -/

/-- Whether a judged source of the main side is selected: 0 XO, 1 CHREF. -/
def isSelected (s : Dev) (src : Nat) : Bool := s.clk.pll1Src = src

/-- The selected source becomes FAILED: reduced service (R127). PLLs that run, in holdover where the source tripped, run on
(assumption 45). -/
def enterReduced (s : Dev) (src windows count : Nat) : Dev :=
  if isSelected s src then
    raiseD (updClk s fun c => { c with reduced := true }) fltRefFailed
      (src * 2 ^ 63 + windows * 2 ^ 32 + count % 2 ^ 24)
  else s

/-- A judging window of the XO or CHREF ends (R123). -/
def judgeMain (s : Dev) (src count : Nat) : Dev :=
  let j := if src = 0 then s.clk.xo else s.clk.chref
  if j.state ≠ .judging then s
  else
    let khz := if src = 0 then fldR s rRefCfg 23 0 else 100000
    let j' := judgeWindow khz (tolSteps s) count j
    let s := updClk s fun c => if src = 0 then { c with xo := j' } else { c with chref := j' }
    match j'.state with
    | .stable =>
      let k := classKhz khz j'.last
      let s := if src = 0 then updClk s fun c => { c with xoKhz := k } else s
      let s := armMonitor s (src + 1) k
      if src = 0 then tbClimb s else s
    | .failed => enterReduced s src j'.t count
    | _ => s

/-- Every TRIPPED or FAILED source is judged again (R125). -/
def rejudgeAll (s : Dev) : Dev :=
  updClk s fun c => { c with
    xo := judgeAgain c.xo, chref := judgeAgain c.chref
    xoKhz := if c.xo.state = .tripped || c.xo.state = .failed then 0 else c.xoKhz }

/-- Management PLLs 1 and 0 lock to the selected source, and the management clock is switched to PLL 0 (R126). -/
def managementLocked (s : Dev) : Dev :=
  let j := if s.clk.pll1Src = 0 then s.clk.xo else s.clk.chref
  if j.state = .stable && !s.clk.reduced && switchGoal s.clk.mgmt = 0 then
    let s := setPll (setPll s 1 .locked) 0 .locked
    startDevicePlls (updClk s fun c => { c with mgmt := requestSwitch 1 c.mgmt })
  else s

/-- ref_sel is acted on, at event 6 of a warm reset and at the start of RECONFIGURE (R126, R127); `again` judges TRIPPED
and FAILED sources again first. -/
def actRefSel (s : Dev) : Dev :=
  let sel := fldR s rRefCfg 40 40
  let s := rejudgeAll s
  let j := if sel = 0 then s.clk.xo else s.clk.chref
  let s := updClk s fun c => { c with reduced := false }
  if sel = s.clk.pll1Src && j.state = .stable && pllRuns s 1 then s
  else
    let s := setPll (setPll s 1 .off) 0 .off
    updClk s fun c => { c with pll1Src := sel, mgmt := requestSwitch 0 c.mgmt }

/-! ## Monitors (R140, R141) -/

/-- The users of a monitored clock act on its trip (R125, R130, R135). -/
def tripUsers (s : Dev) (n : Nat) : Dev :=
  let s := match n with
    | 1 => updClk s fun c => { c with xo := if c.xo.state = .stable then { c.xo with state := .tripped } else c.xo }
    | 2 => updClk s fun c =>
        { c with chref := if c.chref.state = .stable then { c.chref with state := .tripped } else c.chref }
    | _ => s
  let s := (pllsOn s n).foldl pllHoldover s
  match n with
  | 1 => tbSourceLost s 1
  | 3 => tbSourceLost s 0
  | _ => s

/-- The missing-edge detector of monitor `n` trips. -/
def missingEdge (s : Dev) (n : Nat) : Dev :=
  if bitR s (rClkMon n) 63 then
    tripUsers (raiseD (setR s (rClkMon n) 62 62 1) fltClkMissing (n * 2 ^ 60)) n
  else s

/-- A frequency window of monitor `n` ends with `count`. -/
def frequencyWindow (s : Dev) (n count : Nat) : Dev :=
  let c := count % 2 ^ 24
  if bitR s (rClkMon n) 63 then
    let s := setR s (rClkMonLast n) 23 0 c
    if bitR s (rClkMon n) 60 && (c < fldR s (rClkMon n) 23 0 || fldR s (rClkMon n) 47 24 < c) then
      tripUsers (raiseD (setR s (rClkMon n) 61 61 1) fltClkFreq (n * 2 ^ 60 + c)) n
    else s
  else s

/-! ## Go requests (R136) -/

/-- A go request for a source of the timebase chain: a switch, or go_refused. A stream that reduced service keeps out of reach
(R127) is refused as one that is not good (DEDUCED, assumption 45). -/
def tbGo (s : Dev) (src : Nat) : Dev :=
  if tbMay s src then tbMove s src else setR s rTbClkStatus 4 4 1

/-- Event 3 of a switch of the timebase domain: a source that tripped during the switch is left again (R134). -/
def tbComplete (s : Dev) : Dev :=
  let s := updClk s fun c => { c with tb := completeSwitch c.tb }
  let s := if s.clk.tb.cur = tbTarget s then updClk s fun c => { c with reachedTarget := true } else s
  if s.clk.tb.target.isNone && !tbGood s s.clk.tb.cur then tbFall s else tbClimb s

/-- With return_mode 1, a higher source at or below start_target has been good for return_hold seconds (R135). -/
def tbReturn (s : Dev) (src : Nat) : Dev :=
  if bitR s rTbClkCtrl 8 && tbTarget s ≤ src && src < switchGoal s.clk.tb && tbMay s src then tbMove s src else s

/-! ## Clock lines (R71, R72, R131, R132) -/

def glineDflt : Nat → GlobalLine := fun _ => {}

/-- Global line `n` of quadrant `q`. -/
def getLine (s : Dev) (q n : Nat) : GlobalLine := tGet glineDflt s.clk.glines (32 * q + n)

/-- Apply `f` to a global line. -/
def updLine (s : Dev) (q n : Nat) (f : GlobalLine → GlobalLine) : Dev :=
  updClk s fun c => { c with glines := tUpd glineDflt c.glines (32 * q + n) f }

/-- A source of quadrant `q` gives edges (R131). Clock-capable inputs follow their pins. -/
def sourceRuns (s : Dev) (q sel : Nat) : Bool :=
  if sel < 24 then pllRuns s (3 + 4 * q + sel / 6)
  else if sel < 32 then true
  else if sel < 40 then
    let n := 32 * q + 4 * (sel - 32)
    if n = 0 && laneTiming s then false
    else
      let st := (getLane s n).stage
      st = .lock || st = .exchange || st = .active
  else if sel = 40 then pllRuns s 1
  else false

/-- GCLK_GATE_q.gate. -/
def gclkGate (s : Dev) (q : Nat) : Nat := tGet (fun _ => 0) s.clk.gates q

/-- A global line gives edges: not gated, no switch holds it low, its source runs. -/
def lineRuns (s : Dev) (q n : Nat) : Bool :=
  let l := getLine s q n
  !(gclkGate s q).testBit n && !l.sw.connected && sourceRuns s q (if l.sw.cur = 0 then l.selA else l.selB)

/-- The global line that a regional line takes (R72). -/
def regionalOf (l : List Setting) (n : Nat) : Nat :=
  (l.findSome? fun x => match x with
    | .regional r g => if r.val = n then some g.val else none
    | _ => none).getD 0

/-- The gate enable of regional line `n`: routing enable, or a wake latch of a Hinge that names it (R158). -/
def regionalEnable (sec : Sector) (l : List Setting) (n : Nat) : Bool :=
  tGet (fun _ => false) sec.lineEn n ||
  l.any fun x => match x with
    | .hinge h g => g.kind = .wake && g.wakeLine.toNat = n && (tGet (fun _ => {}) sec.hinges h.val : Hinge).latch
    | _ => false

/-- The Cabinet's fabric clocks run: reset released, an image active, outside a quiet window (R367, R383). -/
def cabClocks (s : Dev) : Bool := s.cab.powered && s.cab.rstN && s.cab.active.isSome && !s.cab.quiet

/-- A clock input with select `sel` sees edges in sector `i` (R71, R72, R132). -/
def clkRuns (s : Dev) (i : Nat) (sel : ClkSel) : Bool :=
  let n := sel.sel.toNat
  if 40 ≤ n then false
  else if i = 64 then cabClocks s
  else
    let sec := getSec s i
    let q := quadrantOf i
    sec.clocks && !sec.quiet &&
      (if n < 32 then lineRuns s q n
       else
        let l := items s i
        regionalEnable sec l (n - 32) && lineRuns s q (regionalOf l (n - 32)))

end Sys2Proof.Machine
end

