-- ==== Sys2Proof/Machine/CabClocks.lean ====
section
/-! DEFINITION. What the clocks and the time of the Cabinet are (R364 to R366, R391), with the tiles as other parts see them. -/

namespace Sys2Proof.Machine

/-- Apply `f` to the Cabinet. -/
def updCab (s : Dev) (f : Cabinet → Cabinet) : Dev := { s with cab := f s.cab }

/-- The Cabinet is powered and out of reset. -/
def cabUp (s : Dev) : Bool := s.cab.powered && s.cab.rstN

/-! ## Tiles as other parts see them -/

def tileDflt : Nat → Tile := fun _ => {}

def getTile (s : Dev) (t : Nat) : Tile := tGet tileDflt s.cab.tiles t

def updTile (s : Dev) (t : Nat) (f : Tile → Tile) : Dev := updCab s fun c => { c with tiles := tUpd tileDflt c.tiles t f }

/-- The tiles in service (R393, R394); none while the Cabinet is unpowered or in reset (R506). -/
def tileMask (s : Dev) : Nat := if cabUp s then maskOf ((List.range 24).filter fun t => !(getTile s t).out) else 0

/-- The tile field of the available-unit map follows a change (R506). -/
def tilesChanged (before : Nat) (s : Dev) : Dev := if tileMask s = before then s else bumpMap s

/-! ## The active image -/

/-- What the active sealed image declares; without an image every field is 0 (R413). -/
def activeDecl (s : Dev) : CabDecl :=
  match s.cab.active with
  | some l => (nth {} s.cab.leaves l).decl
  | none => { scrubMs := 20 }

/-! ## Clocks (R364, R365, R391) -/

/-- A source of the Cabinet chain is good: 0 stream, 1 crystal, 2 internal. -/
def cabGood (s : Dev) (src : Nat) : Bool :=
  match src with
  | 0 => streamGood s && mainUp s
  | 1 => s.cab.cxo.state = .stable
  | _ => true

/-- The Cabinet PLL is in holdover during a switch of its reference, the domain clock; it tracks again from event 3 on (R366, R133). Its
outputs run on. -/
def cabPllHoldover (s : Dev) : Bool := s.cab.sw.target.isSome

/-- Request that the Cabinet domain moves to a source. -/
def cabMove (s : Dev) (src : Nat) : Dev := updCab s fun c => { c with sw := requestSwitch src c.sw }

def cabTarget (s : Dev) : Nat := startTarget (activeDecl s).startTarget

/-- Until the domain first reaches its start target it climbs at once (R135, R386). -/
def cabClimb (s : Dev) : Dev :=
  if s.cab.reachedTarget || s.cab.active.isNone then s
  else if cabTarget s = s.cab.sw.cur && s.cab.sw.target.isNone then updCab s fun c => { c with reachedTarget := true }
  else
    let b := bestSource (cabGood s) (cabTarget s)
    if b < switchGoal s.cab.sw then cabMove s b else s

/-- The current source of the Cabinet domain fails (R135, R365). -/
def cabFall (s : Dev) : Dev :=
  let cur := s.cab.sw.cur
  if cur = 2 then s
  else
    let next := if cur = 0 && cabGood s 1 then 1 else 2
    let s := cabMove s next
    if next = 2 then raiseC s 0 (cur * 2 ^ 62 + next * 2 ^ 60) else s

/-- A source of the Cabinet chain has stopped being good. -/
def cabSourceLost (s : Dev) (src : Nat) : Dev :=
  if s.cab.sw.cur = src && s.cab.sw.target.isNone then cabFall s else s

/-- A judging window of the CXO ends. -/
def judgeCxo (count : Nat) (s : Dev) : Dev :=
  if s.cab.cxo.state ≠ .judging || !cabUp s then s
  else
    let d := activeDecl s
    let j := judgeWindow d.cxoKhz (if s.cab.active.isSome then tolOf d.cxoTol else 8) count s.cab.cxo
    cabClimb (updCab s fun c => { c with cxo := j })

/-- The missing-edge detector of the CXO (11) or of the Cabinet's stream clock (12) trips. A trip of the stream clock that the
domain is switching to is kept, and handled at the end of the switch (R134). -/
def cabMissingEdge (n : Nat) (s : Dev) : Dev :=
  if n = 11 then
    if s.cab.cxo.state = .stable then cabSourceLost (updCab s fun c => { c with cxo := { c.cxo with state := .tripped } }) 1 else s
  else if s.cab.sw.target = some 0 then updCab s fun c => { c with swTrip := true }
  else cabSourceLost s 0

/-- The Cabinet fabric's clock request primitive asks for a source (R365). -/
def cabClockRequest (src : Nat) (s : Dev) : Dev := if cabClocks s && cabGood s src then cabMove s src else s

/-- A higher source has been good for return_hold seconds (R135). -/
def cabReturn (src : Nat) (s : Dev) : Dev :=
  if (activeDecl s).returnMode = 1 && cabTarget s ≤ src && decide (src < switchGoal s.cab.sw) && cabGood s src && s.cab.active.isSome then
    cabMove s src
  else s

/-- Event 3 of a switch of the Cabinet domain. When the domain first enters full precision, every tile in service is to be
calibrated again from the next slot on (R407). -/
def cabSwitchDone (s : Dev) : Dev :=
  let trip := s.cab.swTrip && s.cab.sw.target = some 0 && s.cab.sw.connected
  let s := updCab s fun c => { c with sw := completeSwitch c.sw, swTrip := c.swTrip && !trip }
  let s := if s.cab.sw.cur = cabTarget s && s.cab.active.isSome then updCab s fun c => { c with reachedTarget := true } else s
  let s := if s.cab.sw.cur ≠ 2 && !s.cab.everFull then
      (List.range 24).foldl (fun s t => if (getTile s t).out then s else updTile s t fun x => { x with cal := .waiting })
        (updCab s fun c => { c with everFull := true })
    else s
  if s.cab.sw.target.isNone && (trip || !cabGood s s.cab.sw.cur) then cabFall s else cabClimb s

/-- The Cabinet time is moved: the slot counter is reloaded and every tile's interval ends (R403). -/
def moveTime (t : Nat) (mode : TimeMode) (s : Dev) : Dev :=
  updCab s fun c => { c with
    time := t % 2 ^ 80, timeRem := 0, mode, slot := (t % 2 ^ 80 * 5000000 / 2 ^ 32 + 1) % 5000000
    tiles := (c.tiles.map fun e => (e.1, { e.2 with wrapDue := e.2.wrapDue || e.2.sampled })) }

/-- The Cabinet's stream instance leaves LOCKED (R391). -/
def cabStreamLeft (s : Dev) : Dev := if s.cab.mode = .stream then updCab s fun c => { c with mode := .free } else s

/-- It is LOCKED with a time (R391). -/
def cabStreamLocked (t : Nat) (s : Dev) : Dev := if s.cab.time = t then updCab s fun c => { c with mode := .stream } else moveTime t .stream s

end Sys2Proof.Machine
end

