-- ==== Sys2Proof/Machine/Parcels.lean ====
section
/-! DEFINITION. Parcels and attachment points (R257 to R266, R271, R285, R300, R304): header fields and parity, payload words,
regulator and credit fields, and the drop records of a router side. -/

namespace Sys2Proof.Machine

/-- The header fields of a parcel (R261). -/
structure Hdr where
  epoch : Nat := 0
  last : Bool := true
  key : Nat := 0
  seq : Nat := 0
  op : Nat := 0
  tag : Nat := 0
  age : Nat := 0
  prio : Nat := 0
  bulk : Bool := true
  srcPort : Nat := 0
  src : Nat := 0
  dstPort : Nat := 0
  dst : Nat := 0
  deriving DecidableEq, Repr

/-- The 64 header bits (R261). -/
def Hdr.bits (h : Hdr) : BitVec 64 :=
  BitVec.ofNat 64 (h.dst % 2 ^ 9 + h.dstPort % 4 * 2 ^ 9 + h.src % 2 ^ 9 * 2 ^ 11 + h.srcPort % 4 * 2 ^ 20 +
    h.bulk.toNat * 2 ^ 22 + h.prio % 4 * 2 ^ 23 + h.age % 256 * 2 ^ 25 + h.tag % 4096 * 2 ^ 33 + h.op % 16 * 2 ^ 45 +
    h.seq % 64 * 2 ^ 49 + h.key % 64 * 2 ^ 55 + h.last.toNat * 2 ^ 61 + h.epoch % 4 * 2 ^ 62)

/-- The fields of a header. -/
def hdrOf (w : BitVec 64) : Hdr :=
  { epoch := fld w 63 62, last := bit w 61, key := fld w 60 55, seq := fld w 54 49, op := fld w 48 45, tag := fld w 44 33,
    age := fld w 32 25, prio := fld w 24 23, bulk := bit w 22, srcPort := fld w 21 20, src := fld w 19 11,
    dstPort := fld w 10 9, dst := fld w 8 0 }

/-- Odd parity over each header byte (R262). -/
def hdrParity (w : BitVec 64) : BitVec 8 :=
  BitVec.ofNat 8 (maskOf ((List.range 8).filter fun k => !parity 8 (fld w (8 * k + 7) (8 * k))))

/-- A parcel with good parity. -/
def mkParcel (h : Hdr) (pay : List PWord) : Parcel := { hdr := h.bits, par := hdrParity h.bits, pay }

/-- The header fields of a parcel. -/
def pHdr (p : Parcel) : Hdr := hdrOf p.hdr

/-- Payload word `w` as carried. -/
def pWord (p : Parcel) (w : Nat) : PWord := nth 0 p.pay w

/-- A clean word (R29). -/
def clean (d : Nat) : PWord := encodeWord (BitVec.ofNat 64 d) false

/-- Four clean zero words. -/
def zeroPayload : List PWord := List.replicate 4 (clean 0)

/-! ## Opcodes (R283) -/

def opcodeOf : ReqOp → Nat
  | .rd => 0
  | .wr => 1
  | .wrp => 2
  | .fadd => 3
  | .swap => 4
  | .cas => 5

/-- The request of an opcode. -/
def reqOf : Nat → Option ReqOp
  | 0 => some .rd
  | 1 => some .wr
  | 2 => some .wrp
  | 3 => some .fadd
  | 4 => some .swap
  | 5 => some .cas
  | _ => none

def isRequest (op : Nat) : Bool := op < 6
def isResponse (op : Nat) : Bool := 8 ≤ op && op ≤ 10

/-- A reserved opcode (R283). -/
def isReserved (op : Nat) : Bool := op = 6 || 11 ≤ op

/-- WR, WRP. -/
def isWrite (op : ReqOp) : Bool := op = .wr || op = .wrp

/-- FADD, SWAP, CAS. -/
def isAtomic (op : ReqOp) : Bool := op = .fadd || op = .swap || op = .cas

/-! ## Response codes (R287) -/

def rspOk : Nat := 0x00
def rspUnmapped : Nat := 0x01
def rspDenied : Nat := 0x02
def rspFenced : Nat := 0x03
def rspDomainOff : Nat := 0x04
def rspTimeout : Nat := 0x05
def rspOversize : Nat := 0x06
def rspBadRequest : Nat := 0x07
def rspReqPoisoned : Nat := 0x08
def rspNotInit : Nat := 0x09
def rspChannelReset : Nat := 0x0A
def rspChannelFrozen : Nat := 0x0B
def rspCounterExhausted : Nat := 0x0C
def rspBusError : Nat := 0x0D
def rspIntegrityUnknown : Nat := 0x0E
def rspPoisonRefused : Nat := 0x0F

/-- The request fields of a request parcel (R265), decoded, and whether word 0 or 1 is poisoned (R266). -/
structure ReqFields where
  addr : Nat
  len : Nat
  first : Nat
  last : Nat
  raHint : Bool
  raStream : Nat
  poisoned : Bool
  deriving DecidableEq, Repr

def reqFields (p : Parcel) : ReqFields :=
  let d0 := decodeWord (pWord p 0)
  let d1 := decodeWord (pWord p 1)
  { addr := fld d0.data 47 0, len := fld d0.data 53 48, first := fld d1.data 31 0, last := fld d1.data 63 32,
    raHint := bit d0.data 56, raStream := fld d0.data 59 57,
    poisoned := d0.poison || d1.poison || d0.outcome = .uncorrectable || d1.outcome = .uncorrectable }

/-- The enabled bytes of data parcel `k` of a transaction of length `n`, as 32 mask bits (R265). -/
def parcelMask (n first last k : Nat) : Nat :=
  let f := if k = 0 then first else 2 ^ 32 - 1
  let l := if k = n then last else 2 ^ 32 - 1
  f &&& l

/-- The byte addresses that a request enables, first and one past the last; a request that enables none counts as the single
byte at its address (R543). -/
def reqRange (addr len first last : Nat) : Nat × Nat :=
  let base := addr / 32 * 32
  let lo := bitsOf 32 (parcelMask len first last 0)
  let hi := bitsOf 32 (parcelMask len first last len)
  if len = 0 then
    match lo with
    | [] => (addr, addr + 1)
    | b :: _ => (base + b, base + (lo.getLastD b) + 1)
  else (base + lo.headD 32, base + 32 * len + (match hi.getLast? with | some b => b + 1 | none => 0))

/-- A request that enables no byte (R543). -/
def enablesNone (len first last : Nat) : Bool := len = 0 && parcelMask 0 first last 0 = 0

/-! ## Frame fields of an attachment (R272, R289) -/

/-- The attachment fields of the active leaf for endpoint key `k`. -/
def attFields (s : Dev) (k : Nat) : AttCfg :=
  let a := k / 4
  attCfgOf (items s (sectorOfAddr a)) (2 * sideOfAddr a + k % 4)

/-- Credit groups (R289). -/
inductive CreditGroup where
  | ddr
  | sram
  | fab
  | pcie
  | misc
  deriving DecidableEq, Repr

/-- The group of a destination router. -/
def groupOfRouter (r : Nat) : CreditGroup :=
  if isFabricAddr r then .fab
  else if ((List.range 8).map ddrAddr).contains r then .ddr
  else if ((List.range 4).map sramAddr).contains r then .sram
  else if ((List.range 4).map pcieAddr).contains r then .pcie
  else .misc

/-- The credits of a group at a fabric attachment (R289). -/
def creditsOf (g : AttCfg) (grp : CreditGroup) : Nat :=
  let l := [g.crDdr.toNat, g.crSram.toNat, g.crFab.toNat, g.crPcie.toNat, g.crMisc.toNat]
  let sum := l.foldl (· + ·) 0
  let l := if 24 < sum || sum = 0 then [8, 8, 4, 2, 2] else l
  match grp with
  | .ddr => nth 0 l 0
  | .sram => nth 0 l 1
  | .fab => nth 0 l 2
  | .pcie => nth 0 l 3
  | .misc => nth 0 l 4

/-- Regulator of an injection point: enabled, depth, highest priority, period (R271, R272, R281). -/
structure Regulator where
  en : Bool
  depth : Nat
  maxPrio : Nat
  deriving DecidableEq, Repr

def regulator (s : Dev) (k : Nat) : Regulator :=
  if isEdgeAddr (k / 4) then
    let r := getR s (rEdgeReg (k / 4))
    { en := bit r 63, depth := max 1 (fld r 51 48), maxPrio := fld r 33 32 }
  else
    let g := attFields s k
    { en := g.c0En, depth := max 1 g.c0Depth.toNat, maxPrio := g.c0MaxPrio.toNat }

/-- The regulators of sector `i` hold their depth (R271). -/
def fillTokens (s : Dev) (i : Nat) : Dev :=
  (sectorAtts i).foldl (fun s k => let d := (regulator s k).depth; updEp s k fun e => { e with tokens := d }) s

/-- NOC_ATT_DROP.reasm takes the reasm field of the active leaf (R304). -/
def loadReasm (s : Dev) (i : Nat) : Dev :=
  (sectorAtts i).foldl (fun s k => setR s (rDrop (k / 4) (k % 4)) 53 48 (attFields s k).reasm.toNat) s

/-! ## Drops (R304) -/

def stateCode : AttState → Nat
  | .active => 0
  | .fenced => 1
  | .resetting => 2
  | .off => 3

/-- Kinds of a drop record. -/
def dropPosted : Nat := 0
def dropOwed : Nat := 1
def dropStale : Nat := 2

/-- Count a drop at endpoint `k`, and keep the first. -/
def countDrop (s : Dev) (k kind : Nat) (p : Parcel) : Dev :=
  let a := k / 4
  let r := rDrop a (k % 4)
  let s := incR s r (12 * kind + 11) (12 * kind) 1
  if bitR s (r + 8) 63 then s
  else
    let addr := if kind = dropPosted then fld (pWord p 0) 47 0 else 0
    putR (putR s (r + 8) (BitVec.ofNat 64 (2 ^ 63 + stateCode (epState s k) * 2 ^ 58 + kind * 2 ^ 56 + addr))) (r + 16) p.hdr

/-- A parcel still queued is dropped and counted as a posted write or an owed response (R178, R234). -/
def dropQueued (k : Nat) (s : Dev) (p : Parcel) : Dev :=
  if (pHdr p).op = 2 then countDrop s k dropPosted p
  else if isResponse (pHdr p).op then countDrop s k dropOwed p
  else s

/-- The sector-side queues of sector `i` are emptied, dropping what they hold (R178, R234, R236). -/
def dropSector (s : Dev) (i : Nat) : Dev :=
  (sectorAtts i).foldl (fun s k =>
    let e := getEp s k
    updEp ((e.inq ++ e.resp ++ e.outq).foldl (dropQueued k) s) k emptyQueues) s

end Sys2Proof.Machine
end

