-- ==== Sys2Proof/Machine/Routers.lean ====
section
/-! DEFINITION. Routers (R253 to R282, R299, R301): arrivals, arbitration, ejection, injection, die crossings, tokens. -/

namespace Sys2Proof.Machine

/-! ## Links -/

def linkDflt : Nat → List Parcel := fun _ => []

/-- Parcels on the way to input `d` of the router at `a`, next to arrive first. -/
def getLink (s : Dev) (a d : Nat) : List Parcel := tGet linkDflt s.net.links (4 * a + d)

def updLink (s : Dev) (a d : Nat) (f : List Parcel → List Parcel) : Dev :=
  { s with net := { s.net with links := tUpd linkDflt s.net.links (4 * a + d) f } }

/-- What the current network edge has taken at a router: outputs in bits 0 to 3, ejection slots in bits 4 and 5. -/
def getTaken (s : Dev) (a : Nat) : Nat := tGet (fun _ => 0) s.net.taken a

def setTaken (s : Dev) (a v : Nat) : Dev := { s with net := { s.net with taken := tSet (fun _ => 0) s.net.taken a v } }

/-- Output `d` is a link that this edge has not taken. -/
def outFree (s : Dev) (a d : Nat) : Bool := (neighbour a d).isSome && !(getTaken s a).testBit d

/-- The first free output in the order N, E, S, W. -/
def firstFree (s : Dev) (a : Nat) : Option Nat := (List.range 4).find? (outFree s a)

/-- Productive outputs of a parcel for `dst` at `a` (R268), the one on the axis with more distance left first, X on a tie. A hop
into an edge router that is not the destination is unproductive (R273; DEDUCED, assumption 26). -/
def productive (a dst : Nat) : List Nat :=
  let x := a % 32
  let y := a / 32
  let u := dst % 32
  let v := dst / 32
  let ex := if x < u then [1] else if u < x then [3] else []
  let ey := if y < v then [2] else if v < y then [0] else []
  let dx := if x < u then u - x else x - u
  let dy := if y < v then v - y else y - v
  (if dx < dy then ey ++ ex else ex ++ ey).filter fun d => (neighbour a d).any fun n => isFabricAddr n || n = dst

/-- A parcel with age one more (R264), its parity regenerated (R263). -/
def agedParcel (p : Parcel) : Parcel :=
  let h := pHdr p
  let w := ({ h with age := min (h.age + 1) 255 } : Hdr).bits
  { p with hdr := w, par := hdrParity w }

/-- Place a parcel on output `d`: it ages, and reaches the next router's input. -/
def place (s : Dev) (a d : Nat) (p : Parcel) : Dev :=
  match neighbour a d with
  | none => s
  | some n =>
    let s := setTaken s a (getTaken s a ||| 2 ^ d)
    let s := if (pHdr p).age = 254 then incR s (rRtrCnt a) 47 32 1 else s
    updLink s n (opposite d) fun l => l ++ [agedParcel p]

/-! ## Rank (R267) -/

/-- The keys of a rank, in order; of two parcels the one with the lexicographically smaller list wins. -/
def rankKeys (h : Hdr) (d : Nat) : List Nat :=
  let sat := h.bulk && h.age = 255
  [if !h.bulk then 0 else if sat then 1 else 2, if h.bulk then 0 else 3 - h.prio, if sat then 0 else 255 - h.age,
    h.src, h.srcPort, h.tag, h.seq, d]

/-- Lexicographic order. -/
def lexLt : List Nat → List Nat → Bool
  | [], _ => false
  | _ :: _, [] => false
  | a :: as, b :: bs => a < b || (a = b && lexLt as bs)

/-- Insert an arrival by rank, highest first. -/
def insertRank (e : Nat × Parcel) : List (Nat × Parcel) → List (Nat × Parcel)
  | [] => [e]
  | f :: fs => if lexLt (rankKeys (pHdr e.2) e.1) (rankKeys (pHdr f.2) f.1) then e :: f :: fs else f :: insertRank e fs

/-! ## Fault port (R299, R300) -/

/-- The cause for which a router sends an arrival to its fault port: 0 parity, 1 no such router, 2 no such port, 3 reserved
opcode at its destination. -/
def faultCause (a : Nat) (p : Parcel) : Option Nat :=
  let h := pHdr p
  if p.par ≠ hdrParity p.hdr then some 0
  else if !isRouter h.dst then some 1
  else if h.dst = a && (if isFabricAddr a then 2 ≤ h.dstPort else h.dstPort ≠ 0) then some 2
  else if h.dst = a && isReserved h.op then some 3
  else none

/-- Record a parcel sent to the fault port. -/
def toFaultPort (a d cause : Nat) (p : Parcel) (s : Dev) : Dev :=
  let s := incR s (rNocFault a + 8) 47 32 1
  let s := if bitR s (rNocFault a + 8) 63 then s
    else
      let s := putR s (rNocFault a) p.hdr
      let s := setR (setR s (rNocFault a + 8) 63 63 1) (rNocFault a + 8) 61 60 cause
      setR (setR s (rNocFault a + 8) 59 58 d) (rNocFault a + 8) 55 48 p.par.toNat
  let h := pHdr p
  raiseD s (if cause = 0 then fltNocParity else fltNocMisdirect)
    (a * 2 ^ 55 + cause * 2 ^ 53 + d * 2 ^ 51 + h.src * 2 ^ 9 + h.dst)

/-! ## The edge at an attachment point -/

/-- The state under which a router handles parcels at an attachment point: the one sampled at this network edge (R17). -/
def routerState (s : Dev) (k : Nat) : AttState := (tGet (fun _ => none) s.net.sampled k).getD (epState s k)

/-- The attachment points of a fabric router; the one endpoint of an edge router. -/
def routerEps (a : Nat) : List Nat := if isEdgeAddr a then [4 * a] else [4 * a, 4 * a + 1]

/-- A network edge begins: the router samples its attachment points. -/
def sampleAtts (a : Nat) (s : Dev) : Dev :=
  (routerEps a).foldl (fun s k => { s with net := { s.net with sampled := tSet (fun _ => none) s.net.sampled k (some (epState s k)) } }) s

/-- A parcel has left an inbound queue: its write side counts it until the read pointer has come across (R278). -/
def addLag (l : List Nat) : List Nat := (nth 0 l 0 + 1) :: (l.drop 1)

/-- The count of the inbound queue on its write side: never below the true count (R115). -/
def writeCount (e : Endpoint) : Nat := e.inq.length + e.lag.foldl (· + ·) 0

/-- A network edge moves the read pointer on: it is seen 4 edges after it was read, or 5 where its first stage resolves late, which is
an open value (R115, S = 2). -/
def shiftLag (k : Nat) (s : Dev) : Dev :=
  let l := (getEp s k).lag
  let fresh := nth 0 l 0
  if l.all (· = 0) then (if l.isEmpty then s else updEp s k fun e => { e with lag := [] })
  else
    let (late, s) := if fresh = 0 then (false, s) else takeBit s
    updEp s k fun e => { e with lag :=
      [0, if late then fresh else 0, nth 0 l 1 + (if late then 0 else fresh), nth 0 l 2, nth 0 l 3] }

/-- A network edge ends: outputs and ejection slots are free again, and the samples are spent. -/
def endEdge (a : Nat) (s : Dev) : Dev :=
  (routerEps a).foldl (fun s k => shiftLag k { s with net := { s.net with sampled := tSet (fun _ => none) s.net.sampled k none } })
    (setTaken s a 0)

/-! ## Ejection -/

/-- Response parcels that an endpoint is owed and that are not in its inbound queue (R290). -/
def reserved (e : Endpoint) : Nat :=
  e.txns.foldl (fun n t => if t.injected && !t.quarantined then n + (t.need - t.got.length) else n) 0

/-- Parcels of an inbound queue (R277), or of an edge block's ejection buffer (R256). -/
def bufferSize (k : Nat) : Nat :=
  if isFabricAddr (k / 4) then 32
  else if ((List.range 8).map ddrAddr ++ (List.range 4).map sramAddr ++ (List.range 4).map pcieAddr).contains (k / 4) then 128
  else 16

/-- Unreserved room for requests and WDATA: in an inbound queue, by the count of its write side (R278, R290); in the ejection
buffer of an edge block (R256). -/
def hasRoom (s : Dev) (k : Nat) : Bool :=
  let e := getEp s k
  decide (writeCount e + reserved e < bufferSize k)

/-- The answer of a router side to a request (R286, R301). -/
def rspErr (a port code addr : Nat) (h : Hdr) (bulk : Bool) (prio : Nat) : Parcel :=
  mkParcel { epoch := h.epoch, last := true, key := code, op := 10, tag := h.tag, bulk, prio, src := a, srcPort := port,
             dst := h.src, dstPort := h.srcPort } [clean addr, clean 0, clean 0, clean 0]

/-- A parcel is ejected towards endpoint `k`, handled under the state sampled at this edge (R17, R229, R301). -/
def ejectTo (s : Dev) (k : Nat) (p : Parcel) : Dev :=
  let h := pHdr p
  let st := routerState s k
  let a := k / 4
  let s := if fldR s (rRtrCnt a) 55 48 < h.age then setR s (rRtrCnt a) 55 48 h.age else s
  if isResponse h.op then
    if st = .active || st = .fenced then updEp s k fun e => { e with resp := e.resp ++ [p] }
    else countDrop s k dropOwed p
  else if st = .active then updEp s k fun e => { e with inq := e.inq ++ [p] }
  else if h.op = 7 then s
  else if h.op = 2 then countDrop s k dropPosted p
  else
    let code := if st = .off then rspDomainOff else rspFenced
    let ans := rspErr a (k % 4) code (reqFields p).addr h true 0
    updEp s k fun e => { e with answers := e.answers ++ [ans] }

/-- A parcel can be ejected into the slot of its port: the slot is free, and an ACTIVE attachment has room for a parcel that is
no response. -/
def canEject (s : Dev) (a : Nat) (p : Parcel) : Bool :=
  let h := pHdr p
  let k := 4 * a + h.dstPort
  !(getTaken s a).testBit (4 + h.dstPort) && (isResponse h.op || routerState s k ≠ .active || hasRoom s k)

/-- Take the slot and eject. -/
def eject (s : Dev) (a : Nat) (p : Parcel) : Dev :=
  let port := (pHdr p).dstPort
  ejectTo (setTaken s a (getTaken s a ||| 2 ^ (4 + port))) (4 * a + port) p

/-! ## Arrivals (R268) -/

/-- One ranked arrival at a fabric router. -/
def routeArrival (a : Nat) (s : Dev) (p : Parcel) : Dev :=
  let h := pHdr p
  let deflect := fun s => match firstFree s a with
    | some d => place (incR s (rRtrCnt a) 31 0 1) a d p
    | none => s
  if h.dst = a then
    if canEject s a p then eject s a p
    else
      let full := !(getTaken s a).testBit (4 + h.dstPort)
      deflect (if full then incR s (rAttCnt a h.dstPort) 31 16 1 else s)
  else match (productive a h.dst).find? (outFree s a) with
    | some d => place s a d p
    | none => deflect s

/-- The arrivals of a network edge: the heads of the router's input links, taken off them. -/
def takeArrivals (s : Dev) (a : Nat) : List (Nat × Parcel) × Dev :=
  (List.range 4).foldl (fun (r : List (Nat × Parcel) × Dev) d =>
    match getLink r.2 a d with
    | p :: _ => (r.1 ++ [(d, p)], updLink r.2 a d List.tail)
    | [] => r) ([], s)

/-- Faulty arrivals go to the fault port; the others are answered. -/
def siftFaults (a : Nat) : List (Nat × Parcel) → Dev → List (Nat × Parcel) × Dev
  | [], s => ([], s)
  | (d, p) :: es, s =>
    match faultCause a p with
    | some c => siftFaults a es (toFaultPort a d c p s)
    | none =>
      let r := siftFaults a es s
      ((d, p) :: r.1, r.2)

/-- An edge router takes its arrival (R255, R256): it ejects it, or returns it on its link. -/
def edgeArrival (a : Nat) (s : Dev) (d : Nat) (p : Parcel) : Dev :=
  let h := pHdr p
  if h.dst = a && (isResponse h.op || hasRoom s (4 * a)) then ejectTo s (4 * a) p
  else place (if h.dst = a then incR s (rRtrCnt a) 31 0 1 else s) a d p

/-- A network edge at a router: its arrivals (R268). -/
def parcelArrival (a : Nat) (s : Dev) : Dev :=
  if !netRuns s then s
  else
    let r := takeArrivals (sampleAtts a (setTaken s a 0)) a
    let f := siftFaults a r.1 r.2
    if isFabricAddr a then
      ((f.1.foldl (fun l e => insertRank e l) []).map (·.2)).foldl (routeArrival a) f.2
    else f.1.foldl (fun s e => edgeArrival a s e.1 e.2) f.2

/-! ## Injection (R268 to R271) -/

/-- The head that an endpoint offers: an answer of the router side, else the outbound queue's. -/
def headOf (e : Endpoint) : Option Parcel :=
  match e.answers with
  | p :: _ => some p
  | [] => e.outq.head?

/-- Remove the head. -/
def popHead (e : Endpoint) : Endpoint :=
  match e.answers with
  | _ :: ps => { e with answers := ps }
  | [] => { e with outq := e.outq.tail }

/-- A completion for a transaction, gathered into its split where it belongs to one (R291). -/
def completeTxn (code : Nat) (data : List (List PWord)) (t : Txn) (e : Endpoint) : Endpoint :=
  match t.split with
  | none => { e with completions := e.completions ++ [{ user := t.user, tag := t.tag, code, data, id := t.id }] }
  | some id =>
    let order := fun (sp : Split) => (t.addr - sp.req.addr.toNat / 32 * 32) / (32 * max sp.step 1)
    let splits := e.splits.map fun sp => if sp.id = id then { sp with done := sp.done ++ [(order sp, code, data)] } else sp
    match splits.find? fun sp => sp.id = id && sp.done.length = sp.total with
    | none => { e with splits }
    | some sp =>
      let sorted := (List.range sp.total).filterMap fun n => sp.done.find? fun x => x.1 = n
      let bad := sorted.find? fun x => x.2.1 ≠ 0
      { e with
        splits := splits.filter fun x => x.id ≠ id
        completions := e.completions ++ [match bad with
          | some x => { user := t.user, tag := t.tag, code := x.2.1, data := [], id := t.id }
          | none => { user := t.user, tag := t.tag, code := 0, data := sorted.flatMap (·.2.2), id := t.id }] }

/-- A transaction ends with a code; its tag is free again. -/
def endTxn (code : Nat) (data : List (List PWord)) (t : Txn) (e : Endpoint) : Endpoint :=
  completeTxn code data t { e with txns := e.txns.filter fun x => x.tag ≠ t.tag || x.quarantined }

/-! ## Tags and credits (R288, R289, R292) -/

/-- A free tag from `start` on, among `base` to `base + span − 1` (R288): one that no transaction holds, nor a write whose data is
still to be sent. -/
def freeTag (e : Endpoint) (start base span : Nat) : Option Nat :=
  ((List.range span).map fun i => base + (start + i) % span).find? fun t =>
    !(e.txns.any fun x => x.tag = t) && !(e.sending.any fun x => x.2 = t)

/-- The tag that a request takes: the next free one, or the next of its agent's, whose number is in bits [11:9] (R339). -/
def tagFor (e : Endpoint) (agent : Option Nat) : Option Nat :=
  match agent with
  | none => freeTag e e.nextTag 0 4096
  | some a => freeTag e (e.nextTag % 512) (512 * a) 512

/-- Transactions that hold a tag. -/
def outstanding (e : Endpoint) : Nat := (e.txns.filter fun t => !t.quarantined).length

/-- Credits of a group in use (R289): taken at the injection of a request. -/
def creditsUsed (e : Endpoint) (g : CreditGroup) : Nat :=
  e.txns.foldl (fun n t => if !t.quarantined && groupOfRouter t.dstR = g then n + (t.need - t.shown) else n) 0

/-- The tag credits of an attachment allow a non-posted transaction whose response needs `m` parcels (R279, R288, R289); an edge
requester's credits are its own receive buffer (R292). -/
def creditsAllow (s : Dev) (k dstR m : Nat) : Bool :=
  let e := getEp s k
  if isFabricAddr (k / 4) then
    let g := groupOfRouter dstR
    outstanding e < 64 && decide (creditsUsed e g + m ≤ creditsOf (attFields s k) g)
  else decide (reserved e + m ≤ bufferSize k)

/-- A queued request may be injected: a tag is free, and its credits are. -/
def mayInject (s : Dev) (k : Nat) (q : Queued) : Bool :=
  (tagFor (getEp s k) q.agent).isSome && (q.op = .wrp || creditsAllow s k q.dstR q.need)

/-- A queued request as a transaction with a tag. -/
def Queued.txn (q : Queued) (tag epoch : Nat) : Txn :=
  { tag, op := q.op, addr := q.addr, len := q.len, dstR := q.dstR, dstP := q.dstP, epoch, need := q.need, injected := true
    split := q.split, user := q.user, id := q.id }

/-- A head as it is injected: a request with the tag that it takes and the epoch of its attachment, a data parcel with those of its
request (R285). -/
def stampHead (e : Endpoint) (p : Parcel) : Parcel :=
  let h := pHdr p
  let stamp := fun t => let w := ({ h with tag := t, epoch := e.epoch } : Hdr).bits; { p with hdr := w, par := hdrParity w }
  if isRequest h.op then
    match e.requests with
    | q :: _ => stamp ((tagFor e q.agent).getD h.tag)
    | [] => p
  else if h.op = 7 then stamp (alGet h.tag e.sending h.tag)
  else p

/-- The first queued request leaves the queue with a tag: its transaction holds the tag and its credits, unless it is posted. -/
def injectRequest (e : Endpoint) : Endpoint :=
  match e.requests with
  | [] => e
  | q :: qs =>
    let t := (tagFor e q.agent).getD 0
    { e with
      requests := qs
      nextTag := (t + 1) % 4096
      sending := if isWrite q.op then (q.id % 4096, t) :: e.sending.filter (fun x => x.1 ≠ q.id % 4096) else e.sending
      txns := if q.op = .wrp then e.txns else e.txns ++ [q.txn t e.epoch] }

/-- A request head of a FENCED attachment (R229): completed with FENCED, or counted as a dropped posted write; nothing is
injected, and its WDATA parcels go with it. -/
def refuseHead (s : Dev) (k : Nat) (p : Parcel) : Dev :=
  let h := pHdr p
  let s := if h.op = 2 then countDrop s k dropPosted p else s
  updEp s k fun e =>
    let e := popHead e
    let data := fun q => (pHdr q).op = 7 && (pHdr q).tag = h.tag
    let e := { e with outq := e.outq.dropWhile data, entering := e.entering.dropWhile data }
    match e.requests with
    | [] => e
    | q :: qs =>
      let e := { e with requests := qs }
      if q.op = .wrp then e else completeTxn rspFenced [] (q.txn e.nextTag e.epoch) e

/-- What the regulator makes of a head (R271): the parcel as sent, whether it takes a token, whether it is demoted. -/
def regulate (r : Regulator) (tokens : Nat) (p : Parcel) : Parcel × Bool × Bool :=
  let h := pHdr p
  if h.bulk then (p, false, false)
  else if r.en && 0 < tokens then
    let w := ({ h with prio := min h.prio r.maxPrio } : Hdr).bits
    ({ p with hdr := w, par := hdrParity w }, true, false)
  else
    let w := ({ h with bulk := true, prio := 0, age := 0 } : Hdr).bits
    ({ p with hdr := w, par := hdrParity w }, false, true)

/-- The register that counts demotions. -/
def demotionReg (k : Nat) : Nat := if isEdgeAddr (k / 4) then rEdgeReg (k / 4) else rAttCnt (k / 4) (k % 4)

/-- The head `p` has been placed or ejected: it leaves its queue, the regulator pays or counts, and a request takes its tag and its
credits; its timer starts. -/
def sentHead (s : Dev) (k : Nat) (p : Parcel) (paid demoted : Bool) : Dev :=
  let h := pHdr p
  let s := updEp s k fun e =>
    let own := !e.answers.isEmpty
    let e := popHead e
    let e := if paid then { e with tokens := e.tokens - 1 } else e
    if own then e
    else if isRequest h.op then injectRequest e
    else if h.op = 7 && h.last then { e with sending := e.sending.filter fun x => x.1 ≠ h.tag }
    else e
  if demoted then incR s (demotionReg k) 15 0 1 else s

/-- Offer the head of endpoint `k` of the router at `a`. -/
def offerHead (a : Nat) (s : Dev) (k : Nat) : Dev :=
  let e := getEp s k
  match headOf e with
  | none => s
  | some p0 =>
    let fromAnswers := !e.answers.isEmpty
    let st := routerState s k
    if !fromAnswers && isFabricAddr a && st ≠ .active && (isRequest (pHdr p0).op || st ≠ .fenced) then
      if st = .fenced then refuseHead s k p0 else s
    else if !fromAnswers && isRequest (pHdr p0).op && !(e.requests.head?.any (mayInject s k)) then s
    else
      let (p, paid, demoted) := regulate (regulator s k) e.tokens (if fromAnswers then p0 else stampHead e p0)
      let h := pHdr p
      if h.dst = a && isFabricAddr a then
        if canEject s a p then eject (sentHead s k p0 paid demoted) a p else s
      else if h.dst = a then
        if isResponse h.op || hasRoom s k then ejectTo (sentHead s k p0 paid demoted) k p else s
      else match (productive a h.dst).find? (outFree s a) with
        | some d => place (sentHead s k p0 paid demoted) a d p
        | none => s

/-- The head of an endpoint would be sent in class 0. -/
def holdsToken (s : Dev) (k : Nat) : Bool :=
  let e := getEp s k
  match headOf e with
  | some p => !(pHdr p).bulk && (regulator s k).en && 0 < e.tokens
  | none => false

/-- The offers of the injection phase (R268, R270): both attachments, or the edge block. -/
def offerHeads (a : Nat) (s : Dev) : Dev :=
  if isEdgeAddr a then
    (if (List.range 4).any fun d => (getTaken s a).testBit d then s else offerHead a s (4 * a))
  else
    let k0 := 4 * a
    let k1 := 4 * a + 1
    let both := (headOf (getEp s k0)).isSome && (headOf (getEp s k1)).isSome
    if both then
      let t0 := holdsToken s k0
      let t1 := holdsToken s k1
      let last := tGet (fun _ => 1) s.net.offered a
      let first := if t0 && !t1 then 0 else if t1 && !t0 then 1 else 1 - last
      let s := { s with net := { s.net with offered := tSet (fun _ => 1) s.net.offered a first } }
      offerHead a (offerHead a s (4 * a + first)) (4 * a + (1 - first))
    else offerHead a (offerHead a s k0) k1

/-- The injection phase of a network edge (R268, R270). It ends the edge: every output and ejection slot is free again. -/
def parcelInject (a : Nat) (s : Dev) : Dev :=
  if !netRuns s then s else endEdge a (offerHeads a s)

/-! ## Die crossings and tokens -/

/-- The link into input `d` of the router at `a` crosses a die (R259). -/
def crossesDie (a d : Nat) : Bool :=
  match neighbour a d with
  | none => false
  | some n =>
    let x := a % 32
    let y := a / 32
    let u := n % 32
    let v := n / 32
    if isFabricAddr a && isFabricAddr n then (min x u = 8 && max x u = 9) || (min y v = 4 && max y v = 5)
    else
      let e := if isEdgeAddr a then a else n
      ((List.range 4).map sramAddr ++ [bureauAddr, timebaseAddr, gatewayAddr, debugAddr]).contains e

/-- A parcel with header parity bit 0 inverted. -/
def spoil (p : Parcel) : Parcel := { p with par := p.par ^^^ 1 }

/-- A die-crossing stage re-centres (R260): the parcel in the slot, and its copy where the slot is repeated, fails header
parity at the next router. The slot is that of the next parcel to leave the stage; an omitted slot keeps its parcel, spoilt
(DEDUCED, assumption 13). -/
def recentre (a d : Nat) (repeated : Bool) (s : Dev) : Dev :=
  if netRuns s && crossesDie a d then
    let s := updLink s a d fun l => match l with
      | p :: ps => if repeated then spoil p :: spoil p :: ps else spoil p :: ps
      | [] => []
    raiseD s fltNocCrossing (a * 2 ^ 55 + d * 2 ^ 53 + (if repeated then 0 else 2 ^ 52))
  else s

/-- A regulator gains one token (R271). -/
def tokenGain (k : Nat) (s : Dev) : Dev :=
  if netRuns s then
    let d := (regulator s k).depth
    updEp s k fun e => { e with tokens := min (e.tokens + 1) d }
  else s

/-- Warm reset empties links, routers, stages and attachment queues (R282), and every regulator holds its depth (R271); epochs and
transactions are `bumpEpoch`'s. -/
def emptyNetwork (s : Dev) : Dev :=
  { s with net := { s.net with
      links := [], taken := [], offered := [], sampled := []
      eps := s.net.eps.foldl (fun t e => tUpd epDflt t e.1 fun x =>
        { emptyQueues x with answers := [], tokens := (regulator s e.1).depth }) s.net.eps } }

end Sys2Proof.Machine
end

