-- ==== Sys2Proof/Machine/Timebase.lean ====
section
/-! DEFINITION. The receivers of the timing stream (R468 to R470), device time, capture and timed triggers (R480 to R485). -/

namespace Sys2Proof.Machine

/-! ## Stream receivers (R469) -/

/-- 6.4 ns in units of 2^-64 s, rounded: the increment of the stream clock (R480). -/
def blockInc : Nat := (64 * 2 ^ 64 + 5000000000) / 10000000000

/-- A time code pair (R468). -/
structure TimeCode where
  isCode : Bool
  ok : Bool
  value : Nat
  seq : Nat
  flags : Nat
  deriving DecidableEq, Repr

/-- The code that a 0xD1 and a 0xD2 block carry; valid when its CRC matches and its zero bits are 0. -/
def timeCodeOf (d1 d2 : BitVec 64) : TimeCode :=
  let bytes := ((List.range 7).map fun i => fld d1 (8 * i + 15) (8 * i + 8)) ++
    ((List.range 5).map fun i => fld d2 (8 * i + 15) (8 * i + 8))
  { isCode := fld d1 7 0 = 0xD1 && fld d2 7 0 = 0xD2
    ok := fld d2 63 48 = crc16 bytes && fld d1 63 59 = 0
    value := fld d1 55 8 * 2 ^ 32 + fld d2 39 8
    seq := fld d2 47 40
    flags := fld d1 58 56 }

/-- A value lies within 0.5 ns of the previous valid code's value plus 6.4 ns for each block since. -/
def codeAgrees (r : StreamRx) (v blocks : Nat) : Bool :=
  let d := sint 80 (wrap 80 ((v : Int) - r.last))
  r.has && decide ((d * 10000000000 - (blocks : Int) * 64 * 2 ^ 32).natAbs ≤ 5 * 2 ^ 32)

/-- The receiver's time, `blocks` after the last valid code, in 2^-64 s. -/
def rxTime (r : StreamRx) (blocks : Nat) : Nat := (r.ref + blocks * blockInc) % 2 ^ 112

/-- A value lies within 0.5 ns of the receiver's time. -/
def nearTime (r : StreamRx) (v blocks : Nat) : Bool :=
  let d := sint 112 (wrap 112 ((v : Int) * 2 ^ 32 - rxTime r blocks))
  decide (d.natAbs * 10000000000 ≤ 5 * 2 ^ 64)

/-- What a code did: the receiver after it; it disagreed; codes missing before it; the time was stepped from a time to another
(2^-64 s). -/
structure RxResult where
  rx : StreamRx
  mismatch : Bool := false
  missed : Nat := 0
  step : Option (Nat × Nat) := none
  deriving DecidableEq, Repr

/-- A code pair reaches a receiver `blocks` after its last valid code (R469). Codes that disagree with the receiver's time and
agree among themselves step it at the third; a code is a mismatch where it does not agree with the valid code before it. -/
def rxCode (r : StreamRx) (c : TimeCode) (blocks : Nat) : RxResult :=
  if !c.ok then { rx := { r with good := 0, bad := 0 } }
  else
    let agrees := codeAgrees r c.value blocks
    let missed := if r.has then (c.seq + 255 - r.seq) % 256 else 0
    let next : StreamRx := { r with has := true, last := c.value, seq := c.seq, ref := rxTime r blocks }
    match r.state with
    | .search =>
      let good := if agrees then r.good + 1 else 1
      if good = 3 then { rx := { next with state := .locked, good := 0, bad := 0, ref := c.value * 2 ^ 32 }, missed }
      else { rx := { next with good }, missed }
    | _ =>
      let bad := if nearTime r c.value blocks then 0 else if agrees && r.bad ≠ 0 then r.bad + 1 else 1
      if bad = 3 then
        { rx := { next with state := .locked, bad := 0, ref := c.value * 2 ^ 32 }, mismatch := !agrees, missed
          step := some (rxTime r blocks, c.value * 2 ^ 32) }
      else { rx := { next with state := if agrees then .locked else r.state, bad }, mismatch := !agrees, missed }

/-- No valid code for 10 ms. -/
def rxHold (r : StreamRx) : StreamRx := if r.state = .locked then { r with state := .hold } else r

/-! ## Device time (R480, R481) -/

/-- Apply `f` to the timebase unit. -/
def updTb (s : Dev) (f : Timebase → Timebase) : Dev := { s with tb := f s.tb }

/-- The time of trigger unit `n`, in 2^-32 s. -/
def trigTime (s : Dev) (n : Nat) : Nat := fldR s (rTrig n 0) 63 0 + 2 ^ 64 * fldR s (rTrig n 1) 15 0

def putTrigTime (s : Dev) (n t : Nat) : Dev := setR (setR s (rTrig n 0) 63 0 t) (rTrig n 1) 15 0 (t / 2 ^ 64)

/-- Trigger unit `n` is armed. -/
def trigArmed (s : Dev) (n : Nat) : Bool := bitR s (rTrig n 1) 63

def setLate (s : Dev) (n v : Nat) : Dev := updTb s fun t => { t with lateDue := tSet (fun _ => 0) t.lateDue n v }

def lateOf (s : Dev) (n : Nat) : Nat := tGet (fun _ => 0) s.tb.lateDue n

def setLevel (s : Dev) (n : Nat) (v : Bool) : Dev := updTb s fun t => { t with level := tSet (fun _ => false) t.level n v }

def setPulse (s : Dev) (n : Nat) (v : Option Bool) : Dev := updTb s fun t => { t with pulse := tSet (fun _ => none) t.pulse n v }

/-- What the unit's action does to its pin. -/
def trigAct (s : Dev) (n : Nat) : Dev :=
  let level := bitR s (rTrig n 1) 58
  match fldR s (rTrig n 1) 60 59 with
  | 1 => setLevel s n level
  | 2 => setLevel s n !level
  | _ => setPulse (setLevel s n level) n (some level)

/-- An armed unit whose time has come fires. -/
def trigFire (n : Nat) (s : Dev) : Dev :=
  let t := trigTime s n
  let now := time80 s
  if !trigArmed s n || now < t then s
  else
    let late := lateOf s n
    let p := fldR s (rTrig n 2) 31 0
    let s := setR (incR (trigAct s n) (rTrig n 2) 63 32 1) (rTrig n 1) 61 61 1
    let s := if late = 0 then s else setR s (rTrig n 1) 62 62 1
    let s := setLate s n 0
    if p = 0 then setR s (rTrig n 1) 63 63 0
    else putTrigTime s n ((t + if late = 2 then ((now - t) / p + 1) * p else p) % 2 ^ 80)

/-- Every armed unit whose time has come fires: the next edge, a write of TB_TRIG and a step of the time find them fired, at the edge
at which the time reached theirs (R484). -/
def fireDue (s : Dev) : Dev := (List.range 9).foldl (fun s n => trigFire n s) s

/-- The time is set or stepped to `new` (2^-64 s): armed units whose time is passed fire late; where it lies after the new time
they wait for it (R484). -/
def moveTbTime (new : Nat) (s : Dev) : Dev :=
  let s := fireDue s
  let old := time80 s
  let s := updTb s fun t => { t with time := new % 2 ^ 112 }
  (List.range 9).foldl (fun s n =>
    if !trigArmed s n then s
    else if time80 s < trigTime s n then setLate s n 0
    else if old < trigTime s n then setLate s n 2
    else s) s

/-- The receiver is LOCKED and the timebase runs on the stream: mode STREAM, whose time is the receiver's; otherwise STREAM
ends (R481). -/
def tbModeUpdate (blocks : Nat) (s : Dev) : Dev :=
  let r := s.links.stream
  if r.state = .locked && s.clk.tb.cur = 0 then
    (if s.tb.mode = .stream then s
     else moveTbTime (rxTime r blocks) (updTb s fun t => { t with mode := .stream }))
  else if s.tb.mode = .stream then updTb s fun t => { t with mode := .running }
  else s

/-- Nominal period of timebase source `src` in 2^-64 s, rounded. -/
def tbPeriod (s : Dev) (src : Nat) : Nat :=
  match src with
  | 0 => blockInc
  | 1 => let hz := s.clk.xoKhz * 1000; if hz = 0 then 0 else (2 ^ 64 + hz / 2) / hz
  | _ => (5 * 2 ^ 64 + 500000000) / 1000000000

/-- The rate trim, at most 500,000 ppb either way, 0 in STREAM. -/
def tbAdj (s : Dev) : Int :=
  if s.tb.mode = .stream then 0 else max (-500000) (min 500000 (sint 32 (fldR s rTbCtrl 31 0)))

/-- One edge of the timebase clock (R480). No edge comes while a switch holds the domain. A unit that was due at the edge before has
fired (R484). -/
def timebaseEdge (s : Dev) : Dev :=
  if s.clk.tb.connected || !mainUp s then s
  else
    let s := fireDue s
    let inc := ((tbPeriod s s.clk.tb.cur : Int) * (1000000000 + tbAdj s) / 1000000000).toNat
    updTb s fun t => { t with time := (t.time + inc) % 2 ^ 112 }

/-- Event 3 of a switch of the timebase domain adds the IRO periods counted through the gap, 5 ns each (R480). -/
def tbSwitchDone (gap blocks : Nat) (s : Dev) : Dev :=
  if s.clk.tb.target.isSome && s.clk.tb.connected then
    let s := updTb s fun t => { t with time := (t.time + gap * tbPeriod s 2) % 2 ^ 112 }
    tbModeUpdate blocks (tbComplete s)
  else s

/-- A write of 1 to TB_TIME_SET.apply (R481). -/
def timeSetApply (s : Dev) : Dev :=
  if s.tb.mode = .stream then setR s rTbCtrl 63 63 1
  else
    let t := fldR s (rTbSet 0) 63 0 + 2 ^ 64 * fldR s (rTbSet 1) 15 0
    moveTbTime (t * 2 ^ 32) (updTb s fun t => { t with mode := .running })

/-! ## Codes at both receivers -/

def updStream (s : Dev) (r : StreamRx) : Dev := { s with links := { s.links with stream := r } }

/-- Saturate at the limits of a 64-bit two's complement number. -/
def sat64 (x : Int) : Nat := wrap 64 (max (-(2 ^ 63)) (min (2 ^ 63 - 1) x))

/-- The main receiver takes a code; the timebase unit follows (R470, R481). -/
def mainCode (c : TimeCode) (blocks : Nat) (s : Dev) : Dev :=
  let o := rxCode s.links.stream c blocks
  let s := updStream s o.rx
  if !c.ok then s
  else
    let s := setR (setR (setR (setR s rTsStatus 61 59 c.flags) (rTsLast 0) 63 0 c.value) (rTsLast 1) 23 16 c.seq)
      (rTsLast 1) 15 0 (c.value / 2 ^ 64)
    let s := incR s rTsStatus 31 16 o.missed
    let s := if o.mismatch then incR s rTsStatus 47 32 1 else s
    let s := match o.step with
      | some (old, new) =>
        let s := raiseD (incR s rTsStatus 15 0 1) fltTsStep (sat64 (((new / 2 ^ 32 : Nat) : Int) - (old / 2 ^ 32 : Nat)))
        if s.tb.mode = .stream then incR (moveTbTime new s) rTbCtrl 47 32 1 else s
      | none => s
    tbModeUpdate 0 s

/-- The Cabinet's receiver takes the same code (R469, R391). -/
def cabCode (c : TimeCode) (blocks : Nat) (s : Dev) : Dev :=
  if !cabUp s then s
  else
    let o := rxCode s.cab.stream c blocks
    let was := s.cab.stream.state
    let s := updCab s fun x => { x with stream := o.rx }
    if o.step.isSome || (was ≠ .locked && o.rx.state = .locked) then cabStreamLocked (o.rx.ref / 2 ^ 32 % 2 ^ 80) s else s

/-- Lane 0 is ACTIVE in timing stream mode. -/
def streamActive (s : Dev) : Bool := laneTiming s && (getLane s 0).stage = .active

/-- A time code pair arrives on lane 0. -/
def timeCode (d1 d2 : BitVec 64) (blocks : Nat) (s : Dev) : Dev :=
  let c := timeCodeOf d1 d2
  if streamActive s && c.isCode then cabCode c blocks (mainCode c blocks s) else s

/-- No valid code for 10 ms. -/
def timeCodeTimeout (s : Dev) : Dev :=
  let s := tbModeUpdate 0 (updStream s (rxHold s.links.stream))
  if s.cab.stream.state = .locked then cabStreamLeft (updCab s fun c => { c with stream := rxHold c.stream }) else s

/-- Lane 0 leaves ACTIVE: both receivers search again and the domains that run on the stream fall (R469, R135, R365). -/
def streamLost (s : Dev) : Dev :=
  let drop := fun (r : StreamRx) => { r with state := .search, has := false, good := 0, bad := 0 }
  let s := tbModeUpdate 0 (updStream s (drop s.links.stream))
  let s := cabStreamLeft (updCab s fun c => { c with stream := drop c.stream })
  cabSourceLost (tbSourceLost s 0) 0

/-! ## Capture (R483) -/

/-- Put an entry at the end of the queue, before entries of equal stamp and higher source. -/
def enqueueCapture (q : List Capture) (c : Capture) : List Capture :=
  let tie := fun (x : Capture) => decide (x.time = c.time) && decide (c.source < x.source)
  let back := q.reverse.takeWhile tie
  (q.take (q.length - back.length)) ++ [c] ++ back.reverse

/-- An edge of a capture source at `stamp` (80-bit time). CTRIG edges are sensed while the bank 8 supply is good (R479). An edge that
is not enabled is not captured, but is the previous edge of the next one. -/
def captureEdge (src : Nat) (falling : Bool) (stamp : Nat) (s : Dev) : Dev :=
  if src < 8 && tGet (fun _ => false) s.io.bankHiZ 8 then s
  else
    let close := match tGet (fun _ => none) s.tb.lastEdge src with
      | some p => p ≤ stamp && (stamp - p) * 1000000000 < 10 * 2 ^ 32
      | none => false
    let s := updTb s fun t => { t with lastEdge := tSet (fun _ => none) t.lastEdge src (some stamp) }
    if !bitR s rCapCfg (2 * src + falling.toNat) then s
    else if close then incR s rCapStatus 15 0 1
    else if 64 ≤ s.tb.queue.length then setR (incR s rCapStatus 15 0 1) rCapStatus 63 63 1
    else updTb s fun t => { t with queue := enqueueCapture t.queue { time := stamp, mode := t.mode, falling, source := src } }

/-- A write of 1 to TB_CAP_CFG.pop. -/
def capturePop (s : Dev) : Dev := updTb s fun t => { t with queue := t.queue.drop 1 }

/-- A write of 1 to TB_CAP_CFG.clr. -/
def captureClr (s : Dev) : Dev := setR (updTb s fun t => { t with queue := [] }) rCapStatus 15 0 0

/-! ## Timed triggers (R484) -/

/-- A write of 1 to TB_TRIG_n.arm. -/
def trigArm (n : Nat) (s : Dev) : Dev :=
  let s := setR s (rTrig n 1) 63 63 1
  setLate s n (if trigTime s n ≤ time80 s then 1 else 0)

/-- A write of 1 to TB_TRIG_n.disarm. -/
def trigDisarm (n : Nat) (s : Dev) : Dev := setLate (setR s (rTrig n 1) 63 63 0) n 0

/-- After a write of its time, a unit that now waits for a later time is not late. -/
def trigRewritten (n : Nat) (s : Dev) : Dev := if time80 s < trigTime s n then setLate s n 0 else s

/-- A write of 1 to TB_TRIG_n.arm or .disarm, given by itself: a unit that is due at its edge fires before it. -/
def trigWrite (f : Dev → Dev) (s : Dev) : Dev := f (fireDue s)

/-- A pulse has lasted its width. -/
def trigPulseEnd (n : Nat) (s : Dev) : Dev :=
  match tGet (fun _ => none) s.tb.pulse n with
  | some level => setPulse (setLevel s n !level) n none
  | none => s

end Sys2Proof.Machine
end

