-- ==== Sys2Proof/Machine/Lanes.lean ====
section
/-! DEFINITION. The serial lanes (chapter 18): modes, settings, bring-up, loss, raw interface, self-test; and how a bundle's state
follows its lanes (R457, R458). -/

namespace Sys2Proof.Machine

/-! ## Configuration (R418 to R420, R439) -/

/-- A controller holds lane `n` (R442). -/
def pcieHolds (s : Dev) (n : Nat) : Bool := decide (16 ≤ n % 32) && (getPcie s (n / 32)).perstHigh

/-- The mode in force (R439). -/
def laneMode (s : Dev) (n : Nat) : Nat :=
  if pcieHolds s n then 6
  else
    let m := fldR s (rLaneCfg n) 2 0
    if m = 5 then (if n = 0 then 5 else 0) else if m ≤ 4 then m else 0

def quadEn (s : Dev) (j : Nat) : Bool := bitR s (rQuadCfg j) 63
def quadPam4 (s : Dev) (j : Nat) : Bool := bitR s (rQuadCfg j) 62
def quadBaud (s : Dev) (j : Nat) : Nat := fldR s (rQuadCfg j) 24 0

/-- The symbol rate lies in the range of its modulation. -/
def quadOk (s : Dev) (j : Nat) : Bool :=
  let b := quadBaud s j
  if quadPam4 s j then decide (20000000 ≤ b) && decide (b ≤ 28000000) else decide (1250000 ≤ b) && decide (b ≤ 32000000)

def quadIn (s : Dev) (j : Nat) : Bool := !s.units.quads.contains j

/-- A mode or rate that the quad does not allow (R420, R439). Lane 0 in TIMING mode runs whatever its quad's modulation is (R422;
DEDUCED, assumption 146). -/
def laneCfgErr (s : Dev) (n : Nat) : Bool :=
  let j := n / 4
  (quadEn s j && !quadOk s j) || (quadPam4 s j && laneMode s n = 2)

def refreshCfgErr (s : Dev) (n : Nat) : Dev := setR s (rLaneStatus n) 58 58 (laneCfgErr s n).toNat

/-- Line rate in kbit/s after division (R419). -/
def laneRate (s : Dev) (n : Nat) : Nat :=
  let b := quadBaud s (n / 4)
  if quadPam4 s (n / 4) then 2 * b
  else
    let d := b / 2 ^ fldR s (rLaneCfg n) 33 32
    if d < 1250000 then b else d

/-- Rate class of a generation of PCI Express (R456). -/
def genClass (g : Nat) : Nat := nth 0 [0, 0, 1, 2, 4, 5] g

/-- Rate class (R423); of a lane that a controller holds, from the controller's rate. -/
def laneClass (s : Dev) (n : Nat) : Nat :=
  if pcieHolds s n then genClass (getPcie s (n / 32)).gen
  else if laneMode s n = 5 then 3
  else
    let r := laneRate s n
    if quadPam4 s (n / 4) then (if r < 50000000 then 6 else 7)
    else if r < 3125000 then 0 else if r < 6250000 then 1 else if r < 10312500 then 2
    else if r < 16000000 then 3 else if r < 25781250 then 4 else 5

/-- The pattern in force: 0 none (R439). -/
def lanePrbs (s : Dev) (n : Nat) : Nat :=
  let p := fldR s (rLaneCfg n) 52 50
  if p ≤ 3 then p else if p = 4 && quadPam4 s (n / 4) then 4 else 0

/-- The loop in force: 0 none. -/
def laneLoop (s : Dev) (n : Nat) : Nat := let l := fldR s (rLaneCfg n) 55 53; if l ≤ 3 then l else 0

/-- A lane may be brought up: in service, not held OFF, with a mode that its quad allows and a running PLL; before DONE only lane
0 in TIMING mode is (R212, R422, R432). -/
def laneLive (s : Dev) (n : Nat) : Bool :=
  let j := n / 4
  let m := laneMode s n
  quadIn s j && !s.links.lanes.heldE3 && mainUp s &&
    (m = 5 || (m ≠ 0 && m ≠ 6 && s.cfg.done && quadEn s j && quadOk s j && !laneCfgErr s n && pllRuns s (31 + j)))

/-! ## Settings (R424 to R429) -/

/-- The defaults of R427: preset, peaking of the rate class, gains, no taps. -/
def fallbackSettings (preset cls : Nat) : Word :=
  let p := nth (0, 0, 0) [(0, 63, 0), (0, 53, 10), (0, 47, 16), (4, 49, 10), (4, 43, 16), (6, 45, 12), (8, 41, 14), (6, 37, 20)] preset
  let peak := nth 0 [2, 4, 8, 10, 14, 18, 16, 20] cls
  BitVec.ofNat 64 (p.1 * 2 ^ 42 + p.2.1 * 2 ^ 36 + p.2.2 * 2 ^ 30 + peak * 2 ^ 25 + 12 * 2 ^ 21 + 16 * 2 ^ 16)

/-- An entry is valid (R426). -/
def entryOk (e : Word × Word) : Bool :=
  let bytes := (wordBytes [e.1, e.2]).take 14
  let pre := fld e.1 47 42
  let main := fld e.1 41 36
  let post := fld e.1 35 30
  fld e.2 63 48 = crc16 bytes && fld e.1 15 14 = 0 && fld e.2 47 44 = 0 && decide (pre + main + post ≤ 63) && decide (16 ≤ main)

/-- The key of a lane's settings. -/
def laneKey (s : Dev) (n cls : Nat) : Nat := s.power.slotId % 64 * 1024 + n * 8 + cls

/-- Settings for a rate class are looked up and applied (R427). -/
def applyClass (cls : Nat) (s : Dev) (n : Nat) : Dev :=
  let key := laneKey s n cls
  let dflt := fallbackSettings (fldR s (rLaneCfg n) 39 37) cls
  let use := fun (s : Dev) (a b : Word) (hit : Bool) =>
    setR (updLane s n fun l => { l with set0 := a, set1 := b }) (rLaneStatus n) 60 60 hit.toNat
  match (s.links.lanes.table.map (·.entries)).getD [] |>.find? fun e => fld e.1 63 48 = key with
  | none => use s dflt 0 false
  | some e =>
    if entryOk e then use s e.1 e.2 true
    else raiseU (use s dflt 0 false) fltLaneTable (2 ^ 63 + n * 2 ^ 16 + key) (n / 32)

/-- The lookup at an entry to DETECT. -/
def applySettings (s : Dev) (n : Nat) : Dev := applyClass (laneClass s n) s n

/-! ## Bundles as their lanes see them (R457, R458, R467) -/

def bundleDflt : Nat → Bundle := fun _ => {}

/-- Bundle `b`. -/
def getBundle (s : Dev) (b : Nat) : Bundle := tGet bundleDflt s.links.bundles b

def updBundle (s : Dev) (b : Nat) (f : Bundle → Bundle) : Dev :=
  { s with links := { s.links with bundles := tUpd bundleDflt s.links.bundles b f } }

def bundleEn (s : Dev) (b : Nat) : Bool := bitR s (rLinkCfg b) 63

/-- Width in lanes. -/
def bundleWidth (s : Dev) (b : Nat) : Nat := let w := fldR s (rLinkCfg b) 2 0; if w ≤ 4 then 2 ^ w else 4

def bundleLanes (s : Dev) (b : Nat) : List Nat := (List.range (bundleWidth s b)).map (4 * b + ·)

/-- The sector's frames enable the bridge of a bundle. -/
def bridgeOf (l : List Setting) : Bool :=
  (l.findSome? fun x => match x with
    | .bridge e => some e
    | _ => none).getD false

def bridgeOn (s : Dev) (b : Nat) : Bool := bridgeOf (items s (quadSector b))

/-- A bundle that breaks a rule of R457, or the second of two enabled bundles of one sector. -/
def bundleBad (s : Dev) (b : Nat) : Bool :=
  let w := bundleWidth s b
  (w = 8 && b % 2 ≠ 0) || (w = 16 && b % 4 ≠ 0) ||
    (bundleLanes s b).any (fun n => decide (laneMode s n ≠ 4)) ||
    (bundleEn s (b ^^^ 1) && !bitR s (rLinkStatus (b ^^^ 1)) 60)

/-- A bundle leaves UP: it forgets what it forwarded (R464). -/
def leaveUp (b : Nat) (st : BundleState) (s : Dev) : Dev :=
  let was := (getBundle s b).state
  let s := updBundle s b fun x => { x with state := st }
  if was = .up && st ≠ .up then incR (updBundle s b fun x => { x with fwd := [], buffer := [], owed := [] }) (rLinkStatus b) 31 16 1 else s

/-- The state of a bundle follows its configuration, its bridge and its lanes. -/
def bundleEval (s : Dev) (b : Nat) : Dev :=
  if !bundleEn s b then leaveUp b .off (setR s (rLinkStatus b) 60 59 0)
  else
    let bad := bundleBad s b
    let s := setR (setR s (rLinkStatus b) 60 60 bad.toNat) (rLinkStatus b) 59 59 (!bridgeOn s b).toNat
    if bad || !bridgeOn s b then leaveUp b .off s
    else
      let st := fun n => (getLane s n).stage
      let ls := bundleLanes s b
      if ls.all fun n => st n = .active then
        (if (getBundle s b).state = .up then s else leaveUp b .aligning s)
      else if ls.all fun n => st n = .exchange || st n = .active then leaveUp b .exchange s
      else leaveUp b .bringup s

/-- The enabled bundle that lane `n` serves. -/
def bundleOfLane (s : Dev) (n : Nat) : Option Nat :=
  (List.range 32).find? fun b => bundleEn s b && !bitR s (rLinkStatus b) 60 && (bundleLanes s b).contains n

/-- Re-evaluate every enabled bundle. -/
def evalBundles (s : Dev) : Dev := (List.range 32).foldl (fun s b => if bundleEn s b then bundleEval s b else s) s

/-! ## Stages (R430 to R432) -/

/-- A lane enters `st`, counting an exit from ACTIVE; the timing stream is lost when lane 0 leaves ACTIVE in TIMING mode. -/
def setStage (st : Stage) (s : Dev) (n : Nat) : Dev :=
  let was := (getLane s n).stage
  let s := updLane s n fun l => { l with stage := st }
  if was = .active && st ≠ .active then
    let s := incR s (rLaneStatus n) 31 16 1
    if n = 0 && laneTiming s then streamLost s else s
  else s

def laneOff (s : Dev) (n : Nat) : Dev := setStage .off s n

/-- A lane enters DETECT, or OFF where it may not be brought up. A near-end loop leaves DETECT at once (R434). -/
def enterDetect (s : Dev) (n : Nat) : Dev :=
  if laneLive s n then
    let s := setStage .detect s n
    let s := applySettings (updLane s n fun l => { l with noPartner := false, ackSent := false }) n
    if laneLoop s n = 1 || laneLoop s n = 2 then setStage .train s n else s
  else laneOff s n

def setRetries (s : Dev) (n v : Nat) : Dev := setR s (rLaneStatus n) 47 40 v

/-- When a lane of a bundle leaves ACTIVE, every lane of the bundle returns to DETECT; those that were ACTIVE raise
FLT_LANE_DOWN with cause 5 (R457, R488). -/
def companionsDown (n : Nat) (s : Dev) : Dev :=
  match bundleOfLane s n with
  | none => s
  | some b =>
    let s := ((bundleLanes s b).filter (· ≠ n)).foldl (fun s m =>
      if (getLane s m).stage = .active then raiseU (enterDetect s m) fltLaneDown (5 * 2 ^ 8 + m) (m / 32)
      else if (getLane s m).stage = .failed then s else enterDetect s m) s
    bundleEval s b

/-- What follows wherever a lane may have left or entered ACTIVE: `was` is its stage before. -/
def afterStage (n : Nat) (was : Stage) (s : Dev) : Dev :=
  let s := if was = .active && (getLane s n).stage ≠ .active then companionsDown n s else s
  match bundleOfLane s n with
  | some b => bundleEval s b
  | none => s

/-- Move lane `n` by `f`, with what follows for its bundle. -/
def laneMove (n : Nat) (f : Dev → Dev) (s : Dev) : Dev := afterStage n (getLane s n).stage (f s)

/-- A lane enters ACTIVE. -/
def enterActive (n : Nat) (s : Dev) : Dev :=
  let s := setRetries (setStage .active s n) n 0
  if n = 0 && laneTiming s then cabClimb (tbClimb s) else s

/-- A detect pulse finds a partner and signal energy, in TIMING mode energy alone. -/
def detectPulse (n : Nat) (found : Bool) (s : Dev) : Dev :=
  if (getLane s n).stage = .detect && !pcieHolds s n && found then laneMove n (fun s => setStage .train s n) s else s

/-- The recovery loop reports phase lock (R421). -/
def phaseLock (n : Nat) (s : Dev) : Dev :=
  if (getLane s n).stage = .train && !pcieHolds s n then laneMove n (fun s => setStage .lock s n) s else s

/-- Bit lock and block, comma, codeword or checker lock are reached. -/
def blockLock (n : Nat) (s : Dev) : Dev :=
  if (getLane s n).stage = .lock && !pcieHolds s n then
    laneMove n (fun s => if laneMode s n = 4 && lanePrbs s n = 0 then setStage .exchange s n else enterActive n s) s
  else s

/-- The exchange completes: the lane has received accept 1 and has sent it (R462). -/
def exchangeComplete (n : Nat) (s : Dev) : Dev :=
  if (getLane s n).stage = .exchange && (getLane s n).ackSent then laneMove n (enterActive n) s else s

def stageCode : Stage → Nat
  | .off => 0
  | .detect => 1
  | .train => 2
  | .lock => 3
  | .exchange => 4
  | .active => 5
  | .failed => 6

/-- A stage timeout (R430). -/
def stageTimeout (n : Nat) (s : Dev) : Dev :=
  let l := getLane s n
  if pcieHolds s n then s
  else match l.stage with
    | .detect =>
      let s := setR s (rLaneStatus n) 59 59 1
      let s := setR s (rLaneStatus n) 57 55 1
      if l.noPartner then s else raiseU (updLane s n fun l => { l with noPartner := true }) fltNoPartner n (n / 32)
    | .train | .lock | .exchange =>
      let code := stageCode l.stage
      let tries := fldR s (rLaneStatus n) 47 40 + 1
      let most := max 1 (fldR s (rLaneCfg n) 47 44)
      let s := setR (setRetries s n tries) (rLaneStatus n) 57 55 code
      laneMove n (fun s =>
        if most ≤ tries then raiseU (setStage .failed s n) fltLaneFailed (tries * 2 ^ 16 + code * 2 ^ 8 + n) (n / 32)
        else enterDetect s n) s
    | _ => s

def causeCode : LaneCause → Nat
  | .energy => 0
  | .lock => 1
  | .headers => 2
  | .codes => 3
  | .codewords => 4

/-- A loss condition that the lane's mode has (R431). -/
def causeApplies (s : Dev) (n : Nat) : LaneCause → Bool
  | .energy | .lock => true
  | .headers => (laneMode s n = 1 || laneMode s n = 4) && !quadPam4 s (n / 4)
  | .codes => laneMode s n = 2
  | .codewords => (laneMode s n = 1 || laneMode s n = 4) && quadPam4 s (n / 4)

/-- An ACTIVE lane meets a loss condition. -/
def laneLoss (n : Nat) (c : LaneCause) (s : Dev) : Dev :=
  if (getLane s n).stage = .active && !pcieHolds s n && causeApplies s n c then
    laneMove n (fun s => raiseU (enterDetect s n) fltLaneDown (causeCode c * 2 ^ 8 + n) (n / 32)) s
  else s

/-- A write of 1 to LANE_CFG_n.restart. -/
def laneRestart (n : Nat) (s : Dev) : Dev :=
  if pcieHolds s n || !quadIn s (n / 4) then s
  else laneMove n (fun s => enterDetect (setRetries s n 0) n) s

/-- The writable bits of LANE_CFG. -/
def laneCfgMask : Nat := maskOf ([0, 1, 2, 3, 32, 33, 37, 38, 39] ++ (List.range 12).map (44 + ·))

/-- A write of LANE_CFG_n (R432, R439). -/
def laneCfgWrite (n : Nat) (v : Word) (s : Dev) : Dev :=
  if pcieHolds s n || !quadIn s (n / 4) then s
  else
    let old := getR s (rLaneCfg n)
    let new := BitVec.ofNat 64 (v.toNat &&& laneCfgMask)
    let changed := fld old 2 0 ≠ fld new 2 0 || fld old 33 32 ≠ fld new 33 32 || fld old 55 50 ≠ fld new 55 50
    if changed || bit v 63 then
      let was := (getLane s n).stage
      let s := companionsDown n (if was = .active then laneOff s n else s)
      let s := refreshCfgErr (putR s (rLaneCfg n) new) n
      evalBundles (enterDetect (setRetries s n 0) n)
    else putR s (rLaneCfg n) new

/-- The lanes of a quad that its configuration governs: not lane 0 in TIMING mode, nor lanes that a controller holds. -/
def quadLanes (s : Dev) (j : Nat) : List Nat :=
  (List.range 4).map (4 * j + ·) |>.filter fun n => laneMode s n ≠ 5 && laneMode s n ≠ 6

/-- A write of LANE_QUAD_CFG_j (R432). A PLL in holdover stays there (R130), and reduced service starts none (R127). -/
def quadCfgWrite (j : Nat) (v : Word) (s : Dev) : Dev :=
  let s := putR s (rQuadCfg j) (BitVec.ofNat 64 (fld v 63 61 * 2 ^ 61 + fld v 24 0))
  let s := (List.range 4).foldl (fun s k => refreshCfgErr s (4 * j + k)) s
  let ls := quadLanes s j
  let s := ls.foldl (fun s n => laneMove n (fun s => laneOff s n) s) s
  if !quadIn s j || (4 ≤ j % 8 && (getPcie s (j / 8)).perstHigh) || pllState s (31 + j) = .holdover then s
  else if quadEn s j && quadOk s j then pllRestart s (31 + j)
  else setPll s (31 + j) .off

/-- Lane-quad PLLs that are enabled and were kept off start with the device reference: those configured in reduced service (R127). -/
def startQuadPlls (s : Dev) : Dev :=
  (List.range 32).foldl (fun s j =>
    if quadIn s j && quadEn s j && quadOk s j && !(4 ≤ j % 8 && (getPcie s (j / 8)).perstHigh) then pllStart s (31 + j) else s) s

/-- Management PLLs 1 and 0 lock (R126). -/
def managementPllLocked (s : Dev) : Dev := startQuadPlls (managementLocked s)

/-- The PLL of quad `j` has locked: lanes with a mode enter DETECT. -/
def quadLocked (j : Nat) (s : Dev) : Dev :=
  ((quadLanes s j).filter fun n => (getLane s n).stage = .off).foldl (fun s n => laneMove n (fun s => enterDetect (setRetries s n 0) n) s) s

/-- A quad leaves service (R438, R504). -/
def quadOut (j : Nat) (s : Dev) : Dev :=
  if quadIn s j then
    let s := bumpMap { s with units := { s.units with quads := j :: s.units.quads } }
    let s := setPll s (31 + j) .off
    (List.range 4).foldl (fun s k => laneMove (4 * j + k) (fun s => laneOff s (4 * j + k)) s) s
  else s

/-- The quad PLL does not relock within 1 ms. -/
def lanePllFault (j : Nat) (s : Dev) : Dev :=
  if quadIn s j && (pllState s (31 + j) = .locking || pllState s (31 + j) = .unlocked) then
    raiseU (quadOut j s) fltLanePll j (j / 8)
  else s

/-- The self-test of every quad (R438). Quad 4 is left out while PCIE_PERST_N[0] is high, and lane 0 in TIMING mode is not tested. -/
def laneSelfTest (fails : List QuadFail) (s : Dev) : Dev :=
  if !pllRuns s 1 || s.links.lanes.tested then s
  else
    let s := { s with links := { s.links with lanes := { s.links.lanes with tested := true } } }
    fails.foldl (fun s f =>
      let j := f.quad.val
      let lanes := if j = 0 && laneTiming s then fld f.lanes 3 1 * 2 else f.lanes.toNat
      if (j = 4 && (getPcie s 0).perstHigh) || (!f.pll && lanes = 0) || !quadIn s j then s
      else raiseU (quadOut j s) fltLaneSelfTest (f.pll.toNat * 2 ^ 12 + lanes * 2 ^ 8 + j) (j / 8)) s

/-- The self-test is still to end: no load starts before it (R438). -/
def selfTestPending (s : Dev) : Bool := pllRuns s 1 && !s.links.lanes.tested

/-- Every lane but lane 0 in TIMING mode enters OFF (R432). -/
def lanesReset (s : Dev) : Dev :=
  evalBundles (((List.range 128).filter fun n => laneMode s n ≠ 5 && (getLane s n).stage ≠ .off).foldl laneOff s)

/-- E3 turns every lane off. -/
def lanesHold (s : Dev) : Dev :=
  let s := { s with links := { s.links with lanes := { s.links.lanes with heldE3 := true } } }
  evalBundles (((List.range 128).filter fun n => (getLane s n).stage ≠ .off).foldl laneOff s)

/-- The lanes that may be brought up enter DETECT, from OFF. -/
def lanesEnter (s : Dev) : Dev :=
  evalBundles (((List.range 128).filter fun n => (getLane s n).stage = .off && laneLive s n).foldl
    (fun s n => enterDetect (setRetries s n 0) n) s)

/-- The device safe state is released. -/
def lanesRelease (s : Dev) : Dev :=
  lanesEnter { s with links := { s.links with lanes := { s.links.lanes with heldE3 := false } } }

/-- Lane 0 in TIMING mode runs from the release of the management-die power-on reset (R422). -/
def lanesPor (s : Dev) : Dev := enterDetect s 0

/-- A write of 1 to LANE_ERR_n.clr; `inc` names the counts that increment in the same cycle. -/
def laneErrClr (n : Nat) (inc : BitVec 2) (s : Dev) : Dev :=
  clrCount (clrCount s (rLaneErr n) 31 0 (bit inc 0)) (rLaneErr n) 47 32 (bit inc 1)

/-! ## Raw interface (R435, R436) -/

/-- The raw interface of lane `n` is served: its sector is ACTIVE or FENCED. -/
def rawServed (s : Dev) (n : Nat) : Bool :=
  let i := quadSector (n / 4)
  let st := (getSec s i).state
  st = .active || st = .fenced

def rawClk (s : Dev) (n : Nat) : ClkSel :=
  ((items s (quadSector (n / 4))).findSome? fun x => match x with
    | .rawLane l c => if l.val = n then some c else none
    | _ => none).getD {}

/-- The user clock of a raw lane gives edges. -/
def rawEdges (s : Dev) (n : Nat) : Bool := rawServed s n && clkRuns s (quadSector (n / 4)) (rawClk s n)

/-- Width of a raw word. -/
def rawWidth (mode : Nat) : Nat := if mode = 1 then 66 else if mode = 2 then 36 else 64

/-- The idle word of a raw mode; for RAW_8B10B K28.5 and D16.2 twice. -/
def idleWord (mode : Nat) : BitVec 66 :=
  if mode = 1 then BitVec.ofNat 66 (2 * 2 ^ 64 + 0x1E)
  else if mode = 2 then BitVec.ofNat 66 (5 * 2 ^ 32 + 0x50BC50BC)
  else BitVec.ofNat 66 0xAAAAAAAAAAAAAAAA

/-- A word is put into a queue of 32 where the writing side sees room. -/
def offerWord (q : PortQueue α) (w : α) : PortQueue α :=
  if q.words.length + q.freed < 32 then { q with words := q.words ++ [w], unseen := q.unseen + 1 } else q

/-- The reading side takes the head word, where it sees one. -/
def takeWordQ (q : PortQueue α) : PortQueue α :=
  if q.unseen < q.words.length then { q with words := q.words.drop 1, freed := q.freed + 1 } else q

/-- `seen` more writes, and `freed` more removals, become visible to the other side. -/
def crossQueue (q : PortQueue α) (seen freed : Nat) : PortQueue α := { q with unseen := q.unseen - seen, freed := q.freed - freed }

/-- A transmit word time (R436). `offers` are the words that the fabric has offered since the last one; `seen` and `freed` say how
far each side of the queue has come to see the other. -/
def rawTransmit (n : Nat) (offers : List (BitVec 66)) (seen freed : Nat) (s : Dev) : Dev :=
  let m := laneMode s n
  let st := (getLane s n).stage
  if m = 0 || 4 ≤ m then s
  else
    let s := if rawEdges s n then
        updLane s n fun l => { l with txq := offers.foldl (fun q w =>
          offerWord q (BitVec.ofNat 66 (w.toNat % 2 ^ rawWidth m))) (crossQueue l.txq 0 freed) }
      else s
    let s := updLane s n fun l => { l with txq := crossQueue l.txq seen 0 }
    if laneLoop s n = 3 || (st ≠ .active && st ≠ .lock) then s
    else
      let q := (getLane s n).txq
      let word := if st = .active && q.unseen < q.words.length then nth 0 q.words 0 else idleWord m
      let s := if st = .active then updLane s n fun l => { l with txq := takeWordQ l.txq } else s
      if lanePrbs s n ≠ 0 then s
      else if laneLoop s n = 0 then emit s (.raw n word)
      else updLane s n fun l => { l with looped := some word }

/-- Count a received word: an invalid word, or with RS FEC the first of the 80 words of an uncorrectable codeword (R437), is a bad
block; bit errors of the checker or corrected symbols are counted too (R439). -/
def countReceived (n : Nat) (err : Bool) (errs : Nat) (s : Dev) : Dev :=
  let fec := quadPam4 s (n / 4) && (laneMode s n = 1 || laneMode s n = 4)
  let left := (getLane s n).badLeft
  let s := if fec then updLane s n fun l => { l with badLeft := if left ≠ 0 then left - 1 else if err then 79 else 0 } else s
  let s := if err && !(fec && left ≠ 0) then incR s (rLaneErr n) 47 32 1 else s
  incR s (rLaneErr n) 31 0 (if lanePrbs s n ≠ 0 || fec then errs else 0)

/-- The word that arrives at the receiver, with its error mark: in a near-end loop the lane's own, which the parallel loop does not
change (R434). -/
def arrivingWord (s : Dev) (n : Nat) (word : BitVec 66) (err : Bool) : Option (BitVec 66 × Bool) :=
  let l := laneLoop s n
  if (l = 1 || l = 2) && lanePrbs s n = 0 then
    (getLane s n).looped.map fun w => if l = 2 then (w, false) else (if err then word else w, err)
  else some (word, err)

/-- A receive word time (R436): a word with LX_RERR, the bit errors or corrected symbols counted with it; `taken` words have been
read by the fabric since the last one. A lane of a bundle only counts. In the far-end loop what arrives is sent again (R434). -/
def rawReceive (n : Nat) (word : BitVec 66) (err : Bool) (errs taken seen freed : Nat) (s : Dev) : Dev :=
  let m := laneMode s n
  let st := (getLane s n).stage
  if m = 4 then (if st = .active then countReceived n err errs s else s)
  else if m = 0 || 4 ≤ m then s
  else
    let s := if laneLoop s n = 3 && (st = .active || st = .lock) then emit s (.raw n word) else s
    let s := if rawEdges s n then
        updLane s n fun l => { l with rxq := (List.range (min taken 32)).foldl (fun q _ => takeWordQ q) (crossQueue l.rxq seen 0) }
      else s
    let s := updLane s n fun l => { l with rxq := crossQueue l.rxq 0 freed }
    match if st = .active then arrivingWord s n word err else none with
    | none => s
    | some (w, bad) =>
      let s := countReceived n bad errs (updLane s n fun l => { l with looped := none })
      let q := (getLane s n).rxq
      if !rawServed s n || 32 ≤ q.words.length + q.freed then incR s (rLaneStatus n) 15 0 1
      else updLane s n fun l => { l with rxq := offerWord l.rxq { data := BitVec.ofNat 66 (w.toNat % 2 ^ rawWidth m), err := bad } }

end Sys2Proof.Machine
end

