-- ==== Sys2Proof/Machine/SectorPorts.lean ====
section
/-! DEFINITION. The hard ports of a sector as its state changes: table port (R311), Cabinet ports of S12 (R414), raw lane queues
(R436), bridges (R458). -/

namespace Sys2Proof.Machine

def dieDflt : Nat → SramDie := fun _ => {}

/-- SRAM die `n`. -/
def getDie (s : Dev) (n : Nat) : SramDie := tGet dieDflt s.mem.sram n

def updDie (s : Dev) (n : Nat) (f : SramDie → SramDie) : Dev :=
  { s with mem := { s.mem with sram := tUpd dieDflt s.mem.sram n f } }

/-- Owner sector of table port `q`. -/
def tpOwner (q : Nat) : Nat := nth 1 [1, 18, 45, 62] q

/-- Fields of the table port in a leaf's items. -/
def tpCfgOf (l : List Setting) : ClkSel × Bool :=
  (l.findSome? fun x => match x with
    | .tablePort c carry => some (c, carry)
    | _ => none).getD ({}, false)

/-- The queues of a table port are emptied; the results of reads that the die has accepted will be discarded. -/
def tpClear (q : Nat) (s : Dev) : Dev :=
  updDie s q fun d => { d with tpReads := [], tpWrites := [], tpResp := [], tpOut := none, tpDiscard := d.tpPipe.length }

/-- The sample port's queue is emptied; each word counts in SP_DROPS. -/
def sampleEmpty (s : Dev) : Dev :=
  updCab s fun c => { c with sampleQ := {}, spOut := none, spDrops := satAdd 24 c.spDrops c.sampleQ.words.length }

/-- The bundles whose bridge lies in sector `i` follow its frames. -/
def evalSectorBundles (i : Nat) (s : Dev) : Dev :=
  ((List.range 32).filter fun b => quadSector b = i && bundleEn s b).foldl bundleEval s

/-- A commit strobe of sector `i`, after the select has changed. -/
def portsStrobe (i : Nat) (old new : List Setting) (s : Dev) : Dev :=
  let s := (List.range 4).foldl (fun s q =>
    if tpOwner q = i && !((tpCfgOf old).2 && (tpCfgOf new).2) then tpClear q s else s) s
  evalSectorBundles i (if i = 12 then sampleEmpty s else s)

/-- Sector `i` enters initial load, RESETTING or OFF. -/
def portsDown (i : Nat) (s : Dev) : Dev :=
  let s := (List.range 4).foldl (fun s q => if tpOwner q = i then tpClear q s else s) s
  let s := if i = 12 then updCab (sampleEmpty s) fun c => { c with sourceQ := {} } else s
  ((List.range 128).filter fun n => quadSector (n / 4) = i).foldl (fun s n => updLane s n fun l => { l with txq := {}, rxq := {} }) s

end Sys2Proof.Machine
end

