-- ==== Sys2Proof/Machine/AddressMap.lean ====
section
/-! DEFINITION. The device address map as a requester's attachment decodes it (R18 to R21, R289, R543), and the DDR5
interleave (R317 to R320). -/

namespace Sys2Proof.Machine

/-! ## Memory parts -/

def chDflt : Nat → DdrChan := fun _ => {}

/-- DDR5 channel `n`. -/
def getCh (s : Dev) (n : Nat) : DdrChan := tGet chDflt s.mem.ddr n

def updCh (s : Dev) (n : Nat) (f : DdrChan → DdrChan) : Dev :=
  { s with mem := { s.mem with ddr := tUpd chDflt s.mem.ddr n f } }

/-- Channel `n` is out of service (R504). -/
def ddrOut (s : Dev) (n : Nat) : Bool := s.units.ddr.any fun e => e.1 = n

/-- SRAM die `n` is out of service (R504). -/
def sramOut (s : Dev) (n : Nat) : Bool := s.units.sram.contains n

/-- In-service channels, ascending (R318). -/
def liveChannels (s : Dev) : List Nat := (List.range 8).filter fun n => !ddrOut s n

/-- The usable capacity per channel in GiB (R314): the smallest among the in-service channels whose SPD device has been read;
0 while none has (DEDUCED, assumption 14). -/
def usableGib (s : Dev) : Nat :=
  match ((liveChannels s).map fun n => (getCh s n).cap).filter fun c => 0 < c with
  | [] => 0
  | c :: cs => cs.foldl min c

/-- The populated capacity N·cap in GiB (R318). -/
def populatedGib (s : Dev) : Nat := (liveChannels s).length * usableGib s

/-- The populated capacity in bytes. -/
def populated (s : Dev) : Nat := populatedGib s * 2 ^ 30

/-! ## Layout and masks (R317 to R319) -/

/-- A layout: nc, cb and rb. -/
structure DdrLayout where
  nc : Nat
  cb : Nat
  rb : Nat
  deriving DecidableEq, Repr

/-- Lowest offset bit above the channel slot. -/
def DdrLayout.p (y : DdrLayout) : Nat := 12 + y.nc

/-- Base bit of mask `m` (R317), in the order CH0 to CH2, SUB, BG0 to BG2, BANK0, BANK1, RANK0, RANK1. -/
def DdrLayout.baseBit (y : DdrLayout) (m : Nat) : Nat :=
  if m < 3 then 12 + m
  else if m = 3 then 6
  else if m < 7 then 3 + m
  else if m < 9 then y.p + y.cb - 2 + (m - 7)
  else y.p + y.cb + (m - 9)

/-- Mask `m` is in use. -/
def DdrLayout.uses (y : DdrLayout) (m : Nat) : Bool :=
  if m < 3 then m < y.nc else if m < 9 then true else m - 9 < y.rb

/-- Default mask `m` (R319). -/
def DdrLayout.defaultMask (y : DdrLayout) (m : Nat) : Nat :=
  let added := if m < 3 then (List.range 6).map fun k => 24 + m + 3 * k
    else if m = 3 then []
    else if m < 7 then [20 + m]
    else if m < 9 then [20 + m]
    else []
  maskOf (y.baseBit m :: added)

/-- The first mask in use that is invalid (R318). -/
def DdrLayout.badMask (y : DdrLayout) (masks : List Nat) : Option Nat :=
  (List.range 11).find? fun m =>
    y.uses m &&
      (let v := nth 0 masks m
       !v.testBit (y.baseBit m) || v % 64 ≠ 0 ||
         (List.range 11).any fun k => k ≠ m && y.uses k && v.testBit (y.baseBit k))

/-- The powers of two of N, largest first. -/
def powersOf (n : Nat) : List Nat := ([8, 4, 2, 1] : List Nat).filter fun p => (n / p) % 2 = 1

/-- log2 of a power of two up to 8. -/
def log2small (p : Nat) : Nat := if p = 8 then 3 else if p = 4 then 2 else if p = 2 then 1 else 0

/-- A region of the interleave: its number, first offset, P and its channels. -/
structure DdrRegion where
  num : Nat
  base : Nat
  chans : List Nat
  deriving DecidableEq, Repr

/-- The regions of R318. -/
def ddrRegions (s : Dev) : List DdrRegion :=
  let ch := liveChannels s
  let cap := usableGib s * 2 ^ 30
  ((powersOf ch.length).foldl (fun (st : List DdrRegion × Nat × Nat) p =>
    let (l, base, i) := st
    (l ++ [{ num := l.length, base, chans := (ch.drop i).take p }], base + p * cap, i + p)) ([], 0, 0)).1

/-- The region that holds an offset. -/
def regionAt (s : Dev) (off : Nat) : Option DdrRegion :=
  let cap := usableGib s * 2 ^ 30
  (ddrRegions s).find? fun r => r.base ≤ off && off < r.base + r.chans.length * cap

/-- Layout of a region for the geometry of channel `c`. -/
def layoutFor (s : Dev) (r : DdrRegion) (c : Nat) : DdrLayout :=
  let g := getCh s c
  { nc := log2small r.chans.length, cb := if g.x8 then 6 else 7
    rb := if g.ranks = 4 then 2 else if g.ranks = 2 then 1 else 0 }

/-- Mask `m` in force in a region (R318, R320). -/
def maskIn (s : Dev) (r : DdrRegion) (y : DdrLayout) (m : Nat) : Nat :=
  if r.num = 0 && !s.mem.map.useDefault then nth 0 s.mem.map.masks m else y.defaultMask m

/-- Output bit of mask `m` on an offset. -/
def maskOut (s : Dev) (r : DdrRegion) (y : DdrLayout) (o m : Nat) : Nat := (parity 42 (maskIn s r y m &&& o)).toNat

/-- The channel slot of an offset within its region. -/
def slotIn (s : Dev) (r : DdrRegion) (y : DdrLayout) (o : Nat) : Nat :=
  (List.range y.nc).foldl (fun v k => v + maskOut s r y o k * 2 ^ k) 0

/-- Where a line lies (R317, R318). -/
structure DdrPlace where
  chan : Nat
  sub : Nat
  bg : Nat
  bank : Nat
  rank : Nat
  row : Nat
  col : Nat
  deriving DecidableEq, Repr

/-- The place of a DDR5 offset. -/
def ddrPlace (s : Dev) (off : Nat) : Option DdrPlace :=
  match regionAt s off with
  | none => none
  | some r =>
    let o := off - r.base
    let y0 := layoutFor s r (nth 0 r.chans 0)
    let c := nth 0 r.chans (slotIn s r y0 o)
    let y := layoutFor s r c
    let out := maskOut s r y o
    some { chan := c, sub := out 3, bg := out 4 + 2 * out 5 + 4 * out 6, bank := out 7 + 2 * out 8
           rank := (if y.rb = 0 then 0 else out 9) + (if y.rb = 2 then 2 * out 10 else 0)
           row := o >>> (y.p + y.cb + y.rb)
           col := nbits o 11 10 + 4 * nbits o (y.p + y.cb - 3) y.p }

/-- The channel that serves a DDR5 offset; 8 for none. -/
def ddrChannel (s : Dev) (off : Nat) : Nat := ((ddrPlace s off).map (·.chan)).getD 8

/-- Index of a line in channel-local order (R326): the line number of its offset without the channel slot. -/
def localLine (s : Dev) (off : Nat) : Nat :=
  match regionAt s off with
  | none => 0
  | some r => let o := off - r.base; (o >>> (12 + log2small r.chans.length)) * 64 + nbits o 11 6

/-- The offset of the line `k` places after `off` in channel-local order: the same channel slot, whose bits follow from the
masks (R318, "the mapping is then invertible"). -/
def lineAfter (s : Dev) (off k : Nat) : Option Nat :=
  match regionAt s off with
  | none => none
  | some r =>
    let y := layoutFor s r (nth 0 r.chans 0)
    let o := off - r.base
    let want := slotIn s r y o
    let n := localLine s off + k
    let o0 := (n / 64) * 2 ^ y.p + (n % 64) * 64
    let fix := (List.range y.nc).foldl (fun v b =>
      if maskOut s r y o0 b ≠ (want >>> b) % 2 then v + 2 ^ (12 + b) else v) 0
    let o1 := o0 + fix
    if o1 < r.chans.length * usableGib s * 2 ^ 30 then some (r.base + o1) else none

/-! ## Checks at the requester's attachment (R20, R21) -/

/-- Key selection modes (R337). -/
inductive KeySel where
  | address
  | header
  | range
  deriving DecidableEq, Repr

/-- The selection mode of memory system `m` (0 DDR5, 1 SRAM); value 3 is treated as 0 (R342). -/
def keySel (s : Dev) (m : Nat) : KeySel :=
  match (if m = 0 then fldR s rEncCfg 17 16 else fldR s rEncCfg 21 20) with
  | 1 => .header
  | 2 => .range
  | _ => .address

/-- Destination router and port of an address whose first byte is `lo` (R18, R19, R318). -/
def destination (s : Dev) (addr lo : Nat) : Nat × Nat :=
  match spaceOf addr with
  | .ddr => (ddrAddr (ddrChannel s (lo % 2 ^ 42)), 0)
  | .sram => (sramAddr (nbits lo 27 26), 0)
  | .window => (nbits addr 45 37, nbits addr 36 35)
  | .mgmt => (bureauAddr, 0)

/-- What the attachment finds for a request: an error code, or its destination. -/
inductive Routed where
  | refused (code : Nat)
  | to (router port : Nat)
  deriving DecidableEq, Repr

/-- Decode a request's address (R18 to R21). `mgmt` tells a requester that R21 admits to space 0b11. -/
def decodeAddr (s : Dev) (mgmt : Bool) (addr len first last : Nat) : Routed :=
  let r := reqRange addr len first last
  let lo := r.1
  let hi := r.2 - 1
  let d := destination s addr lo
  match spaceOf addr with
  | .mgmt => if mgmt then (if hi / 2 ^ 46 = addr / 2 ^ 46 then .to d.1 d.2 else .refused rspUnmapped) else .refused rspDenied
  | .ddr =>
    if (keySel s 0 ≠ .address && nbits addr 45 42 ≠ 0) || hi / 2 ^ 42 ≠ addr / 2 ^ 42 || populated s ≤ hi % 2 ^ 42 then
      .refused rspUnmapped
    else .to d.1 d.2
  | .sram =>
    if (keySel s 1 ≠ .address && nbits addr 45 42 ≠ 0) || nbits addr 41 28 ≠ 0 || sramOut s (nbits lo 27 26) ||
        hi / 2 ^ 26 ≠ lo / 2 ^ 26 || lo / 2 ^ 26 ≠ addr / 2 ^ 26 then .refused rspUnmapped
    else .to d.1 d.2
  | .window =>
    if validWindow d.1 d.2 && hi / 2 ^ 35 = addr / 2 ^ 35 then .to d.1 d.2 else .refused rspUnmapped

end Sys2Proof.Machine
end

