-- ==== Sys2Proof/Machine/Crypto.lean ====
section
/-! DEFINITION. The cryptographic standards that the manual names: AES-256 (FIPS 197), XTS-AES-256 (IEEE 1619), GCM
(SP 800-38D), AES Key Wrap (SP 800-38F, RFC 3394), SHA-384 (FIPS 180-4) and ECDSA on P-384 (FIPS 186-5). The manual cites
them and does not repeat them. PRESUMED, assumption 4: their text is taken from the standards. Bytes are numbers below
256, first byte first. -/

namespace Sys2Proof.Machine

/-- Bytes of a number, least significant first. -/
def leB (k v : Nat) : List Nat := (List.range k).map fun i => (v >>> (8 * i)) % 256

/-- Bytes of a number, most significant first. -/
def beB (k v : Nat) : List Nat := (leB k v).reverse

/-- The number of bytes, least significant first. -/
def ofLe : List Nat → Nat
  | [] => 0
  | b :: bs => b + 256 * ofLe bs

/-- The number of bytes, most significant first. -/
def ofBe (l : List Nat) : Nat := ofLe l.reverse

/-! ## AES-256 (FIPS 197) -/

/-- Multiplication by x in GF(2^8) modulo x^8 + x^4 + x^3 + x + 1. -/
def aesX (a : Nat) : Nat :=
  let b := a * 2
  if b < 256 then b else (b ^^^ 0x11B) % 256

/-- The substitution box: byte `a` of the table, 32 bytes to a number, lowest first. -/
def aesBox : List Nat :=
  [0xc072a49cafa2d4adf04759fa7dc982ca76abd7fe2b670130c56f6bf27b777c63,
   0x75b227ebe28012079a059618c323c7041531d871f1e5a534ccf73f362693fdb7,
   0xcf584c4a39becb6a5bb1fc20ed00d153842fe329b3d63b52a05a6e1b1a2c8309,
   0xd2f3ff1021dab6bcf5389d928f40a351a89f3c507f02f94585334d43fbaaefd0,
   0xdb0b5ede14b8ee4688902a22dc4f816073195d643d7ea7c41744975fec130ccd,
   0x08ae7a65eaf4566ca94ed58d6d37c8e779e4959162acd3c25c2406490a3a32e0,
   0x9e1dc186b95735610ef6034866b53e708a8bbd4b1f74dde8c6b4a61c2e2578ba,
   0x16bb54b00f2d99416842e6bf0d89a18cdf2855cee9871e9b948ed9691198f8e1]

/-- The inverse substitution box, in the same form. -/
def aesBoxInv : List Nat :=
  [0xcbe9dec444438e3487ff2f9b8239e37cfbd7f3819ea340bf38a53630d56a0952,
   0x25d18b6d49a25b76b224d92866a12e084ec3fa420b954cee3d23c2a632947b54,
   0x849d8da75746155edab9edfd5048706c92b6655dcc5ca4d41698688664f6f872,
   0x6b8a130103bdafc1020f3fca8f1e2cd00645b3b80558e4f70ad3bc8c00abd890,
   0x6edf751ce837f9e28535ade72274ac9673e6b4f0cecff297eadc674f4111913a,
   0xf45acd78fec0db9a2079d2c64b3e56fc1bbe18aa0e62b76f89c5291d711af147,
   0xef9cc9939f7ae52d0d4ab519a97f51605fec8027591012b131c7078833a8dd1f,
   0x7d0c2155631469e126d677ba7e042b17619953833cbbebc8b0f52aae4d3be0a0]

/-- Byte `a` of a table. -/
def boxByte (t : List Nat) (a : Nat) : Nat := (nth 0 t (a / 32) >>> (8 * (a % 32))) % 256

/-- The substitution of a byte. -/
def aesSub (a : Nat) : Nat := boxByte aesBox a

/-- The inverse substitution of a byte. -/
def aesSubInv (a : Nat) : Nat := boxByte aesBoxInv a

/-- XOR of two byte strings of one length. -/
def xorBytes (a b : List Nat) : List Nat := List.zipWith (fun x y => x ^^^ y) a b

/-- One step of the key expansion: the words so far, newest first, and the round constant. -/
def aesExpandStep (i : Nat) (st : List (List Nat) × Nat) : List (List Nat) × Nat :=
  let ws := st.1
  let prev := nth [] ws 0
  let back := nth [] ws 7
  if i % 8 = 0 then
    let r := (prev.drop 1 ++ prev.take 1).map aesSub
    (xorBytes back (xorBytes r [st.2, 0, 0, 0]) :: ws, aesX st.2)
  else if i % 8 = 4 then (xorBytes back (prev.map aesSub) :: ws, st.2)
  else (xorBytes back prev :: ws, st.2)

/-- `l` in pieces of `k`. -/
def chunks (k : Nat) (l : List α) : List (List α) :=
  (List.range ((l.length + k - 1) / k)).map fun i => (l.drop (i * k)).take k

/-- The 15 round keys of a 32-byte key. -/
def aesKeys (key : List Nat) : List (List Nat) :=
  let start := (chunks 4 key).reverse
  let ws := ((List.range 52).foldl (fun st i => aesExpandStep (i + 8) st) (start, 1)).1.reverse
  (chunks 4 ws).map List.flatten

/-- Byte `i` of the state after the row shift comes from this position. -/
def aesShiftFrom (i : Nat) : Nat := (i + 4 * (i % 4)) % 16

/-- The inverse row shift. -/
def aesShiftBack (i : Nat) : Nat := (i + 16 - 4 * (i % 4)) % 16

/-- A column as a number, first byte lowest, with each byte multiplied by x. -/
def aesXCol (c : Nat) : Nat := ((c &&& 0x7F7F7F7F) * 2) ^^^ (((c >>> 7) &&& 0x01010101) * 0x1B)

/-- A column with byte i + k in the place of byte i. -/
def aesRot (c k : Nat) : Nat := ((c >>> (8 * k)) ||| (c <<< (32 - 8 * k))) % 2 ^ 32

/-- The mix of one column: 2, 3, 1, 1 times its bytes from i on. -/
def aesMixCol (c : Nat) : Nat := aesXCol (c ^^^ aesRot c 1) ^^^ aesRot c 1 ^^^ aesRot c 2 ^^^ aesRot c 3

/-- The inverse mix, 14, 11, 13, 9: the mix after 5, 0, 4, 0. -/
def aesUnmixCol (c : Nat) : Nat := aesMixCol (c ^^^ aesXCol (aesXCol (c ^^^ aesRot c 2)))

/-- Apply `f` to each column of the state. -/
def aesCols (f : Nat → Nat) (s : List Nat) : List Nat := (chunks 4 s).flatMap fun c => leB 4 (f (ofLe c))

/-- AES-256 of one 16-byte block. -/
def aesEnc (key blk : List Nat) : List Nat :=
  let ks := aesKeys key
  let sub := fun (s : List Nat) => (List.range 16).map fun i => aesSub (nth 0 s (aesShiftFrom i))
  let s0 := xorBytes blk (nth [] ks 0)
  let s := (List.range 13).foldl (fun s r => xorBytes (aesCols aesMixCol (sub s)) (nth [] ks (r + 1))) s0
  xorBytes (sub s) (nth [] ks 14)

/-- The inverse cipher. -/
def aesDec (key blk : List Nat) : List Nat :=
  let ks := aesKeys key
  let sub := fun (s : List Nat) => (List.range 16).map fun i => aesSubInv (nth 0 s (aesShiftBack i))
  let s0 := xorBytes blk (nth [] ks 14)
  let s := (List.range 13).foldl (fun s r => aesCols aesUnmixCol (xorBytes (sub s) (nth [] ks (13 - r)))) s0
  xorBytes (sub s) (nth [] ks 0)

/-! ## XTS (IEEE 1619) -/

/-- Bytes as words, low byte first. -/
def bytesWords (l : List Nat) : List Word := (chunks 8 l).map fun c => BitVec.ofNat 64 (ofLe c)

/-- The tweak of block `j`: E_Key2 of the unit number times α^j. -/
def xtsTweak (key2 : List Nat) (unit j : Nat) : List Nat :=
  let t0 := ofLe (aesEnc key2 (leB 16 unit))
  leB 16 ((List.range j).foldl (fun t _ =>
    let d := t * 2
    if d < 2 ^ 128 then d else (d % 2 ^ 128) ^^^ 0x87) t0)

/-- Encrypt block `j` of a data unit. -/
def xtsEnc (key : List Nat) (unit j : Nat) (blk : List Nat) : List Nat :=
  let t := xtsTweak (key.drop 32) unit j
  xorBytes t (aesEnc (key.take 32) (xorBytes t blk))

/-- Decrypt block `j` of a data unit. -/
def xtsDec (key : List Nat) (unit j : Nat) (blk : List Nat) : List Nat :=
  let t := xtsTweak (key.drop 32) unit j
  xorBytes t (aesDec (key.take 32) (xorBytes t blk))

/-! ## GCM (SP 800-38D) -/

/-- Multiplication in the field of GHASH, blocks as 128-bit numbers with bit 0 of the standard most significant. -/
def ghashMul (x y : Nat) : Nat :=
  ((List.range 128).foldl (fun (st : Nat × Nat) i =>
    let z := if x.testBit (127 - i) then st.1 ^^^ st.2 else st.1
    let v := if st.2 % 2 = 1 then (st.2 / 2) ^^^ (0xE1 * 2 ^ 120) else st.2 / 2
    (z, v)) (0, y)).1

/-- GHASH of a string whose length is a multiple of 16 bytes. -/
def ghash (h : Nat) (data : List Nat) : Nat :=
  (chunks 16 data).foldl (fun y blk => ghashMul (y ^^^ ofBe blk) h) 0

/-- Pad with zero bytes to a multiple of 16. -/
def pad16 (l : List Nat) : List Nat := l ++ List.replicate ((16 - l.length % 16) % 16) 0

/-- Counter mode from counter value 2, for a 12-byte IV. -/
def gcmCtr (key iv data : List Nat) : List Nat :=
  let blocks := chunks 16 data
  (blocks.zipIdx.map fun bi => xorBytes bi.1 (aesEnc key (iv ++ beB 4 (bi.2 + 2)))).flatten

/-- The 16-byte tag of a ciphertext with additional data. -/
def gcmTag (key iv aad ct : List Nat) : List Nat :=
  let h := ofBe (aesEnc key (List.replicate 16 0))
  let s := ghash h (pad16 aad ++ pad16 ct ++ beB 8 (8 * aad.length) ++ beB 8 (8 * ct.length))
  xorBytes (beB 16 s) (aesEnc key (iv ++ [0, 0, 0, 1]))

/-! ## AES Key Wrap (RFC 3394) -/

/-- The 72-byte string that a wrapped key of `8·(n+1)` bytes holds, or none where the integrity value is wrong. -/
def kwUnwrap (kek wrapped : List Nat) : Option (List Nat) :=
  let parts := chunks 8 wrapped
  let n := parts.length - 1
  let step := fun (st : List Nat × List (List Nat)) (t : Nat) =>
    let i := (t - 1) % n
    let a := xorBytes st.1 (beB 8 t)
    let b := aesDec kek (a ++ nth [] st.2 i)
    (b.take 8, updNth st.2 i fun _ => b.drop 8)
  let fin := ((List.range (6 * n)).map fun k => 6 * n - k).foldl step (nth [] parts 0, parts.drop 1)
  if fin.1 = List.replicate 8 0xA6 then some fin.2.flatten else none

/-! ## SHA-384 (FIPS 180-4) -/

/-- 64-bit rotation to the right. -/
def rotR (x k : Nat) : Nat := ((x >>> k) ||| (x <<< (64 - k))) % 2 ^ 64

/-- The largest r with r^3 ≤ n, by bits from 2^71 down. -/
def cbrt (n : Nat) : Nat :=
  (List.range 72).foldl (fun r i => let t := r + 2 ^ (71 - i); if t * t * t ≤ n then t else r) 0

/-- The largest r with r^2 ≤ n. -/
def sqrtN (n : Nat) : Nat :=
  (List.range 72).foldl (fun r i => let t := r + 2 ^ (71 - i); if t * t ≤ n then t else r) 0

/-- The first 80 primes. -/
def primes80 : List Nat :=
  (List.range 410).filter fun n => 2 ≤ n && ((List.range 21).all fun d => d < 2 || n ≤ d || n % d ≠ 0)

/-- The round constants: 64 bits of the fraction of the cube roots of the first 80 primes. -/
def shaK : List Nat := primes80.map fun p => cbrt (p * 2 ^ 192) % 2 ^ 64

/-- The initial value of SHA-384: 64 bits of the fraction of the square roots of the ninth to sixteenth primes. -/
def shaInit : List Nat := ((primes80.drop 8).take 8).map fun p => sqrtN (p * 2 ^ 128) % 2 ^ 64

/-- The message schedule of one block, newest first. -/
def shaSchedule (blk : List Nat) : List Nat :=
  ((List.range 64).foldl (fun (w : List Nat) _ =>
    let s0 := fun x => rotR x 1 ^^^ rotR x 8 ^^^ (x >>> 7)
    let s1 := fun x => rotR x 19 ^^^ rotR x 61 ^^^ (x >>> 6)
    ((s1 (nth 0 w 1) + nth 0 w 6 + s0 (nth 0 w 14) + nth 0 w 15) % 2 ^ 64) :: w) blk.reverse).reverse

/-- One round. -/
def shaRound (s : List Nat) (k w : Nat) : List Nat :=
  match s with
  | [a, b, c, d, e, f, g, h] =>
    let t1 := h + (rotR e 14 ^^^ rotR e 18 ^^^ rotR e 41) + ((e &&& f) ^^^ ((2 ^ 64 - 1 - e) &&& g)) + k + w
    let t2 := (rotR a 28 ^^^ rotR a 34 ^^^ rotR a 39) + ((a &&& b) ^^^ (a &&& c) ^^^ (b &&& c))
    [(t1 + t2) % 2 ^ 64, a, b, c, (d + t1) % 2 ^ 64, e, f, g]
  | other => other

/-- SHA-384 of a byte string. -/
def sha384 (msg : List Nat) : List Nat :=
  let zeros := (240 - (msg.length + 1) % 128) % 128
  let padded := msg ++ [0x80] ++ List.replicate zeros 0 ++ beB 16 (8 * msg.length)
  let out := (chunks 128 padded).foldl (fun h blk =>
    let ws := shaSchedule ((chunks 8 blk).map ofBe)
    let r := (shaK.zip ws).foldl (fun s kw => shaRound s kw.1 kw.2) h
    List.zipWith (fun x y => (x + y) % 2 ^ 64) h r) shaInit
  (out.take 6).flatMap (beB 8)

/-! ## ECDSA on P-384 (FIPS 186-5) -/

/-- The field prime. -/
def p384 : Nat := 2 ^ 384 - 2 ^ 128 - 2 ^ 96 + 2 ^ 32 - 1

/-- The group order. -/
def n384 : Nat := 0xffffffffffffffffffffffffffffffffffffffffffffffffc7634d81f4372ddf581a0db248b0a77aecec196accc52973

/-- The coefficient b of y² = x³ − 3·x + b. -/
def b384 : Nat := 0xb3312fa7e23ee7e4988e056be3f82d19181d9c6efe8141120314088f5013875ac656398d8a2ed19d2a85c8edd3ec2aef

/-- The base point. -/
def g384 : Nat × Nat :=
  (0xaa87ca22be8b05378eb1c71ef320ad746e1d3b628ba79b9859f741e082542a385502f25dbf55296c3a545e3872760ab7,
   0x3617de4a96262c6f5d9e98bf9292dc29f8f41dbd289a147ce9da3113b5f0b8c00a60b1ce1d7e819d7a431d7c90ea0e5f)

/-- `b ^ e` modulo `m`, for exponents below 2^384. -/
def powMod (m b e : Nat) : Nat :=
  ((List.range 384).foldl (fun (st : Nat × Nat) i =>
    (if e.testBit i then st.1 * st.2 % m else st.1, st.2 * st.2 % m)) (1, b % m)).1

/-- Inverse modulo the primes p384 and n384. -/
def invMod (m a : Nat) : Nat := powMod m a (m - 2)

/-- A point in Jacobian coordinates: the affine point is (x / z², y / z³), and z = 0 the point at infinity. -/
structure EcPoint where
  x : Nat
  y : Nat
  z : Nat
  deriving DecidableEq, Repr

/-- Difference in the field. -/
def ecSub (a b : Nat) : Nat := (a + p384 - b % p384) % p384

/-- Twice a point; of the point at infinity it is that point. -/
def ecDouble (P : EcPoint) : EcPoint :=
  let d := P.z * P.z % p384
  let g := P.y * P.y % p384
  let b := P.x * g % p384
  let a := 3 * ecSub P.x d * (P.x + d) % p384
  let x := ecSub (a * a) (8 * b)
  { x, y := ecSub (a * ecSub (4 * b) x) (8 * g * g), z := 2 * P.y * P.z % p384 }

/-- Sum of two points. -/
def ecAdd (P Q : EcPoint) : EcPoint :=
  if P.z = 0 then Q
  else if Q.z = 0 then P
  else
    let u := P.x * Q.z * Q.z % p384
    let h := ecSub (Q.x * P.z * P.z) u
    let t := P.y * Q.z * Q.z * Q.z % p384
    let r := ecSub (Q.y * P.z * P.z * P.z) t
    if r = 0 ∧ h = 0 then ecDouble P
    else
      let v := u * h * h % p384
      let c := h * h * h % p384
      let x := ecSub (ecSub (r * r) c) (2 * v)
      { x, y := ecSub (r * ecSub v x) (t * c), z := h * P.z * Q.z % p384 }

/-- Scalar multiplication of an affine point. -/
def ecMul (k : Nat) (P : Nat × Nat) : EcPoint :=
  ((List.range 384).foldl (fun (st : EcPoint × EcPoint) i =>
    (if k.testBit i then ecAdd st.1 st.2 else st.1, ecDouble st.2)) ({ x := 1, y := 1, z := 0 }, { x := P.1, y := P.2, z := 1 })).1

/-- Verify a signature (r ‖ s, 96 bytes) of a 48-byte digest under a public key (x ‖ y, 96 bytes). -/
def ecdsaVerify (pub digest sig : List Nat) : Bool :=
  let qx := ofBe (pub.take 48)
  let qy := ofBe (pub.drop 48)
  let r := ofBe (sig.take 48)
  let s := ofBe (sig.drop 48)
  let onCurve := decide (qx < p384) && decide (qy < p384) &&
    decide (qy * qy % p384 = (qx * qx * qx + (p384 - 3) * qx + b384) % p384)
  if !onCurve || r = 0 || n384 ≤ r || s = 0 || n384 ≤ s then false
  else
    let w := invMod n384 s
    let u1 := ofBe digest * w % n384
    let u2 := r * w % n384
    let R := ecAdd (ecMul u1 g384) (ecMul u2 (qx, qy))
    if R.z = 0 then false
    else
      let i := invMod p384 R.z
      R.x * i * i % p384 % n384 = r

end Sys2Proof.Machine
end

