-- ==== Sys2Proof/Machine/Tree.lean ====
section
/-! DEFINITION. The counter tree of an integrity range (R345 to R354): geometry, tags, what initialisation writes, stored words,
the node cache, walks and write-backs. -/

namespace Sys2Proof.Machine

/-! ## Geometry (R345, R346) -/

/-- The share of one engine in an integrity range. -/
structure TreeGeo where
  mem : Nat
  base : Nat
  size : Nat
  metaBase : Nat
  engines : List Nat
  share : Nat
  deriving DecidableEq, Repr

/-- Number of engines P. -/
def TreeGeo.ways (g : TreeGeo) : Nat := max 1 g.engines.length

/-- log2 of a number of ways. -/
def TreeGeo.bits (g : TreeGeo) : Nat := 12 + log2small g.ways

/-- Lines of a share. -/
def TreeGeo.lines (g : TreeGeo) : Nat := g.size / (64 * g.ways)

/-- Nodes of each level from `n` on, to the first level of at most 8. -/
def levelCounts : Nat → Nat → List Nat
  | 0, n => [n]
  | f + 1, n => if n ≤ 8 then [n] else n :: levelCounts f ((n + 7) / 8)

/-- Nodes of each level: entry h − 1 for level h of R348. -/
def TreeGeo.levels (g : TreeGeo) : List Nat := levelCounts 12 (g.lines / 64)

/-- The top level. -/
def TreeGeo.top (g : TreeGeo) : Nat := g.levels.length

/-- Nodes of level h. -/
def TreeGeo.nodes (g : TreeGeo) (h : Nat) : Nat := nth 0 g.levels (h - 1)

/-- `n` rounded up to a multiple of `k`. -/
def roundUp (n k : Nat) : Nat := (n + k - 1) / k * k

/-- Slice offset of the first node of level h. -/
def TreeGeo.levelOff (g : TreeGeo) (h : Nat) : Nat :=
  if h ≤ 1 then 8 * g.lines
  else 9 * g.lines + roundUp (8 * g.nodes 1) 64 + 64 * ((g.levels.drop 1).take (h - 2)).foldl (· + ·) 0

/-- Slice size. -/
def TreeGeo.sliceSize (g : TreeGeo) : Nat := roundUp (g.levelOff (g.top + 1)) 4096

/-- Start of the slice. -/
def TreeGeo.slice (g : TreeGeo) : Nat := g.metaBase + g.share * g.sliceSize

/-- Address of the tag of share line `l`. -/
def TreeGeo.tagAddr (g : TreeGeo) (l : Nat) : Nat := g.slice + 8 * l

/-- Address of a node. -/
def TreeGeo.nodeAddr (g : TreeGeo) (h i : Nat) : Nat := g.slice + g.levelOff h + 64 * i

/-- Address of the tag of a node. -/
def TreeGeo.nodeTagAddr (g : TreeGeo) (h i : Nat) : Nat :=
  if h ≤ 1 then g.slice + 9 * g.lines + 8 * i else g.nodeAddr h i + 56

/-- Share line of an address (R345). -/
def TreeGeo.lineOf (g : TreeGeo) (a : Nat) : Nat :=
  let x := a - g.base
  if g.mem = 0 then ((x >>> g.bits) <<< 6) + nbits x 11 6 else x / 64

/-- Global line number. -/
def TreeGeo.global (g : TreeGeo) (l : Nat) : Nat := g.share * g.lines + l

/-- Address of share line `l`: in DDR5, the line of its block that lies on the share's channel. -/
def lineAddr (s : Dev) (g : TreeGeo) (l : Nat) : Nat :=
  if g.mem = 0 then
    let a := g.base + ((l / 64) <<< g.bits) + (l % 64) * 64
    let want := nth 8 g.engines g.share
    ((List.range g.ways).map fun v => a + v * 4096).find? (fun b => ddrChannel s (b % 2 ^ 42) = want) |>.getD a
  else g.base + 64 * l

/-- Share line `l` lies under node `i` of level h (level 0: the whole share). -/
def underNode (h i l : Nat) : Bool := h = 0 || (l / 64) / 8 ^ (h - 1) = i

/-! ## Nodes and tags (R347, R348) -/

/-- Major counter of a leaf. -/
def leafMajor (v : BitVec 512) : Nat := fld v 55 0

/-- Minor counter `j` of a leaf. -/
def leafMinor (v : BitVec 512) (j : Nat) : Nat := fld v (62 + 7 * j) (56 + 7 * j)

/-- Counter `j` of an upper node. -/
def nodeCounter (v : BitVec 512) (j : Nat) : Nat := fld v (56 * j + 55) (56 * j)

/-- The eight words of a node. -/
def nodeWords (v : BitVec 512) : List Word := (List.range 8).map fun w => BitVec.ofNat 64 (fld v (64 * w + 63) (64 * w))

/-- A node of eight words. -/
def nodeOf (ws : List Word) : BitVec 512 :=
  BitVec.ofNat 512 ((ws.zipIdx.map fun x => x.1.toNat * 2 ^ (64 * x.2)).foldl (· + ·) 0)

/-- The first 8 bytes of a tag as a word. -/
def tagWord (tag : List Nat) : Word := BitVec.ofNat 64 (ofLe (tag.take 8))

/-- Tag of a node under its counter `c`. -/
def nodeTag (key : List Nat) (g : TreeGeo) (h i c : Nat) (v : BitVec 512) : Word :=
  let body := wordBytes (nodeWords v)
  let aad := (if h ≤ 1 then body else body.take 56) ++ leB 8 (g.nodeAddr h i)
  let iv := leB 7 c ++ [0x80] ++ leB 4 (h % 16 * 2 ^ 28 + (g.share * g.nodes h + i) % 2 ^ 28)
  tagWord (gcmTag key iv aad [])

/-- IV of a line. -/
def lineIv (g : TreeGeo) (l major minor : Nat) : List Nat := leB 7 major ++ [minor % 128] ++ leB 4 (g.global l)

/-- Additional data of a line: its device address and its poison bits. -/
def lineAad (addr : Nat) (poison : List Bool) : List Nat :=
  leB 8 addr ++ [maskOf ((List.range 8).filter fun w => nth false poison w)] ++ List.replicate 7 0

/-- Encrypt a line of eight words: ciphertext words with their poison, and its tag. -/
def sealWords (key : List Nat) (g : TreeGeo) (l addr major minor : Nat) (ws : List (Word × Bool)) :
    List (Word × Bool) × Word :=
  let iv := lineIv g l major minor
  let ct := gcmCtr key iv (wordBytes (ws.map (·.1)))
  let tag := gcmTag key iv (lineAad addr (ws.map (·.2))) ct
  ((bytesWords ct).zip (ws.map (·.2)), tagWord tag)

/-! ## What initialisation leaves (R351, R356) -/

/-- The share of a fill. -/
def TreeFill.geo (f : TreeFill) : TreeGeo :=
  { mem := f.mem, base := f.base, size := f.size, metaBase := f.metaBase, engines := f.engines, share := f.share }

/-- A leaf or upper node as a fill writes it, without its tag. -/
def fillNode (major h : Nat) : BitVec 512 :=
  if h ≤ 1 then BitVec.ofNat 512 major
  else BitVec.ofNat 512 (((List.range 8).map fun j => major * 2 ^ (56 * j)).foldl (· + ·) 0)

/-- Tag of a node as a fill writes it. -/
def fillTag (f : TreeFill) (h i : Nat) : Word :=
  nodeTag f.key f.geo h i (if h = f.level then f.parent else f.major) (fillNode f.major h)

/-- Node `i` of level `h` is among those a fill writes. -/
def fillHasNode (f : TreeFill) (h i : Nat) : Bool := f.level = 0 || (h ≤ f.level && i / 8 ^ (f.level - h) = f.idx)

/-- The level that holds slice offset `o` in the area of upper nodes. -/
def upperLevelAt (g : TreeGeo) (o : Nat) : Option Nat :=
  ((List.range g.top).map (· + 1)).find? fun h => 2 ≤ h && g.levelOff h ≤ o && o < g.levelOff h + 64 * g.nodes h

/-- The word that a fill left at device address `a` of unit `c` (a channel, or 8 + die), where it covers it. -/
def fillWordAt (s : Dev) (f : TreeFill) (c a : Nat) : Option PWord :=
  let g := f.geo
  if f.gone.contains c then none
  else if g.base ≤ a && a < g.base + g.size then
    let l := g.lineOf a
    if nth 99 g.engines g.share = c && underNode f.level f.idx l then
      let ct := (sealWords f.key g l (a / 64 * 64) f.major 0 (List.replicate 8 (0, false))).1
      some (encodeWord (nth (0, false) ct (a % 64 / 8)).1 false)
    else none
  else if g.slice ≤ a && a < g.slice + g.sliceSize then
    let o := a - g.slice
    if o < 8 * g.lines then
      let l := o / 8
      if underNode f.level f.idx l then
        some (encodeWord (sealWords f.key g l (lineAddr s g l) f.major 0 (List.replicate 8 (0, false))).2 false)
      else none
    else if o < 9 * g.lines then
      let i := (o - 8 * g.lines) / 64
      if fillHasNode f 1 i then some (encodeWord (nth 0 (nodeWords (fillNode f.major 1)) (o % 64 / 8)) false) else none
    else if o < 9 * g.lines + 8 * g.nodes 1 then
      let i := (o - 9 * g.lines) / 8
      if fillHasNode f 1 i then some (encodeWord (fillTag f 1 i) false) else none
    else match upperLevelAt g o with
      | none => none
      | some h =>
        let i := (o - g.levelOff h) / 64
        let w := (o - g.levelOff h) % 64 / 8
        if fillHasNode f h i then
          some (encodeWord (if w = 7 then fillTag f h i else nth 0 (nodeWords (fillNode f.major h)) w) false)
        else none
  else none

/-! ## Stored words -/

/-- Device address without its key field (R18, R343). -/
def plainAddr (a : Nat) : Nat := a / 2 ^ 46 * 2 ^ 46 + a % 2 ^ 42

/-- The unit that stores device address `a`: a channel, or 8 + die; 99 for none. -/
def storeUnit (s : Dev) (a : Nat) : Nat :=
  match spaceOf a with
  | .ddr => let c := ddrChannel s (a % 2 ^ 42); if c < 8 then c else 99
  | .sram => 8 + nbits a 27 26
  | _ => 99

/-- Index of a word within its unit's array. -/
def wordIdx (a : Nat) : Nat := if spaceOf a = .sram then a % 2 ^ 26 / 8 else a % 2 ^ 42 / 8

/-- The listed word at device address `a`. -/
def listedWord (s : Dev) (u a : Nat) : Option PWord :=
  if u < 8 then tGet (fun _ => none) (getCh s u).arr (wordIdx a)
  else tGet (fun _ => none) (getDie s (u - 8)).arr (wordIdx a)

/-- What an unlisted word reads as: what the newest initialisation left there, else the clean zero word of R47. -/
def unlistedWord (s : Dev) (u a : Nat) : PWord :=
  (s.enc.fills.findSome? fun f => fillWordAt s f u a).getD (clean 0)

/-- The stored word at device address `a`. -/
def memGet (s : Dev) (a : Nat) : PWord :=
  let a := plainAddr a
  let u := storeUnit s a
  (listedWord s u a).getD (unlistedWord s u a)

/-- Store a word at device address `a`. -/
def memSet (s : Dev) (a : Nat) (v : PWord) : Dev :=
  let a := plainAddr a
  let u := storeUnit s a
  let x := if v = unlistedWord s u a then none else some v
  if u < 8 then updCh s u fun c => { c with arr := tSet (fun _ => none) c.arr (wordIdx a) x }
  else if u < 12 then updDie s (u - 8) fun d => { d with arr := tSet (fun _ => none) d.arr (wordIdx a) x }
  else s

/-- Store words given with their device addresses. -/
def memSets (s : Dev) (l : List (Nat × PWord)) : Dev := l.foldl (fun s x => memSet s x.1 x.2) s

/-- Decode a stored word in the read path or merge of its unit, counted and logged there (R42, R46). -/
def memDecode (s : Dev) (a : Nat) : (Word × Bool × Bool) × Dev :=
  let w := memGet s a
  let d := decodeWord w
  let unc := decide (d.outcome = .uncorrectable)
  ((d.data, d.poison || unc, unc), eccNote s (storeUnit s (plainAddr a)) (plainAddr a) w)

/-- Decode words in turn: data, poison (with UNCORRECTABLE), UNCORRECTABLE. -/
def memDecodes (s : Dev) (l : List Nat) : List (Word × Bool × Bool) × Dev :=
  l.foldl (fun (r : List (Word × Bool × Bool) × Dev) a =>
    let x := memDecode r.2 a
    (r.1 ++ [x.1], x.2)) ([], s)

/-- The code with which the unit that stores `a` answers an engine's metadata access, where it cannot perform it (R327, R353). -/
def metaCode (s : Dev) (a : Nat) : Option Nat :=
  let u := storeUnit s a
  if u < 8 then
    match (getCh s u).state with
    | .ready => none
    | .frozen => some rspChannelFrozen
    | _ => some rspChannelReset
  else if u < 12 then (if sramOut s (u - 8) then some rspTimeout else none)
  else some rspTimeout

/-! ## Engines -/

def engDflt : Nat → Engine := fun _ => {}

/-- Engine `e`. -/
def getEng (s : Dev) (e : Nat) : Engine := tGet engDflt s.enc.engines e

def updEng (s : Dev) (e : Nat) (f : Engine → Engine) : Dev :=
  { s with enc := { s.enc with engines := tUpd engDflt s.enc.engines e f } }

def slotDflt : Nat → KeySlot := fun _ => {}

/-- Slot `n` of engine `e`. -/
def getSlot (s : Dev) (e n : Nat) : KeySlot := tGet slotDflt (getEng s e).slots n

def updSlot (s : Dev) (e n : Nat) (f : KeySlot → KeySlot) : Dev :=
  updEng s e fun g => { g with slots := tUpd slotDflt g.slots n f }

def rangeDflt : Nat → KeyRange := fun _ => {}

/-- Range 8·m + r. -/
def getRange (s : Dev) (k : Nat) : KeyRange := tGet rangeDflt s.enc.ranges k

def updRange (s : Dev) (k : Nat) (f : KeyRange → KeyRange) : Dev :=
  { s with enc := { s.enc with ranges := tUpd rangeDflt s.enc.ranges k f } }

/-- The share of engine `e` in range `k`. -/
def shareOf (s : Dev) (e k : Nat) : TreeGeo :=
  let r := getRange s k
  { mem := k / 8, base := r.base, size := r.size, metaBase := r.metaBase, engines := r.engines
    share := (r.engines.findIdx? fun x => x = e).getD 0 }

/-- The greatest counter value that is never taken (R351). -/
def counterLimit : Nat := 2 ^ 56 - 1

/-- hw follows a counter that took value `v` (R351). -/
def raiseHw (s : Dev) (e k v : Nat) : Dev :=
  updSlot s e (getRange s k).slot fun x => { x with hw := max x.hw (v + 1) }

/-- Record the first event in ENC_STATUS_e (R360). -/
def encRecord (s : Dev) (e kind addr : Nat) (hdr : BitVec 64) : Dev :=
  if bitR s (rEncStatus e 2) 63 then s
  else putR (putR s (rEncStatus e 2) (BitVec.ofNat 64 (2 ^ 63 + kind * 2 ^ 60 + addr % 2 ^ 48))) (rEncStatus e 3) hdr

/-- A tag failure (R353). -/
def tagFailure (s : Dev) (e : Nat) (node overflow : Bool) (addr : Nat) (hdr : BitVec 64) : Dev :=
  let s := incR s (rEncStatus e 0) 47 32 1
  let s := encRecord s e node.toNat addr hdr
  raiseD s fltIntegrity (e * 2 ^ 60 + node.toNat * 2 ^ 59 + overflow.toNat * 2 ^ 58 + addr % 2 ^ 48)

/-- A range is exhausted (R352): once. -/
def exhaust (s : Dev) (e k addr : Nat) (hdr : BitVec 64) : Dev :=
  if (getRange s k).exhausted then s
  else
  let s := updRange s k fun r => { r with exhausted := true }
  let s := encRecord s e 3 addr hdr
  raiseD s fltExhausted (e * 2 ^ 60 + k / 8 * 2 ^ 59 + k % 8 * 2 ^ 56 + addr % 2 ^ 48)

/-- A node becomes unknown (R354): an entry, or the whole share when all 16 are in use. -/
def markUnknown (s : Dev) (e k h i : Nat) (hdr : BitVec 64) : Dev :=
  let s := encRecord s e 2 ((shareOf s e k).nodeAddr h i) hdr
  updEng s e fun g =>
    if g.unknown.any fun u => u.rng = k && u.level = h && u.idx = i then g
    else if g.unknown.length < 16 then { g with unknown := g.unknown ++ [{ rng := k, level := h, idx := i }] }
    else if g.lostShares.any fun x => x.1 = k then g
    else { g with lostShares := g.lostShares ++ [(k, false)] }

/-- Share line `l` of range `k` lies under an unknown node of engine `e`. -/
def isUnknown (s : Dev) (e k l : Nat) : Bool :=
  let g := getEng s e
  (g.lostShares.any fun x => x.1 = k) || g.unknown.any fun u => u.rng = k && underNode u.level u.idx l

/-- A read is answered under an unknown node: counted, and its fault raised once per entry (R354). -/
def unknownRead (s : Dev) (e k l : Nat) : Dev :=
  let s := incR s (rEncStatus e 0) 31 16 1
  let g := getEng s e
  let geo := shareOf s e k
  let fault := fun s h i => raiseU s fltIntegrityUnknown
    (e * 2 ^ 60 + k / 8 * 2 ^ 59 + k % 8 * 2 ^ 56 + h * 2 ^ 52 + geo.nodeAddr h i % 2 ^ 48) (if e < 8 then e / 2 else e - 8)
  match g.unknown.find? fun u => u.rng = k && underNode u.level u.idx l with
  | some u =>
    if u.raised then s
    else fault (updEng s e fun g => { g with unknown := mapIf (fun v => v = u) (fun v => { v with raised := true }) g.unknown })
      u.level u.idx
  | none =>
    if g.lostShares.any fun x => x.1 = k && !x.2 then
      fault (updEng s e fun g => { g with lostShares := mapIf (fun x => x.1 = k) (fun x => (x.1, true)) g.lostShares }) geo.top 0
    else s

/-! ## Walking and updating (R349) -/

/-- How a walk ends. -/
inductive NodeOut where
  | ok (v : BitVec 512)
  | code (c : Nat)
  | tagFail
  | unknown
  deriving DecidableEq, Repr

/-- A node of a path as it was fetched (R349): level, index, and its words with its tag, or the code of an access that failed. -/
structure Fetched where
  level : Nat
  idx : Nat
  got : Except Nat (List (Word × Bool × Bool) × (Word × Bool × Bool))

/-- What a walk does: bring a node into the cache; verify fetched nodes from the top one down, the first under the counters of its
parent; make room in the cache; write a dirty node back that has left the cache. -/
inductive TreeReq where
  | ensure (k h i : Nat)
  | verify (k : Nat) (parent : BitVec 512) (todo : List Fetched)
  | room
  | writeBack (n : CacheNode)

/-- The cached node, if any. -/
def cached (s : Dev) (e k h i : Nat) : Option CacheNode :=
  (getEng s e).cache.find? fun n => n.rng = k && n.level = h && n.idx = i

/-- Nodes that an engine's cache holds (R349). -/
def cacheNodes : Nat := 2048

/-- Put a node first in the cache, in place of an older copy. -/
def cachePut (s : Dev) (e : Nat) (n : CacheNode) : Dev :=
  updEng s e fun g =>
    { g with cache := n :: g.cache.filter fun m => !(m.rng = n.rng && m.level = n.level && m.idx = n.idx) }

/-- Root counter `i` of engine `e` for range `k`. -/
def rootCounter (s : Dev) (e k i : Nat) : Nat := nth 0 (tGet (fun _ => []) (getEng s e).roots k) i

/-- Set a root counter. -/
def setRoot (s : Dev) (e k i v : Nat) : Dev :=
  updEng s e fun g => { g with roots := tUpd (fun _ => []) g.roots k fun l => updNth l i fun _ => v }

/-- Fetch a node and its tag: nothing where the unit does not answer. -/
def fetchNode (s : Dev) (g : TreeGeo) (h i : Nat) : (Except Nat (List (Word × Bool × Bool) × (Word × Bool × Bool))) × Dev :=
  let a := g.nodeAddr h i
  match metaCode s a with
  | some c => (.error c, s)
  | none =>
    let r := memDecodes s ((List.range 8).map fun w => a + 8 * w)
    if h ≤ 1 then
      match metaCode s (g.nodeTagAddr h i) with
      | some c => (.error c, s)
      | none => let t := memDecode r.2 (g.nodeTagAddr h i); (.ok (r.1, t.1), t.2)
    else (.ok (r.1, nth (0, false, false) r.1 7), r.2)

/-- The lowest cached node on the path from node `i` of level `h` upward. -/
def lowestCached (s : Dev) (e k top h i : Nat) : Option CacheNode :=
  (List.range (top + 1 - h)).findSome? fun d => cached s e k (h + d) (i / 8 ^ d)

/-- Fetch the nodes of the path of node `i` of level `h`, from level `from` down, all of them (R349). -/
def fetchPath (s : Dev) (e : Nat) (g : TreeGeo) (start h i : Nat) : List Fetched × Dev :=
  ((List.range (start + 1 - h)).map fun d => start - d).foldl (fun (r : List Fetched × Dev) lv =>
    let idx := i / 8 ^ (lv - h)
    let x := fetchNode r.2 g lv idx
    (r.1 ++ [{ level := lv, idx, got := x.1 }], incR x.2 (rEncStatus e 1) 31 0 1)) ([], s)

/-- Walks and write-backs of engine `e`, on behalf of the request with header `hdr` (R349). A node whose write-back is refused stays
dirty in the cache (R352, R353), and another makes room: the clean one that was used longest ago. -/
def tree (e : Nat) (hdr : BitVec 64) : Nat → TreeReq → Dev → NodeOut × Dev
  | 0, _, s => (.code rspTimeout, s)
  | fuel + 1, .ensure k h i, s =>
    let g := shareOf s e k
    match lowestCached s e k g.top h i with
    | some n =>
      let s := cachePut s e n
      if n.level = h then (.ok n.val, s)
      else let r := fetchPath s e g (n.level - 1) h i; tree e hdr fuel (.verify k n.val r.1) r.2
    | none => let r := fetchPath s e g g.top h i; tree e hdr fuel (.verify k 0 r.1) r.2
  | _ + 1, .verify _ pv [], s => (.ok pv, s)
  | fuel + 1, .verify k pv (x :: xs), s =>
    let g := shareOf s e k
    let key := (getSlot s e (getRange s k).slot).key
    let c := if g.top ≤ x.level then rootCounter s e k x.idx else nodeCounter pv (x.idx % 8)
    match x.got with
    | .error c => (.code c, s)
    | .ok (ws, t) =>
      if ws.any (fun w => w.2.1) || t.2.1 then (.unknown, markUnknown s e k x.level x.idx hdr)
      else
        let v := nodeOf (ws.map (·.1))
        if nodeTag key g x.level x.idx c v ≠ t.1 then (.tagFail, tagFailure s e true false (g.nodeAddr x.level x.idx) hdr)
        else match tree e hdr fuel .room s with
          | (.ok _, s) =>
            tree e hdr fuel (.verify k v xs) (cachePut s e { rng := k, level := x.level, idx := x.idx, val := v, dirty := false })
          | other => other
  | fuel + 1, .room, s =>
    let l := (getEng s e).cache
    if l.length < cacheNodes then (.ok 0, s)
    else match l.getLast? with
      | none => (.ok 0, s)
      | some x =>
        let s := updEng s e fun g => { g with cache := g.cache.dropLast }
        if !x.dirty then (.ok 0, s)
        else match tree e hdr fuel (.writeBack x) s with
          | (.ok _, s) => tree e hdr fuel .room s
          | (o, s) => match (getEng s e).cache.reverse.find? fun n => !n.dirty with
            | some n => (.ok 0, updEng s e fun g => { g with cache := g.cache.filter (· ≠ n) })
            | none => (o, s)
  | fuel + 1, .writeBack n, s =>
    let g := shareOf s e n.rng
    let key := (getSlot s e (getRange s n.rng).slot).key
    let keep := fun (s : Dev) => updEng s e fun x => { x with cache := x.cache ++ [n] }
    let up := if g.top ≤ n.level then (NodeOut.ok 0, s) else tree e hdr fuel (.ensure n.rng (n.level + 1) (n.idx / 8)) s
    match up with
    | (.ok pv, s) =>
      let c := (if g.top ≤ n.level then rootCounter s e n.rng n.idx else nodeCounter pv (n.idx % 8)) + 1
      let a := g.nodeAddr n.level n.idx
      match metaCode s a, metaCode s (g.nodeTagAddr n.level n.idx) with
      | none, none =>
        if c = counterLimit then (.code rspCounterExhausted, keep (exhaust s e n.rng a hdr))
        else
          let s := if g.top ≤ n.level then setRoot s e n.rng n.idx c
            else
              let j := n.idx % 8
              cachePut s e { rng := n.rng, level := n.level + 1, idx := n.idx / 8
                             val := putFld pv (56 * j + 55) (56 * j) c, dirty := true }
          let s := raiseHw s e n.rng c
          let tag := nodeTag key g n.level n.idx c n.val
          let ws := nodeWords n.val
          let body := if n.level ≤ 1 then ws else ws.take 7
          (.ok n.val, memSets s (((body.zipIdx).map fun x => (a + 8 * x.2, encodeWord x.1 false)) ++
            [(g.nodeTagAddr n.level n.idx, encodeWord tag false)]))
      | some c, _ | none, some c => (.code c, keep s)
    | (o, s) => (o, keep s)

/-- Steps of a walk with every write-back that it may cause. -/
def treeFuel : Nat := 8192

/-- Verify a node. -/
def ensureNode (s : Dev) (e k h i : Nat) (hdr : BitVec 64) : NodeOut × Dev := tree e hdr treeFuel (.ensure k h i) s

/-- Write back every dirty node of an engine, lowest level first, so that no written node becomes dirty again (R358). -/
def flushCache (s : Dev) (e : Nat) : Dev :=
  (List.range 12).foldl (fun s h =>
    ((getEng s e).cache.filter fun n => n.level = h + 1 && n.dirty).foldl (fun s n =>
      match cached s e n.rng n.level n.idx with
      | none => s
      | some m =>
        let s := updEng s e fun g => { g with cache := g.cache.filter fun x => x ≠ m }
        (tree e 0 treeFuel (.writeBack m) s).2) s) s

end Sys2Proof.Machine
end

