-- ==== Sys2Proof/Machine/Engines.lean ====
section
/-! DEFINITION. The encryption engines (R333 to R354): rights, slot selection, and how lines are opened and sealed. -/

namespace Sys2Proof.Machine

/-- Raise a fault at most once per 1 ms (R310, R338). -/
def dueAgain (last : Option Nat) (now : Nat) : Bool :=
  match last with
  | none => true
  | some t => t + 1000000 ≤ now

/-! ## Requesters and rights (R339, R340) -/

/-- Agent of a request (R339): tag bits [11:9] for a PCI Express controller, else 0. -/
def agentOf (src tag : Nat) : Nat := if ((List.range 4).map pcieAddr).contains src then tag / 512 % 8 else 0

/-- Requests that bypass the rights table and the metadata check (R339). -/
def bypasses (src port : Nat) : Bool :=
  port = 0 && ((List.range 8).map ddrAddr ++ (List.range 4).map sramAddr).contains src

/-- Entry `n` matches a requester (R340). -/
def rightsMatch (s : Dev) (n src port agent : Nat) : Bool :=
  let w := getR s (rRights n 0)
  bit w 63 && (src &&& fld w 17 9) = (fld w 8 0 &&& fld w 17 9) && (bit w 25 || port = fld w 27 26) &&
    (bit w 31 || agent = fld w 34 32)

/-- The lowest-numbered valid entry that matches. -/
def rightsEntry (s : Dev) (src port agent : Nat) : Option Nat :=
  (List.range 64).find? fun n => rightsMatch s n src port agent

/-- Entry `n` permits an operation on slot `slot`. -/
def rightsPermit (s : Dev) (n slot : Nat) (op : ReqOp) : Bool :=
  let rd := bitR s (rRights n 1) slot
  let wr := bitR s (rRights n 2) slot
  if op = .rd then rd else if isWrite op then wr else rd && wr

/-! ## Selection (R337, R338, R355) -/

/-- The defined range of memory system `m` that holds an address without its key field. -/
def rangeAt (s : Dev) (m a : Nat) : Option Nat :=
  ((List.range 8).map fun r => 8 * m + r).find? fun k =>
    let r := getRange s k
    r.state ≠ .undefined && r.base ≤ a && a < r.base + r.size

/-- Slot selected for a byte, with the range that selected it. -/
def selectSlot (s : Dev) (m addr key : Nat) : Nat × Option Nat :=
  match keySel s m with
  | .address => (nbits addr 45 42, none)
  | .header => (key, none)
  | .range =>
    match rangeAt s m (plainAddr addr) with
    | some k => ((getRange s k).slot, some k)
    | none => (if m = 0 then fldR s rEncCfg 5 0 else fldR s rEncCfg 13 8, none)

/-- A byte range meets the metadata region of a defined integrity range of memory system `m`. -/
def inMetadata (s : Dev) (m lo hi : Nat) : Bool :=
  (List.range 8).any fun r =>
    let k := 8 * m + r
    let g := getRange s k
    let geo := shareOf s 99 k
    g.state ≠ .undefined && g.integrity && g.metaBase < hi && lo < g.metaBase + geo.ways * geo.sliceSize

/-- Engine `e` refuses a request (R338): counted, recorded, its fault raised. -/
def denyRequest (s : Dev) (e reason port addr : Nat) (hdr : BitVec 64) : Dev :=
  let s := incR s (rEncStatus e 0) 15 0 1
  let s := encRecord s e 4 addr hdr
  if dueAgain (getEng s e).deniedAt (timeNs s) then
    let now := timeNs s
    raiseD (updEng s e fun g => { g with deniedAt := some now }) fltKeyDenied
      (e * 2 ^ 60 + reason * 2 ^ 58 + port % 4 * 2 ^ 56 + addr % 2 ^ 48)
  else s

/-- What an engine needs of a request to check it. -/
structure Asker where
  src : Nat
  port : Nat
  tag : Nat
  key : Nat
  hdr : BitVec 64
  deriving DecidableEq, Repr

/-- The code for which engine `e` refuses a request after its checks: R338, then, for one that enables a byte, R355, R356 and R352, for
every range that it reaches; and what it selected. The rights and the metadata check do not apply again to a part forwarded under
R321 (R333, R339). A range is at least 4 KiB, so a request reaches no range but those of its first and its last byte. -/
def engineCheck (s : Dev) (e m : Nat) (who : Asker) (op : ReqOp) (addr len first last : Nat) : (Option Nat × KeyCtx) × Dev :=
  let r := reqRange addr len first last
  let hi := r.2 - 1
  let a := selectSlot s m r.1 who.key
  let b := selectSlot s m hi who.key
  let sl := getSlot s e a.1
  let ctx : KeyCtx := { mode := sl.mode, key := sl.key, rng := if sl.mode = .gcm then a.2 else none }
  let deny := fun (s : Dev) n => ((some rspDenied, ctx), denyRequest s e n who.port addr who.hdr)
  let blocked := fun (k : Nat) =>
    let g := getRange s k
    g.state = .initialising || g.state = .lost || (match s.enc.reinit with
      | some x => x.rng = k && (g.engines.findIdx? (· = e)) = some x.share &&
          ((List.range ((hi - r.1) / 64 + 2)).any fun i =>
            underNode x.level x.idx ((shareOf s e k).lineOf (min (plainAddr r.1 + 64 * i) (plainAddr hi))))
      | none => false)
  let ranges := (a.2.toList ++ b.2.toList).eraseDups
  let states := fun (s : Dev) =>
    if enablesNone len first last then ((none, ctx), s)
    else if ranges.any blocked then ((some rspNotInit, ctx), s)
    else if op ≠ .rd && ranges.any (fun k => (getRange s k).exhausted) then
      ((some rspCounterExhausted, ctx), incR s (rEncStatus e 1) 63 48 1)
    else ((none, ctx), s)
  if bypasses who.src who.port then states s
  else if a.1 ≠ b.1 then deny s 0
  else if sl.mode = .gcm && !(a.2.isSome && a.2 = b.2 && sl.bound = a.2) then deny s 1
  else if inMetadata s m (plainAddr r.1) (plainAddr hi + 1) then deny s 2
  else
    let verdict := match rightsEntry s who.src who.port (agentOf who.src who.tag) with
      | none => (false, s)
      | some n => (rightsPermit s n a.1 op, incR s (rRights n 3) 31 0 1)
    if !verdict.1 then deny verdict.2 3 else states verdict.2

/-- Every defined range of memory system `m` becomes LOST (R355): cause, and the channel or die. -/
def loseRanges (m cause n : Nat) (s : Dev) : Dev :=
  (List.range 8).foldl (fun s r =>
    let g := getRange s (8 * m + r)
    if g.state = .undefined || g.state = .lost then s
    else raiseD (updRange s (8 * m + r) fun g => { g with state := .lost }) fltRangeLost
      (m * 2 ^ 63 + r * 2 ^ 60 + cause * 2 ^ 56 + n * 2 ^ 52 + g.base % 2 ^ 48)) s

/-! ## Opening a line -/

/-- A word with its poison. -/
abbrev Plain := Word × Bool

/-- Eight poisoned words of undefined value (R354). -/
def poisonedLine (s : Dev) : List (Nat × Plain) × Dev :=
  (List.range 8).foldl (fun (r : List (Nat × Plain) × Dev) w =>
    let x := takeWord r.2
    (r.1 ++ [(w, (x.1, true))], x.2)) ([], s)

/-- Bytes of words. -/
def plainBytes (l : List Plain) : List Nat := wordBytes (l.map (·.1))

/-- Decrypt a stored GCM line with its leaf and its tag as fetched: plaintext with poison, whether a word is UNCORRECTABLE, whether
the tag matches; decoded words are counted. -/
def openGcm (s : Dev) (key : List Nat) (g : TreeGeo) (l : Nat) (leaf : BitVec 512) (t : Word × Bool × Bool) :
    (List Plain × Bool × Bool) × Dev :=
  let addr := lineAddr s g l
  let iv := lineIv g l (leafMajor leaf) (leafMinor leaf (l % 64))
  let r := memDecodes s ((List.range 8).map fun w => addr + 8 * w)
  let ct := wordBytes (r.1.map (·.1))
  let poison := r.1.map fun x => x.2.1
  let unc := (r.1.any fun x => x.2.2) || t.2.2
  let good := tagWord (gcmTag key iv (lineAad addr poison) ct) = t.1
  (((bytesWords (gcmCtr key iv ct)).zip poison, unc, good), r.2)

/-- What a line under an unknown node gives (R354): a read, every word poisoned; a write or atomic, INTEGRITY_UNKNOWN. -/
def unknownLine (s : Dev) (e k l : Nat) (isRead : Bool) : (Nat × List (Nat × Plain)) × Dev :=
  if isRead then let p := poisonedLine (unknownRead s e k l); ((0, p.1), p.2) else ((rspIntegrityUnknown, []), s)

/-- Plaintext words of a line that engine `e` needs for a read, or for a write or atomic: the wanted words, for XTS their whole AES
blocks, for GCM the line. The code is a refusal of the access (R343, R349, R353, R354). -/
def openWords (s : Dev) (e : Nat) (ctx : KeyCtx) (line : Nat) (want : List Nat) (hdr : BitVec 64) (isRead : Bool) :
    (Nat × List (Nat × Plain)) × Dev :=
  let base := plainAddr line / 64 * 64
  match ctx.mode, ctx.rng with
  | .xts, _ =>
    let blocks := (List.range 4).filter fun j => want.any fun w => w / 2 = j
    let r := blocks.foldl (fun (r : List (Nat × Plain) × Dev) j =>
      let x := memDecodes r.2 [base + 16 * j, base + 16 * j + 8]
      let unc := x.1.any fun y => y.2.2
      let pt := bytesWords (xtsDec ctx.key (base / 64) j (wordBytes (x.1.map (·.1))))
      (r.1 ++ (pt.zipIdx.map fun y => (2 * j + y.2, (y.1, unc || (nth (0, false, false) x.1 y.2).2.1))), x.2)) ([], s)
    ((0, r.1), r.2)
  | .gcm, some k =>
    let g := shareOf s e k
    let l := g.lineOf base
    if isUnknown s e k l then unknownLine s e k l isRead
    else
      let tag := match metaCode s (g.tagAddr l) with
        | some c => (Except.error c, s)
        | none => let t := memDecode s (g.tagAddr l); (.ok t.1, t.2)
      match ensureNode tag.2 e k 1 (l / 64) hdr with
      | (.code c, s) => ((c, []), s)
      | (.tagFail, s) => ((rspBusError, []), s)
      | (.unknown, s) => unknownLine s e k l isRead
      | (.ok leaf, s) =>
        match tag.1 with
        | .error c => ((c, []), s)
        | .ok t =>
          let x := openGcm s ctx.key g l leaf t
          let (pt, unc, good) := x.1
          if unc then ((0, pt.zipIdx.map fun y => (y.2, (y.1.1, true))), x.2)
          else if good then ((0, pt.zipIdx.map fun y => (y.2, y.1)), x.2)
          else ((rspBusError, []), tagFailure x.2 e false false base hdr)
  | _, _ =>
    let r := memDecodes s (want.map fun w => base + 8 * w)
    ((0, (want.zip r.1).map fun x => (x.1, (x.2.1, x.2.2.1))), r.2)

/-! ## Sealing a line -/

/-- A word to write: its byte mask and the word as carried. -/
structure WordWrite where
  w : Nat
  mask : Nat
  val : PWord
  deriving DecidableEq, Repr

/-- Word `w` after the writes, from its old plaintext (R41). -/
def mergedWord (old : List (Nat × Plain)) (ws : List (WordWrite × Plain)) (w : Nat) : Plain :=
  let o := alGet (0, false) old w
  match ws.find? fun x => x.1.w = w with
  | none => o
  | some (x, v) => if x.mask = 255 then v else (mergeBytes ((List.range 8).map fun b => x.mask.testBit b) o.1 v.1, o.2 || v.2)

/-- The writes whose words the memory or engine decodes, decoded and counted: partial words in plaintext (in the memory's own
log), every word under a key (in the engine's count, R35, R42). -/
def decodeWrites (s : Dev) (e : Nat) (ctx : KeyCtx) (line src : Nat) (ws : List WordWrite) : List (WordWrite × Plain) × Dev :=
  ws.foldl (fun (r : List (WordWrite × Plain) × Dev) x =>
    let d := decodeWord x.val
    let v : Plain := (d.data, d.poison || d.outcome = .uncorrectable)
    let s := if ctx.mode ≠ .plaintext then eccTransit r.2 (uEngine e) src x.val
      else if x.mask = 255 then r.2
      else let a := plainAddr line / 64 * 64 + 8 * x.w; eccNote r.2 (storeUnit r.2 a) a x.val
    (r.1 ++ [(x, v)], s)) ([], s)

/-- Words of the unit whose old plaintext a write needs. -/
def needsOld (ctx : KeyCtx) (ws : List WordWrite) : List Nat :=
  let whole := fun w => ws.any fun x => x.w = w && x.mask = 255
  match ctx.mode with
  | .plaintext => (ws.filter fun x => x.mask ≠ 255).map (·.w)
  | .xts => (List.range 8).filter fun w => (ws.any fun x => x.w / 2 = w / 2) && !(whole (w / 2 * 2) && whole (w / 2 * 2 + 1))
  | .gcm => if (List.range 8).all whole then [] else List.range 8

/-- Re-encrypt a leaf's other lines at a minor overflow (R350): the stores to make. -/
def overflowLines (s : Dev) (e : Nat) (key : List Nat) (g : TreeGeo) (l : Nat) (leaf : BitVec 512) (hdr : BitVec 64) :
    List (Nat × PWord) × Dev :=
  let major := leafMajor leaf + 1
  ((List.range 64).filter fun j => j ≠ l % 64).foldl (fun (r : List (Nat × PWord) × Dev) j =>
    let k := l / 64 * 64 + j
    let addr := lineAddr r.2 g k
    let t := memDecode r.2 (g.tagAddr k)
    let x := openGcm t.2 key g k leaf t.1
    let (pt, unc, good) := x.1
    let stored := (List.range 8).map fun w => decide ((decodeWord (memGet r.2 (addr + 8 * w))).outcome = .uncorrectable)
    let bad := !good && !unc
    let ws : List Plain := if bad then List.replicate 8 (0, true)
      else pt.zipIdx.map fun y => (y.1.1, y.1.2 || nth false stored y.2)
    let s := if bad then tagFailure x.2 e false true addr hdr else x.2
    let y := sealWords key g k addr major 0 ws
    (r.1 ++ (y.1.zipIdx.map fun z => (addr + 8 * z.2, encodeWord z.1.1 z.1.2)) ++ [(g.tagAddr k, encodeWord y.2 false)], s))
    ([], s)

/-- Write entries that a DDR5 channel holds for the lines of a leaf are stored before an overflow touches them (R350, "other
accesses to the leaf's lines wait until the overflow is complete"; DEDUCED, assumption 15). -/
def flushEntries (s : Dev) (c : Nat) (lines : List Nat) : Dev :=
  let go := fun (s : Dev) (l : List DdrEntry) => l.foldl (fun (s : Dev) x =>
    if lines.contains x.line then memSets s x.data else s) s
  let keep := fun (l : List DdrEntry) => l.filter fun x => !lines.contains x.line
  let stop := fun (x : SubChannel) => { x with writes := keep x.writes, last := x.last.filter fun y => !lines.contains y.1.line }
  let ch := getCh s c
  let s := go (go s ch.sub0.writes) ch.sub1.writes
  updCh s c fun ch =>
    { ch with sub0 := stop ch.sub0, sub1 := stop ch.sub1 }

/-- The stores that a write makes, from the old plaintext: a code that refuses it, or the words with their device addresses
(R343, R350, R352, R354). -/
def sealFrom (s : Dev) (e : Nat) (ctx : KeyCtx) (line : Nat) (old : List (Nat × Plain)) (ws : List (WordWrite × Plain))
    (hdr : BitVec 64) : (Nat × List (Nat × PWord)) × Dev :=
  let base := plainAddr line / 64 * 64
  match ctx.mode, ctx.rng with
  | .xts, _ =>
    let blocks := (List.range 4).filter fun j => ws.any fun x => x.1.w / 2 = j
    ((0, blocks.flatMap fun j =>
      let a := mergedWord old ws (2 * j)
      let b := mergedWord old ws (2 * j + 1)
      let ct := bytesWords (xtsEnc ctx.key (base / 64) j (plainBytes [a, b]))
      [(base + 16 * j, encodeWord (nth 0 ct 0) a.2), (base + 16 * j + 8, encodeWord (nth 0 ct 1) b.2)]), s)
  | .gcm, some k =>
    let g := shareOf s e k
    let l := g.lineOf base
    if (getRange s k).exhausted then ((rspCounterExhausted, []), incR s (rEncStatus e 1) 63 48 1)
    else if isUnknown s e k l then ((rspIntegrityUnknown, []), s)
    else match ensureNode s e k 1 (l / 64) hdr with
      | (.code c, s) => ((c, []), s)
      | (.tagFail, s) => ((rspBusError, []), s)
      | (.unknown, s) => ((rspIntegrityUnknown, []), s)
      | (.ok leaf, s) =>
        let new := (List.range 8).map (mergedWord old ws)
        match metaCode s (g.tagAddr l) with
        | some c => ((c, []), s)
        | none =>
        let put := fun (s : Dev) major minor (leaf : BitVec 512) (extra : List (Nat × PWord)) =>
          let y := sealWords ctx.key g l base major minor new
          let s := cachePut s e { rng := k, level := 1, idx := l / 64, val := leaf, dirty := true }
          let s := memSet s (g.tagAddr l) (encodeWord y.2 false)
          ((0, (y.1.zipIdx.map fun z => (base + 8 * z.2, encodeWord z.1.1 z.1.2))), memSets s extra)
        let minor := leafMinor leaf (l % 64)
        if minor < 127 then
          let j := l % 64
          put s (leafMajor leaf) (minor + 1) (putFld leaf (62 + 7 * j) (56 + 7 * j) (minor + 1)) []
        else
          let major := leafMajor leaf + 1
          if major = counterLimit then
            ((rspCounterExhausted, []), incR (exhaust s e k base hdr) (rEncStatus e 1) 63 48 1)
          else
            let s := incR s (rEncStatus e 1) 47 32 1
            let lines := (List.range 64).map fun j => lineAddr s g (l / 64 * 64 + j) % 2 ^ 42 / 64
            let s := if e < 8 then flushEntries s e lines else s
            let o := overflowLines s e ctx.key g l leaf hdr
            put (raiseHw o.2 e k major) major 0 (BitVec.ofNat 512 major) o.1
  | _, _ =>
    ((0, ws.map fun x =>
      let v := mergedWord old ws x.1.w
      (base + 8 * x.1.w, if x.1.mask = 255 then x.1.val else encodeWord v.1 v.2)), s)

/-- Seal the writes of a line, opening what they need first (R41, R343, R350). -/
def sealLine (s : Dev) (e : Nat) (ctx : KeyCtx) (line src : Nat) (ws : List WordWrite) (hdr : BitVec 64) :
    (Nat × List (Nat × PWord)) × Dev :=
  let unknown := match ctx.mode, ctx.rng with
    | .gcm, some k => isUnknown s e k ((shareOf s e k).lineOf (plainAddr line / 64 * 64))
    | _, _ => false
  if unknown then ((rspIntegrityUnknown, []), s)
  else
    let need := needsOld ctx ws
    let o := if need.isEmpty then ((0, []), s) else openWords s e ctx line need hdr false
    if o.1.1 ≠ 0 then ((o.1.1, []), o.2)
    else
      let d := decodeWrites o.2 e ctx line src ws
      sealFrom d.2 e ctx line o.1.2 d.1 hdr

/-- Result of an atomic from the old value and its operands (R284): the value to write, if any. -/
def atomicResult (op : ReqOp) (old a b : Word) : Option Word :=
  match op with
  | .fadd => some (old + a)
  | .swap => some a
  | .cas => if old = a then some b else none
  | _ => none

/-- An atomic on word `w` of a line (R284): a code, the old word, the stores. A poisoned old value is returned and nothing is
written. -/
def atomicLine (s : Dev) (e : Nat) (ctx : KeyCtx) (line w : Nat) (op : ReqOp) (a b : Word) (hdr : BitVec 64) :
    (Nat × PWord × List (Nat × PWord)) × Dev :=
  let unknown := match ctx.mode, ctx.rng with
    | .gcm, some k => isUnknown s e k ((shareOf s e k).lineOf (plainAddr line / 64 * 64))
    | _, _ => false
  if unknown then ((rspIntegrityUnknown, clean 0, []), s)
  else
    let o := openWords s e ctx line [w] hdr false
    if o.1.1 ≠ 0 then ((o.1.1, clean 0, []), o.2)
    else
      let v := alGet (0, false) o.1.2 w
      let old := encodeWord v.1 v.2
      if v.2 then ((0, old, []), o.2)
      else match atomicResult op v.1 a b with
        | none => ((0, old, []), o.2)
        | some n =>
          let x : WordWrite × Plain := ({ w, mask := 255, val := encodeWord n false }, (n, false))
          let r := sealFrom o.2 e ctx line o.1.2 [x] hdr
          ((r.1.1, old, r.1.2), r.2)

/-- Words of a line that a read returns, as the memory re-encodes them (R37, R343, R353). -/
def readLine (s : Dev) (e : Nat) (ctx : KeyCtx) (line : Nat) (want : List Nat) (hdr : BitVec 64) :
    (Nat × List (Nat × PWord)) × Dev :=
  let o := openWords s e ctx line want hdr true
  ((o.1.1, (o.1.2.filter fun x => want.contains x.1).map fun x => (x.1, encodeWord x.2.1 x.2.2)), o.2)

end Sys2Proof.Machine
end

