-- ==== Sys2Proof/Machine/Benches.lean ====
section
/-! DEFINITION. Bench arithmetic: operands, modes, accumulators, rounding, poison and cascade (chapter 04). -/

namespace Sys2Proof.Machine

/-- The fields of the Bench at a site; an unconfigured Bench has every field 0. -/
def benchCfg (l : List Setting) (col site : Nat) : BenchCfg :=
  (l.findSome? fun
    | .bench c s g => if c.val = col && s.val = site then some g else none
    | _ => none).getD {}

/-- Sample `i` (0 to 2) of a triplet word, 0 when its valid bit is 0 (R33, R77). -/
def tripletSample (t : Word) (i : Nat) : BitVec 20 :=
  if t.getLsbD (60 + i) then BitVec.ofNat 20 (fld t (20 * i + 19) (20 * i)) else 0

/-- A triplet word from its samples with their valid bits and the event marker (R33, R34). -/
def packTriplet (s : List (Bool × BitVec 20)) (evt : Bool) : Word :=
  let put := fun (i : Nat) => match nth (false, 0) s i with
    | (true, v) => v.toNat * 2 ^ (20 * i) + 2 ^ (60 + i)
    | (false, _) => 0
  BitVec.ofNat 64 (put 0 + put 1 + put 2 + evt.toNat * 2 ^ 63)

/-- One operand under its tsel field (R77): routing, or the named sample when a triplet source is set. -/
def selectOperand (tsrc tsel : BitVec 2) (route : BitVec 20) (t : Word) : BitVec 20 :=
  if tsrc = 0 || tsel = 0 then route else tripletSample t (tsel.toNat - 1)

/-- The pre-adder function on sign-extended operands (R78). -/
def preAdd (op : BitVec 2) (a d : BitVec 20) : Int :=
  match op.toNat with
  | 0 => a.toInt
  | 1 => d.toInt + a.toInt
  | 2 => d.toInt - a.toInt
  | _ => a.toInt - d.toInt

/-- tsrc as it acts: WIDE mode treats it as 0 (R80). -/
def effTsrc (g : BenchCfg) : BitVec 2 := if g.mode = .wide then 0 else g.tsrc

/-- What the operand cascade of the Bench below offers (R88): its A0 and A1 input registers, delayed by one cycle more
under opd_delay, each with whether it came from a poisoned word (R87). DEDUCED, assumption 11. -/
def operandCascade (g : BenchCfg) (below : Bench) : List (BitVec 20 × Bool) :=
  let e := nth {} below.pipe (if g.opdDelay then 1 else 0)
  [(nth 0 e.a 0, nth false e.pA 0), (nth 0 e.a 1, nth false e.pA 1)]

/-- The operands captured at an edge (R75, R77, R88, R91). `t`, `tp` are the triplet word and its poison flag from the
source that tsrc selects; `casc` is the operand cascade. -/
def captureOperands (g : BenchCfg) (x : BenchIn) (t : Word) (tp : Bool) (casc : List (BitVec 20 × Bool)) : BenchCap :=
  let tsrc := effTsrc g
  let sel := fun (ts : List (BitVec 2)) (rt : List (BitVec 20)) (k : Nat) => selectOperand tsrc (nth 0 ts k) (nth 0 rt k) t
  let useCasc := g.cascadeOpd && nth 0 g.tselA 0 = 0 && nth 0 g.tselA 1 = 0
  let mark := fun (ts : List (BitVec 2)) (k : Nat) => tsrc ≠ 0 && tp && nth 0 ts k ≠ 0
  let a := (List.range 4).map (sel g.tselA x.a)
  let pA := (List.range 4).map (mark g.tselA)
  let (a, pA) := if useCasc then (casc.map (·.1) ++ a.drop 2, casc.map (·.2) ++ pA.drop 2) else (a, pA)
  { a, b := (List.range 4).map (sel g.tselB x.b), d0 := x.d0, d1 := x.d1, c := x.c, clr0 := x.clr0, clr1 := x.clr1,
    evt := tsrc ≠ 0 && t.getLsbD 63, pA, pB := (List.range 4).map (mark g.tselB) }

/-- Operand A_k as the mode uses it: pre-added for k = 0 and 1 (R78), except in WIDE mode (R80). -/
def operandA (g : BenchCfg) (e : BenchCap) (k : Nat) : Int :=
  let a := nth 0 e.a k
  if g.mode = .wide then a.toInt
  else if k = 0 then preAdd g.preOp0 a e.d0
  else if k = 1 then preAdd g.preOp1 a e.d1
  else a.toInt

/-- Operand B_k. -/
def operandB (e : BenchCap) (k : Nat) : Int := (nth 0 e.b k).toInt

/-- The sums that enter ACC0 and ACC1 (R79). In WIDE mode the first is the sum for ACCW. -/
def benchSums (g : BenchCfg) (e : BenchCap) : Int × Int :=
  let A := operandA g e
  let B := operandB e
  match g.mode with
  | .quad => (0, 0)
  | .dual => (A 0 * B 0 + A 1 * B 1, A 2 * B 2 + A 3 * B 3)
  | .complex =>
    if g.conj then (A 0 * B 0 + A 1 * B 1, A 1 * B 0 - A 0 * B 1)
    else (A 0 * B 0 - A 1 * B 1, A 0 * B 1 + A 1 * B 0)
  | .wide =>
    let a0u : Int := (nth 0 e.a 0).toNat
    let b0u : Int := (nth 0 e.b 0).toNat
    (2 ^ 40 * (A 1 * B 1) + 2 ^ 20 * (A 1 * b0u + a0u * B 1) + a0u * b0u, 0)

/-- Whether any operand A or B among the indices comes from a poisoned word (R87). -/
def operandPoison (e : BenchCap) (ks : List Nat) : Bool := ks.any fun k => nth false e.pA k || nth false e.pB k

/-- Whether a poisoned word contributes to the sums of ACC0 and ACC1 (R87). -/
def contribPoison (g : BenchCfg) (e : BenchCap) : Bool × Bool :=
  match g.mode with
  | .dual => (operandPoison e [0, 1], operandPoison e [2, 3])
  | .quad => (false, false)
  | _ => (operandPoison e [0, 1], operandPoison e [0, 1])

/-- One accumulation of `width` bits (R81, R82, R87): term chosen by acc_in and CLR, wrapped sum, sticky overflow and
poison flags. Answers the value, the overflow flag and the poison flag. -/
def accumulate (width : Nat) (accIn : BitVec 2) (clr : Bool) (own casc : Int) (c : Int) (sum : Int) (ovf flag cascFlag contrib : Bool) :
    Int × Bool × Bool :=
  let fresh := clr || accIn = 1
  let term := if fresh then 0 else match accIn.toNat with
    | 0 => own
    | 2 => c
    | _ => casc
  let v := term + sum
  let beyond := v < -(2 ^ (width - 1)) || v ≥ 2 ^ (width - 1)
  let f := contrib || (!fresh && (flag || (accIn = 3 && cascFlag)))
  (sint width (wrap width v), beyond || (ovf && !fresh), f)

/-- The value of ACCW, ACC1 beyond ACC0 (R79). -/
def accW (hi lo : Word) : Int := sint 128 (hi.toNat * 2 ^ 64 + lo.toNat)

/-- The accumulator stage for the capture `e`, with `below` the Bench below as it stood before the edge. -/
def accumulateStage (g : BenchCfg) (s below : Bench) (e : BenchCap) : Bench :=
  let (m0, m1) := benchSums g e
  let (p0, p1) := contribPoison g e
  match g.mode with
  | .quad => s
  | .wide =>
    let (v, o, f) := accumulate 128 g.accIn0 e.clr0 (accW s.acc1 s.acc0) (accW below.acc1 below.acc0) e.c.toInt m0
      s.ovf0 (s.flag0 || s.flag1) (below.flag0 || below.flag1) p0
    let n := wrap 128 v
    { s with acc0 := BitVec.ofNat 64 n, acc1 := BitVec.ofNat 64 (n / 2 ^ 64), ovf0 := o, flag0 := f, flag1 := f }
  | _ =>
    let (v0, o0, f0) := accumulate 64 g.accIn0 e.clr0 s.acc0.toInt below.acc0.toInt e.c.toInt m0 s.ovf0 s.flag0 below.flag0 p0
    let (v1, o1, f1) := accumulate 64 g.accIn1 e.clr1 s.acc1.toInt below.acc1.toInt e.c.toInt m1 s.ovf1 s.flag1 below.flag1 p1
    { s with acc0 := BitVec.ofInt 64 v0, acc1 := BitVec.ofInt 64 v1, ovf0 := o0, ovf1 := o1, flag0 := f0, flag1 := f1 }

/-- Rounding of v / 2^s (R83). -/
def roundShift (mode : BitVec 2) (v : Int) (s : Nat) : Int :=
  let d : Int := 2 ^ s
  if s = 0 then v
  else match mode.toNat with
    | 0 => v.fdiv d
    | 1 => (v + 2 ^ (s - 1)).fdiv d
    | 2 =>
      let q := v.fdiv d
      let r := v - q * d
      if 2 * r > d || (2 * r = d && q % 2 ≠ 0) then q + 1 else q
    | _ => v.tdiv d

/-- The output width (R83). -/
def outWidth (g : BenchCfg) : Nat :=
  if g.mode = .quad then 20 else match g.satWidth.toNat with
    | 0 => 20
    | 1 => 40
    | _ => 64

/-- Round and saturate, or wrap (R83): the result and whether it was saturated. -/
def outputStage (g : BenchCfg) (v : Int) : Int × Bool :=
  let r := roundShift g.roundMode v g.outShift.toNat
  let w := outWidth g
  if g.satWidth = 3 then (sint w (wrap w r), false)
  else if r > 2 ^ (w - 1) - 1 then (2 ^ (w - 1) - 1, true)
  else if r < -(2 ^ (w - 1)) then (-(2 ^ (w - 1)), true)
  else (r, false)

/-- The outputs for the capture `e` (R84, R85, R87), from the accumulators as they stood before the edge. -/
def outputsFor (g : BenchCfg) (s : Bench) (e : BenchCap) : Bench :=
  let s := { s with evt := e.evt }
  let noSat := fun b : Bool => b && !g.outRaw
  match g.mode with
  | .quad =>
    let r := fun k => outputStage g (operandA g e k * operandB e k)
    let smp := fun k => (true, BitVec.ofInt 20 (r k).1)
    { s with
      out0 := packTriplet [smp 0, smp 1, smp 2] e.evt
      out1 := packTriplet [smp 3] e.evt
      sat0 := noSat ((r 0).2 || (r 1).2 || (r 2).2), sat1 := noSat (r 3).2
      poison0 := operandPoison e [0, 1, 2], poison1 := operandPoison e [3] }
  | .wide =>
    let (r, t) := outputStage g (accW s.acc1 s.acc0)
    { s with
      out0 := if g.outRaw then s.acc0 else BitVec.ofInt 64 r
      out1 := s.acc1, sat0 := noSat t, sat1 := false
      poison0 := s.flag0 || (s.flag1 && !g.outRaw), poison1 := s.flag1 }
  | _ =>
    let (r0, t0) := outputStage g s.acc0.toInt
    let (r1, t1) := outputStage g s.acc1.toInt
    let packed := g.pack && g.satWidth = 0 && !g.outRaw
    { s with
      out0 := if g.outRaw then s.acc0
        else if packed then packTriplet [(true, BitVec.ofInt 20 r0), (true, BitVec.ofInt 20 r1)] e.evt
        else BitVec.ofInt 64 r0
      out1 := if g.outRaw then s.acc1 else BitVec.ofInt 64 r1
      sat0 := noSat (t0 || (packed && t1)), sat1 := noSat t1
      poison0 := s.flag0 || (packed && s.flag1), poison1 := s.flag1 }

/-- Bench clock edges from capture to result (R91). -/
def benchLatency (g : BenchCfg) : Nat :=
  match g.mode with
  | .wide => 6
  | .quad => if g.preOp0 ≠ 0 || g.preOp1 ≠ 0 then 4 else 3
  | _ => if g.preOp0 ≠ 0 || g.preOp1 ≠ 0 then 5 else 4

/-- One enabled edge of a Bench (R90, R91): capture, accumulate the capture of L − 1 edges before, put out that of L edges
before. -/
def benchEdge (g : BenchCfg) (s below : Bench) (x : BenchCap) : Bench :=
  let L := benchLatency g
  let pipe := (x :: s.pipe).take 7
  let o := outputsFor g s (nth {} pipe L)
  let n := accumulateStage g o below (nth {} pipe (L - 1))
  { n with pipe }

/-- What a Bench site puts on a column bus lane: bits [66:0] of R86. -/
def benchLane (g : BenchCfg) (s : Bench) : Nat :=
  let (o, p, t) := if g.laneSrc then (s.out1, s.poison1, s.sat1) else (s.out0, s.poison0, s.sat0)
  o.toNat + p.toNat * 2 ^ 64 + s.evt.toNat * 2 ^ 65 + t.toNat * 2 ^ 66

/-- A Bench after a commit strobe (R93). -/
def benchStrobe (old new : BenchCfg) (s : Bench) : Bench :=
  if old.carryAcc && new.carryAcc then
    { acc0 := s.acc0, acc1 := s.acc1, ovf0 := s.ovf0, ovf1 := s.ovf1, flag0 := s.flag0, flag1 := s.flag1 }
  else {}

end Sys2Proof.Machine
end

