-- ==== Sys2Proof/Machine/Drawers.lean ====
section
/-! DEFINITION. Drawers and Runners: ports, collisions, protected reads, queues, delay line, background pass and
initialisation (chapter 05). Each operation answers the Drawer after it and what the sector must count or raise. -/

namespace Sys2Proof.Machine

/-- What a Drawer operation reports to its sector: a decode outcome other than CLEAN (R103), or a poisoned word presented
at a port that is not poison-aware (R104). -/
inductive DrawerNote where
  | ecc (row : Nat) (word : PWord)
  | consumed (portB : Bool) (row : Nat)
  deriving DecidableEq, Repr

/-- The fields of a Drawer; an unconfigured Drawer has every field 0. -/
def drawerCfg (l : List Setting) (i : Nat) : DrawerCfg :=
  (l.findSome? fun
    | .drawer d g => if d.val = i then some g else none
    | _ => none).getD {}

/-- The data width of a port in raw mode (R95). -/
def portWidth (w : BitVec 2) : Nat :=
  match w.toNat with
  | 1 => 40
  | 2 => 20
  | _ => 80

/-- The width that a port acts with: 80 bits (one word) in protected mode. -/
def effWidth (g : DrawerCfg) (portB : Bool) : Nat :=
  if g.raw then portWidth (if portB then g.widthB else g.widthA) else 80

/-- Read latency L (R99). -/
def readLatency (g : DrawerCfg) : Nat := if g.raw && !g.outReg then 1 else 2

/-- Row of the array; an unwritten row is zero. -/
def rowGet (d : Drawer) (r : Nat) : PWord := tGet (fun _ => 0) d.arr r

/-- Entry `a` of a port of width `w` (R96): its row and the position of its lowest bit. -/
def entryAt (w a : Nat) : Nat × Nat :=
  let per := 80 / w
  let e := a % (1024 * per)
  (e / per, w * (e % per))

/-- The entry of width `w` at bit `lo` of a row. -/
def entryGet (w lo : Nat) (row : PWord) : PWord := BitVec.ofNat 80 (fld row (lo + w - 1) lo)

/-- A row with the 20-bit groups of `we` written at an entry (R97, R98). -/
def entryPut (w lo : Nat) (we : BitVec 4) (din : PWord) (row : PWord) : PWord :=
  (List.range (w / 20)).foldl (init := row) fun r j =>
    if we.getLsbD j then putFld r (lo + 20 * j + 19) (lo + 20 * j) (fld din (20 * j + 19) (20 * j)) else r

/-- Whether the port writes at this edge. -/
def portWrites (g : DrawerCfg) (p : PortIn) : Bool := p.en && (if g.raw then p.we ≠ 0 else p.we.getLsbD 0)

/-- The row that a port's write leaves, over the row `old` (R98). -/
def portRow (g : DrawerCfg) (portB : Bool) (p : PortIn) (old : PWord) : PWord :=
  if g.raw then
    let w := effWidth g portB
    entryPut w (entryAt w p.addr.toNat).2 p.we p.din old
  else encodeWord (BitVec.ofNat 64 p.din.toNat) p.wp

/-- The row that an access addresses. -/
def portRowIndex (g : DrawerCfg) (portB : Bool) (p : PortIn) : Nat := (entryAt (effWidth g portB) p.addr.toNat).1

/-- Store a row; a pending write-back of the pass to the same row is cancelled (R120). -/
def rowPut (d : Drawer) (r : Nat) (w : PWord) : Drawer :=
  { d with
    arr := tSet (fun _ => 0) d.arr r w
    passPend := match d.passPend with
      | some (r', v) => if r' = r then none else some (r', v)
      | none => none }

/-- Put the word in the output stage onto the read output, handling poison under R104. -/
def presentStage (portB aware : Bool) (raw : Bool) (o : PortOut) (st : ReadStage) : PortOut × List DrawerNote :=
  if st.poison && !aware && !raw then ({ o with dout := 0, poison := false, valid := st.valid, stage := none }, [.consumed portB st.row])
  else ({ o with dout := st.data, poison := st.poison && !raw, valid := st.valid, stage := none }, [])

/-- An edge of a read port: the staged word appears; `new` is the word read at this edge, if any (R99). -/
def readPortEdge (g : DrawerCfg) (portB aware : Bool) (o : PortOut) (new : Option ReadStage) : PortOut × List DrawerNote :=
  let (o1, n1) := match o.stage with
    | some st => presentStage portB aware g.raw o st
    | none => (o, [])
  match new with
  | none => (o1, n1)
  | some st =>
    if readLatency g = 1 then
      let (o2, n2) := presentStage portB aware g.raw o1 st
      (o2, n1 ++ n2)
    else ({ o1 with stage := some st }, n1)

/-- What a port reads from a row: the entry in raw mode; the decoded word with its log note in protected mode (R103). -/
def readRow (g : DrawerCfg) (portB : Bool) (addr r : Nat) (row : PWord) (valid : Bool) : ReadStage × List DrawerNote :=
  if g.raw then
    let w := effWidth g portB
    ({ data := entryGet w (entryAt w addr).2 row, poison := false, row := r, valid }, [])
  else
    let x := decodeWord row
    ({ data := BitVec.ofNat 80 x.data.toNat, poison := x.poison, row := r, valid },
     if x.outcome = .clean then [] else [.ecc r row])

/-- The word that a port's access reads at an edge, with `pre` the row before the edge (R100, R101). -/
def portRead (g : DrawerCfg) (portB : Bool) (p : PortIn) (pre : PWord) : Option ReadStage × List DrawerNote :=
  if !p.en then (none, [])
  else
    let r := portRowIndex g portB p
    if portWrites g p then
      match (if portB then g.writeModeB else g.writeModeA).toNat with
      | 1 =>
        let (s, n) := readRow g portB p.addr.toNat r (portRow g portB p pre) false
        (some s, n)
      | 2 => (none, [])
      | _ =>
        let (s, n) := readRow g portB p.addr.toNat r pre false
        (some s, n)
    else
      let (s, n) := readRow g portB p.addr.toNat r pre false
      (some s, n)

/-- A port while initialisation runs or the sector disables it (R109, R110): reads return zero, writes are ignored. -/
def portDisabled (o : PortOut) : PortOut := { o with dout := 0, poison := false, valid := false, stage := none }

/-- One access of one port, writing after reading the row as it was. -/
def onePort (g : DrawerCfg) (portB : Bool) (p : PortIn) (d : Drawer) : Drawer × List DrawerNote :=
  let r := portRowIndex g portB p
  let pre := rowGet d r
  let (st, n1) := portRead g portB p pre
  let (o, n2) := readPortEdge g portB (if portB then g.awareB else g.awareA) (if portB then d.b else d.a) st
  let d := if portB then { d with b := o } else { d with a := o }
  let d := if portWrites g p then rowPut d r (portRow g portB p pre) else d
  (d, n1 ++ n2)

/-- Both ports at one edge of a common clock (R101): reads see the rows as they were; port B's data stands in every bit
that both write. -/
def bothPorts (g : DrawerCfg) (pa pb : PortIn) (d : Drawer) : Drawer × List DrawerNote :=
  let (sa, na) := portRead g false pa (rowGet d (portRowIndex g false pa))
  let (sb, nb) := portRead g true pb (rowGet d (portRowIndex g true pb))
  let (oa, na') := readPortEdge g false g.awareA d.a sa
  let (ob, nb') := readPortEdge g true g.awareB d.b sb
  let d := { d with a := oa, b := ob }
  let ra := portRowIndex g false pa
  let rb := portRowIndex g true pb
  let d := if portWrites g pa then rowPut d ra (portRow g false pa (rowGet d ra)) else d
  let d := if portWrites g pb then rowPut d rb (portRow g true pb (rowGet d rb)) else d
  (d, na ++ nb ++ na' ++ nb')

/-- Content of which each part is taken from `x` or from `y`: 20-bit groups in raw mode, the whole word otherwise (R102). -/
def mixRows (g : DrawerCfg) (choice : Word) (x y : PWord) : PWord :=
  if g.raw then
    (List.range 4).foldl (init := x) fun r j =>
      if choice.getLsbD j then putFld r (20 * j + 19) (20 * j) (fld y (20 * j + 19) (20 * j)) else r
  else if choice.getLsbD 0 then y else x

/-- Two accesses to the same row whose edges arrive within 150 ps (R102): each read sees each part before or after the other
port's write, and each part that both write holds the data of one of them, by the free `choice`. -/
def closePorts (g : DrawerCfg) (pa pb : PortIn) (choice : Word) (d : Drawer) : Drawer × List DrawerNote :=
  let r := portRowIndex g false pa
  let old := rowGet d r
  let wa := fun w => if portWrites g pa then portRow g false pa w else w
  let wb := fun w => if portWrites g pb then portRow g true pb w else w
  let (sa, na) := portRead g false pa (mixRows g choice old (wb old))
  let (sb, nb) := portRead g true pb (mixRows g (choice >>> 4) old (wa old))
  let (oa, na') := readPortEdge g false g.awareA d.a sa
  let (ob, nb') := readPortEdge g true g.awareB d.b sb
  let d := { d with a := oa, b := ob }
  let d := if portWrites g pa || portWrites g pb then rowPut d r (mixRows g (choice >>> 8) (wa (wb old)) (wb (wa old))) else d
  (d, na ++ nb ++ na' ++ nb')

/-- A Drawer port access (R99 to R102). For ports without a common clock, `bFirst` orders two accesses, and `close` holds
the free choice of accesses whose edges arrive within 150 ps. -/
def drawerAccess (g : DrawerCfg) (pa pb : Option PortIn) (bFirst : Bool) (close : Option Word) (d : Drawer) :
    Drawer × List DrawerNote :=
  if d.initing then
    ({ d with a := if pa.isSome then portDisabled d.a else d.a, b := if pb.isSome then portDisabled d.b else d.b }, [])
  else match pa, pb with
    | none, none => (d, [])
    | some a, none => onePort g false a d
    | none, some b => onePort g true b d
    | some a, some b =>
      if g.clkA = g.clkB then bothPorts g a b d
      else if close.isSome && a.en && b.en && portRowIndex g false a = portRowIndex g true b then
        closePorts g a b (close.getD 0) d
      else if bFirst then
        let (d, n1) := onePort g true b d
        let (d, n2) := onePort g false a d
        (d, n1 ++ n2)
      else
        let (d, n1) := onePort g false a d
        let (d, n2) := onePort g true b d
        (d, n1 ++ n2)

/-- What a Drawer site puts on a column bus lane (R105). -/
def drawerLane (g : DrawerCfg) (d : Drawer) : Nat :=
  let o := if g.lanePortB then d.b else d.a
  if g.raw then o.dout.toNat else o.dout.toNat % 2 ^ 64 + o.poison.toNat * 2 ^ 64

/-! ## Runner queues -/

/-- Capacity D of a queue or delay line (R111). -/
def queueDepth (g : DrawerCfg) : Nat := if g.raw then 81920 / portWidth g.widthA else 1024

/-- Synchroniser stages S; a single-clock queue and a delay line use 2 for their reset (R117). -/
def runnerStages (g : DrawerCfg) : Nat := if g.runner = .dual && g.stages3 then 3 else 2

/-- Write side in reset (R117). -/
def wrBusy (d : Drawer) : Bool := d.rst || d.busyW ≠ 0

/-- Read side in reset (R117). -/
def rdBusy (d : Drawer) : Bool := d.rst || d.busyR ≠ 0

/-- WR_COUNT (R112, R115). -/
def wrCount (g : DrawerCfg) (d : Drawer) : Nat :=
  if wrBusy d then 0 else (d.wp + 2 * queueDepth g - d.rpSeen) % (2 * queueDepth g)

/-- RD_COUNT (R112, R115). -/
def rdCount (g : DrawerCfg) (d : Drawer) : Nat :=
  if rdBusy d then 0 else (d.wpSeen + 2 * queueDepth g - d.rp) % (2 * queueDepth g)

/-- FULL. -/
def qFull (g : DrawerCfg) (d : Drawer) : Bool := wrBusy d || wrCount g d = queueDepth g

/-- EMPTY. -/
def qEmpty (g : DrawerCfg) (d : Drawer) : Bool := rdBusy d || rdCount g d = 0

/-- AFULL (R116). -/
def qAFull (g : DrawerCfg) (d : Drawer) : Bool := wrCount g d ≥ g.afThresh.toNat

/-- AEMPTY (R116). -/
def qAEmpty (g : DrawerCfg) (d : Drawer) : Bool := rdCount g d ≤ g.aeThresh.toNat

/-- The row with entry `e` of the queue holding the word written (R111, R98). -/
def queueStore (g : DrawerCfg) (d : Drawer) (e : Nat) (din : PWord) (wp : Bool) : Drawer :=
  let w := effWidth g false
  let (r, lo) := entryAt w e
  rowPut d r (if g.raw then entryPut w lo 15 din (rowGet d r) else encodeWord (BitVec.ofNat 64 din.toNat) wp)

/-- Let one edge of a side's reset pass. -/
def busyStep (rst : Bool) (n : Nat) : Nat := if rst then n else n - 1

/-- A write-side edge while in reset; without a second clock it is an edge of both sides. -/
def wrResetEdge (g : DrawerCfg) (d : Drawer) : Drawer :=
  { d with busyW := busyStep d.rst d.busyW, busyR := if g.runner = .dual then d.busyR else busyStep d.rst d.busyR }

/-- A read-side edge while in reset. -/
def rdResetEdge (g : DrawerCfg) (d : Drawer) : Drawer :=
  { d with busyR := busyStep d.rst d.busyR, busyW := if g.runner = .dual then d.busyW else busyStep d.rst d.busyW }

/-- One write-side edge with WR_EN (R113). The single-clock queue shows both sides its pointers at once (R114). -/
def queueWriteEdge (g : DrawerCfg) (din : PWord) (wp : Bool) (d : Drawer) : Drawer :=
  if d.initing then d
  else if wrBusy d then wrResetEdge g d
  else if qFull g d then { d with wrOvf := true }
  else
    let d := queueStore g d (d.wp % queueDepth g) din wp
    let p := (d.wp + 1) % (2 * queueDepth g)
    if g.runner = .dual then { d with wp := p, toRead := d.toRead ++ [p] } else { d with wp := p, wpSeen := p }

/-- A read-side edge (R113): the staged word appears, and with RD_EN an entry is read or the read refused. -/
def queueReadEdge (g : DrawerCfg) (rd : Bool) (d : Drawer) : Drawer × List DrawerNote :=
  if d.initing then ({ d with b := portDisabled d.b }, [])
  else if rdBusy d then (rdResetEdge g d, [])
  else if !rd || qEmpty g d then
    let (o, n) := readPortEdge g true g.awareB d.b none
    ({ d with b := o, rdUnf := d.rdUnf || (rd && qEmpty g d) }, n)
  else
    let e := d.rp % queueDepth g
    let r := (entryAt (effWidth g false) e).1
    let (st, n1) := readRow g false e r (rowGet d r) false
    let (o, n2) := readPortEdge g true g.awareB d.b (some st)
    let p := (d.rp + 1) % (2 * queueDepth g)
    let d := { d with b := o, rp := p }
    (if g.runner = .dual then { d with toWrite := d.toWrite ++ [p] } else { d with rpSeen := p }, n1 ++ n2)

/-- A write, with a read at the same edge where `rd` (the single-clock queue, R114): both see the flags as they were
before the edge. -/
def queueWrite (g : DrawerCfg) (din : PWord) (wp rd : Bool) (d : Drawer) : Drawer × List DrawerNote :=
  if rd && g.runner = .single && !wrBusy d then
    let w := queueWriteEdge g din wp d
    let (r, n) := queueReadEdge g true d
    ({ w with b := r.b, rp := r.rp, rpSeen := r.rpSeen, rdUnf := r.rdUnf, busyR := r.busyR }, n)
  else (queueWriteEdge g din wp d, [])

/-- A Gray pointer reaches the other side (R115): the `skip` oldest values in flight are passed over, as a sample may miss
values that were overwritten before it. The Runner holds its state while initialisation runs (R109). -/
def pointerSync (toRead : Bool) (skip : Nat) (d : Drawer) : Drawer :=
  if d.initing then d
  else if toRead then
    match d.toRead.drop skip with
    | p :: ps => if rdBusy d then { d with toRead := ps } else { d with wpSeen := p, toRead := ps }
    | [] => d
  else
    match d.toWrite.drop skip with
    | p :: ps => if wrBusy d then { d with toWrite := ps } else { d with rpSeen := p, toWrite := ps }
    | [] => d

/-- VALID 0 for the word on the output and for the one that is to appear (R118). -/
def noValid (o : PortOut) : PortOut := { o with valid := false, stage := o.stage.map fun x => { x with valid := false } }

/-- The Runner state of R117 while in reset. -/
def runnerCleared (d : Drawer) : Drawer :=
  { d with wp := 0, rp := 0, wpSeen := 0, rpSeen := 0, toRead := [], toWrite := [], wrOvf := false, rdUnf := false,
           dlRow := 0, dlCount := 0, b := noValid d.b }

/-- RST of a queue or delay line (R117). While initialisation runs the Runner holds its state, and only the level of RST is taken
(R109); one that is still 1 at its end resets the Runner then. -/
def runnerRst (g : DrawerCfg) (e : RstEvent) (d : Drawer) : Drawer :=
  let n := runnerStages g + 1
  match e with
  | .rise => if d.initing then { d with rst := true } else { runnerCleared d with rst := true, busyW := n, busyR := n }
  | .fall => if d.rst then (if d.initing then { d with rst := false } else { d with rst := false, busyW := n, busyR := n }) else d
  | .edge second =>
    if d.initing then d else if second then rdResetEdge g d else wrResetEdge g d

/-- VALID (R118): 0 in reset, and in every mode other than delay line. -/
def validOut (g : DrawerCfg) (d : Drawer) : Bool := g.runner = .delay && !wrBusy d && d.b.valid

/-- Ports disabled and the Runner held in reset (R110): reads return zero. -/
def drawerHeld (d : Drawer) : Drawer :=
  { runnerCleared d with
    rst := false, busyW := 0, busyR := 0, passRow := 0, passPend := none, a := {}, b := {} }

/-- The delay in rows as it acts (R118). -/
def effDelay (g : DrawerCfg) : Nat := min (max g.delay.toNat 1) (queueDepth g)

/-- An advancing edge of a delay line (R118). -/
def delayAdvance (g : DrawerCfg) (din : PWord) (wp : Bool) (d : Drawer) : Drawer × List DrawerNote :=
  if d.initing then ({ d with b := portDisabled d.b }, [])
  else if wrBusy d then (wrResetEdge g d, [])
  else
    let D := queueDepth g
    let k := effDelay g
    let e := (d.dlRow + D - k) % D
    let r := (entryAt (effWidth g false) e).1
    let (st, n1) := readRow g false e r (rowGet d r) (d.dlCount ≥ k)
    let (o, n2) := readPortEdge g true g.awareB d.b (some st)
    let d := queueStore g { d with b := o } d.dlRow din wp
    ({ d with dlRow := (d.dlRow + 1) % D, dlCount := min (d.dlCount + 1) 8192 }, n1 ++ n2)

/-! ## Background pass and initialisation -/

/-- Whether the pass runs (R119). -/
def passRuns (g : DrawerCfg) (d : Drawer) : Bool := g.passEn && !g.raw && g.runner ≠ .delay && !d.initing

/-- One part of a pass attempt at an idle port B edge (R119, R120, R37). -/
def passAttempt (g : DrawerCfg) (ph : PassPhase) (d : Drawer) : Drawer × List DrawerNote :=
  if !passRuns g d then (d, [])
  else match ph with
    | .read =>
      if d.passPend.isSome then (d, [])
      else
        let w := rowGet d d.passRow
        let x := decodeWord w
        let d' := { d with passRow := (d.passRow + 1) % 1024 }
        if x.outcome = .clean then (d', [])
        else ({ d' with passPend := some (d.passRow, renewWord w) }, [.ecc d.passRow w])
    | .writeBack =>
      match d.passPend with
      | some (r, v) => ({ d with arr := tSet (fun _ => 0) d.arr r v, passPend := none }, [])
      | none => (d, [])

/-- The rows in five words of a Drawer's initial content: each row has 80 bits of the span (R165). -/
def fourRows (ws : List Word) : List PWord :=
  let v := (List.range 5).foldl (fun n k => n + (nth 0 ws k).toNat * 2 ^ (64 * k)) 0
  (List.range 4).map fun r => BitVec.ofNat 80 (v / 2 ^ (80 * r))

/-- The array that initialisation writes from the initial content of a leaf (R108): row bits [63:0] hold the word and [64] the poison
bit of a protected Drawer, whose bits [79:65] are ignored (R165). -/
def initArray (rows : List PWord) (raw : Bool) : Tbl PWord :=
  (rows.zipIdx.filter (·.1 ≠ 0)).foldl (init := []) fun t x =>
    tSet (fun _ => 0) t x.2 (if raw then x.1 else encodeWord (BitVec.ofNat 64 x.1.toNat) (x.1.getLsbD 64))

/-- Initialisation writes its last row and INIT_DONE rises (R109). -/
def initComplete (g : DrawerCfg) (rows : List PWord) (d : Drawer) : Drawer :=
  if d.initing then
    let d := if d.rst then { runnerCleared d with busyW := runnerStages g + 1, busyR := runnerStages g + 1 } else d
    { d with arr := initArray rows g.raw, initing := false }
  else d

/-- A Drawer after a commit strobe (R107, R110): `fresh` where the sector's contents are not carried at all. VALID is 0 outside the
delay-line mode (R118). -/
def drawerStrobe (old new : DrawerCfg) (fresh : Bool) (d : Drawer) : Drawer :=
  let d' := if old.carryRunner && new.carryRunner && !fresh then
      (if new.runner = .delay then d else { d with a := noValid d.a, b := noValid d.b })
    else drawerHeld d
  { d' with initing := new.init || fresh || (old.raw && !new.raw) }

end Sys2Proof.Machine
end

