-- ==== Sys2Proof/Machine/Hinges.lean ====
section
/-! DEFINITION. Hinges: level synchronisers, value crossings, counter crossings and wake requests (chapter 07). -/

namespace Sys2Proof.Machine

/-- The fields of a Hinge; an unconfigured Hinge has every field 0. -/
def hingeCfg (l : List Setting) (i : Nat) : HingeCfg :=
  (l.findSome? fun
    | .hinge h g => if h.val = i then some g else none
    | _ => none).getD {}

/-- Synchroniser depth S (R145). -/
def hingeStages (g : HingeCfg) : Nat := if g.stages3 then 3 else 2

/-- The width of a value crossing as it acts (R145). -/
def valueWidth (g : HingeCfg) : Nat := min (max g.width.toNat 1) 80

/-- Source side in reset (R160). -/
def srcBusy (h : Hinge) : Bool := h.rst || h.busyS ≠ 0

/-- Destination side in reset (R160). -/
def dstBusy (h : Hinge) : Bool := h.rst || h.busyD ≠ 0

/-- A source edge while that side is in reset lets its release count on. -/
def srcResetEdge (h : Hinge) : Hinge := if h.rst then h else { h with busyS := h.busyS - 1 }

/-- A destination edge while that side is in reset. -/
def dstResetEdge (h : Hinge) : Hinge := if h.rst then h else { h with busyD := h.busyD - 1 }

/-- A synchroniser chain after an edge: its first stage takes `x`, and each other the stage before it. -/
def chainShift (g : HingeCfg) (x : α) (l : List α) : List α := (x :: l).take (hingeStages g)

/-- The last stage of a chain, as it stood before the edge. -/
def chainEnd (g : HingeCfg) (dflt : α) (l : List α) : α := nth dflt l (hingeStages g - 1)

/-- What a first stage takes: its input, or that of the edge before where it resolves one edge late. -/
def firstStage (late : Bool) (now prev : α) : α := if late then prev else now

/-- A destination edge of a level Hinge (R147). `late` marks the chains whose first stage resolves one edge late. -/
def levelSample (g : HingeCfg) (inp late : BitVec 8) (h : Hinge) : Hinge :=
  if dstBusy h then dstResetEdge h
  else { h with chain := chainShift g ((inp &&& ~~~late) ||| (h.lPrev &&& late)) h.chain, lPrev := inp }

/-- L_OUT: the last stage of each chain (R147). -/
def levelOut (g : HingeCfg) (h : Hinge) : BitVec 8 := chainEnd g 0 h.chain

/-- The low `width` bits of a value (R149). -/
def clipValue (g : HingeCfg) (v : PWord) : PWord := BitVec.ofNat 80 (v.toNat % 2 ^ valueWidth g)

/-- The source procedure of a value crossing at one source edge (R150), with S_LOAD `load`, S_DATA `data`. -/
def valueSource (g : HingeCfg) (load clr : Bool) (data : PWord) (h : Hinge) : Hinge :=
  let done := h.ackSeen == h.take
  let data := clipValue g data
  let again := load && h.pendFull
  let sup := if again then min (h.super + 1) 65535 else h.super
  let h' :=
    if done && h.pendFull then
      { h with hold := if load then data else h.pending, pendFull := false, take := !h.take }
    else if done && load then { h with hold := data, take := !h.take }
    else if load then { h with pending := data, pendFull := true }
    else h
  { h' with super := if clr then (if again then 1 else 0) else sup }

/-- S_BUSY (R150). -/
def valueBusy (h : Hinge) : Bool := h.ackSeen != h.take

/-- The source side at an edge, with the acknowledge as its chain gives it; the chain moves on. -/
def ackArrives (g : HingeCfg) (late : Bool) (h : Hinge) : Hinge :=
  { h with
    ackSeen := chainEnd g false h.ackChain, ackChain := chainShift g (firstStage late h.ack h.ackPrev) h.ackChain, ackPrev := h.ack }

/-- A source edge of a value crossing (R150, R160). `late`: the first stage of the acknowledge chain resolves one edge late. -/
def valueLoad (g : HingeCfg) (load clr : Bool) (data : PWord) (late : Bool) (h : Hinge) : Hinge :=
  if srcBusy h then srcResetEdge h else valueSource g load clr data (ackArrives g late h)

/-- A destination edge of a value crossing: where the synchronised take flag differs from the acknowledge, the value is
delivered; otherwise D_NEW returns to 0 (R150, R152). -/
def valueDeliver (g : HingeCfg) (late : Bool) (h : Hinge) : Hinge :=
  if dstBusy h then dstResetEdge h
  else
    let taken := chainEnd g false h.takeChain
    let h := { h with takeChain := chainShift g (firstStage late h.take h.takePrev) h.takeChain, takePrev := h.take }
    if taken != h.ack then { h with dData := h.hold, dNew := true, ack := taken } else { h with dNew := false }

/-- A source edge that ends a handshake: the returned acknowledge equals the take flag (R150, R152). At another edge nothing happens
here. -/
def valueComplete (g : HingeCfg) (load clr : Bool) (data : PWord) (late : Bool) (h : Hinge) : Hinge :=
  if srcBusy h then srcResetEdge h
  else if h.ackSeen != h.take && chainEnd g false h.ackChain == h.take then valueLoad g load clr data late h
  else h

/-- S_UNACK (R155). -/
def unack (h : Hinge) : Nat := (h.cs + 256 - h.cRet) % 256

/-- A source edge moves the chain on which the delivered count returns (R155, R156). -/
def countReturns (g : HingeCfg) (late : Bool) (h : Hinge) : Hinge :=
  { h with
    cRet := chainEnd g 0 h.backChain, backChain := chainShift g (firstStage late h.cd h.cdPrev) h.backChain, cdPrev := h.cd }

/-- A source edge with S_EVT at `evt` (R155): S_UNACK before the edge decides; S_OVF follows S_UNACK after it. -/
def counterEvent (g : HingeCfg) (evt late : Bool) (h : Hinge) : Hinge :=
  if srcBusy h then srcResetEdge h
  else
    let full := decide (255 ≤ unack h)
    let h := countReturns g late h
    if !evt then h
    else if full then { h with drop := true }
    else
      let h := { h with cs := (h.cs + 1) % 256 }
      { h with ovf := h.ovf || unack h = 192 }

/-- A destination edge of a counter crossing (R155, R156): the sampled count is that of the last stage before the edge.
`late` counts the newest events that a first stage resolving one edge late does not see yet: at most those since the edge before. -/
def counterDeliver (g : HingeCfg) (late : Nat) (h : Hinge) : Hinge :=
  if dstBusy h then dstResetEdge h
  else
    let sampled := chainEnd g 0 h.cChain
    let diff := (sampled + 256 - h.cd) % 256
    let k := min diff 127
    let cd := (h.cd + k) % 256
    let fresh := (h.cs + 256 - h.csPrev) % 256
    let first := (h.cs + 256 - min late fresh) % 256
    { h with cChain := chainShift g first h.cChain, csPrev := h.cs, cd, delta := k }

/-- A source edge without an event: the delivered count comes nearer (R155, R156). -/
def counterAck (g : HingeCfg) (late : Bool) (h : Hinge) : Hinge := counterEvent g false late h

/-- The registers of a Hinge while in reset (R160). The wake latch has no RST. -/
def hingeCleared (h : Hinge) : Hinge := { latch := h.latch }

/-- RST of a level, value or counter Hinge (R160). -/
def hingeRst (g : HingeCfg) (e : RstEvent) (h : Hinge) : Hinge :=
  let n := hingeStages g + 1
  match e with
  | .rise => { hingeCleared h with rst := true, busyS := n, busyD := n }
  | .fall => if h.rst then { h with rst := false, busyS := n, busyD := n } else h
  | .edge second => if second then (if dstBusy h then dstResetEdge h else h) else (if srcBusy h then srcResetEdge h else h)

/-- A Hinge after a commit strobe (R161). A field that a kind does not use has no effect on it (R145). -/
def hingeStrobe (old new : HingeCfg) (h : Hinge) : Hinge :=
  if old.carryHinge && new.carryHinge && old.kind = new.kind &&
      (new.kind = .wake || old.stages3 == new.stages3) && (new.kind ≠ .value || valueWidth old = valueWidth new) then h
  else {}

end Sys2Proof.Machine
end

