-- ==== Sys2Proof/Machine/LogicCells.lean ====
section
/-! DEFINITION. What a logic cell, a carry chain and a flip-flop compute (R53, R55, R58 to R60, R66, R68). -/

namespace Sys2Proof.Machine

/-- The fields of a cell under a list of settings; an unconfigured cell has every field 0. -/
def cellCfg (l : List Setting) (u v c : Nat) : CellCfg :=
  (l.findSome? fun
    | .cell u' v' c' g => if u'.val = u && v'.val = v && c'.val = c then some g else none
    | _ => none).getD {}

/-- The fields of a half-block. -/
def halfCfg (l : List Setting) (u v h : Nat) : HalfCfg :=
  (l.findSome? fun
    | .half u' v' h' g => if u'.val = u && v'.val = v && h'.val = h then some g else none
    | _ => none).getD {}

/-- FO and HO of a look-up table (R53). -/
def lutOut (g : CellCfg) (i : BitVec 6) : Bool × Bool :=
  let j := i.toNat % 32
  if g.dual then (g.lutInit.getLsbD (32 + j), g.lutInit.getLsbD j)
  else (g.lutInit.getLsbD i.toNat, g.lutInit.getLsbD j)

/-- What one cell computes from its inputs and its carry in (R58): FO, HO, the two sums and the carry out. -/
structure CellOut where
  fo : Bool
  ho : Bool
  sum0 : Bool
  sum1 : Bool
  co : Bool
  deriving DecidableEq, Repr

/-- The two carry stages of a cell (R58). -/
def cellOut (g : CellCfg) (x : CellIn) (ci : Bool) : CellOut :=
  let (fo, ho) := lutOut g x.tbl
  let d0 := x.dx0 ^^ g.dxInv0
  let d1 := x.dx1 ^^ g.dxInv1
  let c1 := (ho && d0) || (ci && (ho ^^ d0))
  { fo, ho, sum0 := ho ^^ d0 ^^ ci, sum1 := fo ^^ d1 ^^ c1, co := (fo && d1) || (c1 && (fo ^^ d1)) }

/-- The carry that enters cell 0 (`h` = 0) or cell 8 (`h` = 1) of a block (R59), with `chain` the carry of the cell below. -/
def carryIn (sel : BitVec 2) (chain cin : Bool) : Bool :=
  match sel.toNat with
  | 0 => chain
  | 1 => false
  | 2 => true
  | _ => cin

/-- The outputs of the cells `c` to `c + n - 1` of a block, with the carry `ci` into the first. -/
def runCells (l : List Setting) (u v : Nat) (b : BlockIn) : Nat → Nat → Bool → List CellOut × Bool
  | 0, _, ci => ([], ci)
  | n + 1, c, ci =>
    let o := cellOut (cellCfg l u v c) (nth {} b.cells c) ci
    let (os, co) := runCells l u v b n (c + 1) o.co
    (o :: os, co)

/-- The outputs of the 16 cells of block (u, v) and its carry out, with `below` the carry of cell 15 of block v − 1. -/
def runBlock (l : List Setting) (u v : Nat) (b : BlockIn) (below : Bool) : List CellOut × Bool :=
  let c0 := carryIn (halfCfg l u v 0).cin below b.cin0
  let (lo, c7) := runCells l u v b 8 0 c0
  let c8 := carryIn (halfCfg l u v 1).cin c7 b.cin1
  let (hi, c15) := runCells l u v b 8 8 c8
  (lo ++ hi, c15)

/-- Tile columns of the Drawer columns (R94) and of the Bench columns (R51). -/
def drawerColumns : List Nat := [12, 38, 77, 103]
def benchColumns : List Nat := [25, 51, 64, 90, 116, 129]

/-- Whether a tile column is a logic column (R51); carry chains do not cross hard block columns (R60). -/
def isLogicColumn (u : Nat) : Bool := !drawerColumns.contains u && !benchColumns.contains u

/-- The carry into cell 0 of block v: that of cell 15 of block v − 1 (R59), given the inputs of the blocks below, nearest first; a
block that is not given has every input 0. At row 0 it is constant 0 (R60). -/
def chainBelow (l : List Setting) (u : Nat) : Nat → List BlockIn → Bool
  | 0, _ => false
  | v + 1, bs => (runBlock l u v (bs.headD {}) (chainBelow l u v bs.tail)).2

/-- The key of flip-flop `k` of cell `c` of block (u, v). -/
def ffKey (u v c k : Nat) : Nat := ((u * 96 + v) * 16 + c) * 2 + k

/-- The next value of a flip-flop (R55): an acting SR gives srval; otherwise D when enabled at an active edge. -/
def ffNext (async edge srUse sr ceUse ce srval d q : Bool) : Bool :=
  if srUse && sr && (edge || async) then srval
  else if edge && (!ceUse || ce) then d
  else q

/-- The data input of a flip-flop (R52). -/
def ffData (sel : BitVec 2) (table sum direct : Bool) : Bool :=
  match sel.toNat with
  | 0 => table
  | 1 => sum
  | 2 => direct
  | _ => false

/-- An event at half-block `h` of block (u, v): an active edge, or the level of an asynchronous SR (R55). -/
def clockHalf (l : List Setting) (ffs : Tbl Bool) (u v h : Nat) (edge ce sr : Bool) (b : BlockIn) (below : List BlockIn) :
    Tbl Bool :=
  let outs := (runBlock l u v b (chainBelow l u v below)).1
  let async := (halfCfg l u v h).asyncSr
  (List.range 8).foldl (init := ffs) fun t i =>
    let c := 8 * h + i
    let g := cellCfg l u v c
    let o := nth ⟨false, false, false, false, false⟩ outs c
    let x := nth {} b.cells c
    let k0 := ffKey u v c 0
    let k1 := ffKey u v c 1
    let q0 := tGet (fun _ => false) ffs k0
    let q1 := tGet (fun _ => false) ffs k1
    let t := tSet (fun _ => false) t k0
      (ffNext async edge g.ff0srUse sr g.ff0ceUse ce g.ff0sr (ffData g.ff0d o.fo o.sum0 x.dx0) q0)
    tSet (fun _ => false) t k1
      (ffNext async edge g.ff1srUse sr g.ff1ceUse ce g.ff1sr (ffData g.ff1d o.ho o.sum1 x.dx1) q1)

/-- The flip-flop contents that the init values of a leaf give (R56, R176). -/
def initFfs (l : List Setting) : Tbl Bool :=
  l.foldl (init := []) fun t s =>
    match s with
    | .cell u v c g =>
      let t := tSet (fun _ => false) t (ffKey u v c 0) g.ff0init
      tSet (fun _ => false) t (ffKey u v c 1) g.ff1init
    | _ => t

/-- The flip-flops after a commit strobe (R176): init values of the new leaf, except where both leaves mark carry. -/
def strobeFfs (old new : List Setting) (ffs : Tbl Bool) : Tbl Bool :=
  new.foldl (init := initFfs new) fun t s =>
    match s with
    | .cell u v c g =>
      let o := cellCfg old u v c
      let keep (t : Tbl Bool) (k : Nat) := tSet (fun _ => false) t k (tGet (fun _ => false) ffs k)
      let t := if g.ff0hold && o.ff0hold then keep t (ffKey u v c 0) else t
      if g.ff1hold && o.ff1hold then keep t (ffKey u v c 1) else t
    | _ => t

/-- The output of a multiplexer with a binary select (R66): one input, or constant 0 beyond its inputs. -/
def muxOut (inputs : List Bool) (select : Nat) : Bool := nth false inputs select

/-- The output of an isolation cell (R68). -/
def isolationOut (sameGroup quiet drivingStopped : Bool) (held isoValue wire : Bool) : Bool :=
  if quiet && !sameGroup then held
  else if drivingStopped && !sameGroup then isoValue
  else wire

end Sys2Proof.Machine
end

