-- ==== Sys2Proof/Machine/Routing.lean ====
section
/-! DEFINITION. Routing (R51, R63 to R68): where a wire ends, its driver, isolation cells, and how a block input takes its level. -/

namespace Sys2Proof.Machine

/-! ## The tile grid (R51, R94, R144) -/

/-- Tile column of Drawer column `k`. -/
def drawerColumn (k : Nat) : Nat := nth 0 drawerColumns k

/-- Tile column of Bench column `k`. -/
def benchColumn (k : Nat) : Nat := nth 0 benchColumns k

/-- First tile row of site `s` of a Drawer or Bench column; it occupies three. -/
def siteRow (s : Nat) : Nat := 3 * s

/-- First tile row of Hinge `h`, which lies in Drawer column h div 16 and spans six rows. -/
def hingeRow (h : Nat) : Nat := 6 * (h % 16)

/-! ## The frames of a sector (R165) -/

/-- First frame and number of frames that hold the items of tile column `u`. -/
def columnFrames (u : Nat) : Nat × Nat :=
  match drawerColumns.idxOf? u, benchColumns.idxOf? u with
  | some k, _ => (1520 + 3 * k, 3)
  | none, some j => (1472 + 8 * j, 8)
  | none, none => (8 * (u - ((drawerColumns ++ benchColumns).filter (· < u)).length), 8)

/-- The frames that hold an item. The table of R165 does not name those of the multiplexers of block inputs, of the wires that start
in a Drawer column, or of attachment fields: they are taken to lie in the frames of their column and in those of sector control
(DEDUCED, assumption 136). Global line sources are taken from any frame of a base image. -/
def settingFrames : Setting → Nat × Nat
  | .cell u _ _ _ | .half u _ _ _ | .pin u _ _ _ => columnFrames u.val
  | .mux w _ => columnFrames w.u.val
  | .bench j _ _ => (1472 + 8 * j.val, 8)
  | .drawer d _ => (1520 + 3 * (d.val / 32), 3)
  | .hinge h _ => (1520 + 3 * (h.val / 16), 3)
  | .lane col _ _ => if col.val < 4 then (1520 + 3 * col.val, 3) else (1472 + 8 * (col.val - 4), 8)
  | .regional _ _ | .isolation _ _ | .attachment _ _ | .ioCell _ _ | .userOk _ | .tablePort _ _ | .bridge _ | .rawLane _ _ => (1532, 4)
  | .gline _ _ _ _ => (0, 1536)
  | .drawerRow _ _ _ | .tile _ _ | .cabPort _ _ => (0, 0)

/-- Frame `f` of sector `i` can hold an item. The Cabinet leaf has no index table (R367), so there any frame can. -/
def frameHolds (i f : Nat) (x : Setting) : Bool := i = 64 || ((settingFrames x).1 ≤ f && f < (settingFrames x).1 + (settingFrames x).2)

/-! ## Wires (R63 to R65) -/

/-- Reach in tiles. -/
def wireReach : WireClass → Nat
  | .single => 1
  | .double => 2
  | .six => 6
  | .sixteen => 16
  | .thirtyTwo => 32

/-- Wires of a class that start in each tile in each direction. -/
def wireCount : WireClass → Nat
  | .sixteen => 4
  | .thirtyTwo => 2
  | _ => 8

/-- Number of a class. -/
def wireClassCode : WireClass → Nat
  | .single => 0
  | .double => 1
  | .six => 2
  | .sixteen => 3
  | .thirtyTwo => 4

/-- The wire is one of those that start in its tile. -/
def wireExists (w : Wire) : Bool := w.n.val < wireCount w.cls

/-- Key of a wire in its sector. -/
def wireKey (w : Wire) : Nat := (((wireClassCode w.cls * 4 + w.dir.val) * 8 + w.n.val) * 138 + w.u.val) * 96 + w.v.val

/-- The sector beyond the edge of sector `i` in direction `d`, in the same quadrant; rows count from north. The Cabinet fabric has
none. -/
def nextSector (i d : Nat) : Option Nat :=
  if 64 ≤ i then none
  else match d with
    | 0 => if i / 4 % 4 = 0 then none else some (i - 4)
    | 1 => if i % 4 = 3 then none else some (i + 1)
    | 2 => if i / 4 % 4 = 3 then none else some (i + 4)
    | _ => if i % 4 = 0 then none else some (i - 1)

/-- One step of `reach` tiles along an axis of `size` tiles: within it, or how far beyond it. `up` is the direction of rising
numbers. -/
def axisStep (up : Bool) (size reach x : Nat) : Nat × Bool :=
  if up then (if x + reach < size then (x + reach, true) else (x + reach - size, false))
  else if reach ≤ x then (x - reach, true) else (x + size - reach, false)

/-- Sector and tile in which a wire that starts in tile (u, v) of sector `i` ends (R63, R64): at its reach; in the last tile of its
sector; or, a thirty-two, in the next sector, or in the last tile of the quadrant. -/
def wireEnd (i : Nat) (w : Wire) : Nat × Nat × Nat :=
  let d := w.dir.val
  let up := decide (d < 2)
  let size := if d % 2 = 0 then 96 else 138
  let x := if d % 2 = 0 then w.v.val else w.u.val
  let put := fun (j y : Nat) => if d % 2 = 0 then (j, w.u.val, y) else (j, y, w.v.val)
  match axisStep up size (wireReach w.cls) x, (if w.cls = .thirtyTwo then nextSector i d else none) with
  | (y, true), _ => put i y
  | (y, false), some j => put j y
  | (_, false), none => put i (if up then size - 1 else 0)

/-! ## Drivers and isolation cells (R66 to R68) -/

/-- The index of the multiplexer at the start of a wire; 0 where no frame names it. -/
def wireSelect (l : List Setting) (w : Wire) : Nat :=
  (l.findSome? fun
    | .mux w' n => if w' = w then some n else none
    | _ => none).getD 0

/-- The index of a block input's multiplexer. -/
def pinSelect (l : List Setting) (u v pin : Nat) : Nat :=
  (l.findSome? fun
    | .pin u' v' p n => if u'.val = u && v'.val = v && p = pin then some n else none
    | _ => none).getD 0

/-- The isolation value that sector frames hold for the cell where wire `w` enters. -/
def isoValue (l : List Setting) (w : Wire) : Bool :=
  (l.findSome? fun
    | .isolation w' b => if w' = w then some b else none
    | _ => none).getD false

/-- What the driver of wire `w` of sector `i` gives. -/
def wireDriven (s : Dev) (i : Nat) (w : Wire) : Bool := tGet (fun _ => false) (getSec s i).wires (wireKey w)

/-- Two sectors are in the same group (R68). -/
def sameGroup (s : Dev) (i j : Nat) : Bool := regionOf s i = regionOf s j

/-- What wire `w` of sector `i` gives at its end: through the isolation cell where it has crossed into another sector. -/
def wireOut (s : Dev) (i : Nat) (w : Wire) : Bool :=
  let j := (wireEnd i w).1
  if j = i then wireDriven s i w
  else
    isolationOut (sameGroup s i j) ((getSec s i).quiet || (getSec s j).quiet) ((getSec s i).state ≠ .active)
      (tGet (fun _ => false) (getSec s j).iso (wireKey w)) (isoValue (items s j) w) (wireDriven s i w)

/-- A multiplexer input in tiles (u, v) to (u, v + rows − 1) of sector `i`: a wire is one only where it ends there. -/
def levelAt (s : Dev) (i u v rows : Nat) : Level → Bool
  | .bit b => b
  | .wire j w =>
    let e := wireEnd j.val w
    wireExists w && e.1 = i && e.2.1 = u && v ≤ e.2.2 && e.2.2 < v + rows && wireOut s j.val w

/-- The multiplexers of wires of sector `i` take what is presented to them. A sector in initial load or without power has no
defined routing (R61). -/
def driveWires (i : Nat) (ds : List WireDrive) (s : Dev) : Dev :=
  let live := if i = 64 then s.cab.active.isSome else (getSec s i).vcc && (getSec s i).state ≠ .initialLoad
  if !live then s
  else
    let l := items s i
    ds.foldl (fun s d =>
      if wireExists d.wire then
        let b := muxOut (d.inputs.map (levelAt s i d.wire.u.val d.wire.v.val 1)) (wireSelect l d.wire)
        updSec s i fun c => { c with wires := tSet (fun _ => false) c.wires (wireKey d.wire) b }
      else s) s

/-! ## The isolation cells in a quiet window -/

/-- The wire of a key. -/
def wireOfKey (k : Nat) : Option Wire :=
  let v := k % 96
  let u := k / 96 % 138
  let n := k / (96 * 138) % 8
  let d := k / (96 * 138 * 8) % 4
  let cls? := nth none [some WireClass.single, some .double, some .six, some .sixteen, some .thirtyTwo] (k / (96 * 138 * 32))
  cls?.map fun cls => { cls, dir := Fin.ofNat 4 d, n := Fin.ofNat 8 n, u := Fin.ofNat 138 u, v := Fin.ofNat 96 v }

/-- A quiet window of `set` begins: the cells of every wire that crosses into or out of it hold what is on the wire. -/
def isoHold (set : List Nat) (s : Dev) : Dev :=
  s.sectors.foldl (fun t e =>
    e.2.wires.foldl (fun t x =>
      match wireOfKey x.1 with
      | none => t
      | some w =>
        let j := (wireEnd e.1 w).1
        if j ≠ e.1 && (set.contains e.1 || set.contains j) then
          updSec t j fun c => { c with iso := tSet (fun _ => false) c.iso x.1 x.2 }
        else t) t) s

/-- The window ends: the cells release. -/
def isoRelease (s : Dev) : Dev :=
  updSecs s ((s.sectors.filter fun e => !e.2.iso.isEmpty).map (·.1)) fun c => { c with iso := [] }

/-! ## Block inputs -/

/-- The level at one input of a block whose tiles are (u, v) to (u, v + rows − 1): its multiplexer's, where `via` gives its inputs. -/
def pinLevel (s : Dev) (l : List Setting) (i u v rows : Nat) (via : List PinMux) (pin : Nat) (level : Bool) : Bool :=
  match via.find? fun m => m.pin = pin with
  | some m => muxOut (m.inputs.map (levelAt s i u v rows)) (pinSelect l u v pin)
  | none => level

/-- The levels at the inputs from `base` on. -/
def pinBits (pin : Nat → Bool → Bool) (base : Nat) (x : BitVec n) : BitVec n :=
  BitVec.ofNat n (maskOf ((List.range n).filter fun k => pin (base + k) (x.getLsbD k)))

/-- A logic block: cell `c` has IN0 to IN5, DX0 and DX1 at 8c to 8c + 7; CIN0 128, CIN1 129; CE and SR of half-block `h` 130 + 2h and
131 + 2h. -/
def blockInputs (pin : Nat → Bool → Bool) (b : BlockIn) : BlockIn :=
  { cells := (List.range 16).map fun c =>
      let x := nth {} b.cells c
      { tbl := pinBits pin (8 * c) x.tbl, dx0 := pin (8 * c + 6) x.dx0, dx1 := pin (8 * c + 7) x.dx1 }
    cin0 := pin 128 b.cin0, cin1 := pin 129 b.cin1 }

/-- A logic block's inputs, those of `via` taken from their multiplexers. -/
def routedBlock (s : Dev) (l : List Setting) (i u v : Nat) (b : BlockIn) : BlockIn :=
  if b.via.isEmpty then b else blockInputs (pinLevel s l i u v 1 b.via) b

/-- A Drawer port: from base 0 (port A) or 128 (port B), EN 0, WE 1 to 4, ADDR 5 to 16, DIN 17 to 96, WP 97. -/
def portInputs (pin : Nat → Bool → Bool) (base : Nat) (p : PortIn) : PortIn :=
  { en := pin base p.en, we := pinBits pin (base + 1) p.we, addr := pinBits pin (base + 5) p.addr, din := pinBits pin (base + 17) p.din
    wp := pin (base + 97) p.wp }

/-- The inputs of a port of Drawer `d`. -/
def routedPort (s : Dev) (l : List Setting) (i d : Nat) (portB : Bool) (p : PortIn) : PortIn :=
  if p.via.isEmpty then p
  else portInputs (pinLevel s l i (drawerColumn (d / 32)) (siteRow (d % 32)) 3 p.via) (if portB then 128 else 0) p

/-- A Bench: A0 to A3 from 0, B0 to B3 from 80, D0 160, D1 180, C 200, T 264, TP 328, CLR0 329, CLR1 330. -/
def benchInputs (pin : Nat → Bool → Bool) (x : BenchIn) : BenchIn :=
  { site := x.site
    a := (List.range 4).map fun k => pinBits pin (20 * k) (nth 0 x.a k), b := (List.range 4).map fun k => pinBits pin (80 + 20 * k) (nth 0 x.b k)
    d0 := pinBits pin 160 x.d0, d1 := pinBits pin 180 x.d1, c := pinBits pin 200 x.c, t := pinBits pin 264 x.t
    tp := pin 328 x.tp, clr0 := pin 329 x.clr0, clr1 := pin 330 x.clr1 }

/-- The inputs of a Bench. -/
def routedBench (s : Dev) (l : List Setting) (i col : Nat) (x : BenchIn) : BenchIn :=
  if x.via.isEmpty then x else benchInputs (pinLevel s l i (benchColumn col) (siteRow x.site.val) 3 x.via) x

/-- The dynamic index of a column bus lane: routing inputs 400 + 6·lane on at the base of the column. -/
def routedIndex (s : Dev) (l : List Setting) (i col lane : Nat) (via : List PinMux) (x : BitVec 6) : BitVec 6 :=
  if via.isEmpty then x
  else pinBits (pinLevel s l i (if col < 4 then drawerColumn col else benchColumn (col - 4)) 0 1 via) (400 + 6 * lane) x

/-- An input of Hinge `h`, numbered from 500: S_LOAD 0, S_DATA 1 to 80, S_SUPER_CLR 81; S_EVT 0; L_IN 0 to 7; W_REQ 0, W_CLR 1. -/
def hingePin (s : Dev) (i h : Nat) (via : List PinMux) (pin : Nat) (level : Bool) : Bool :=
  pinLevel s (items s i) i (drawerColumn (h / 16)) (hingeRow h) 6 via (500 + pin) level

end Sys2Proof.Machine
end

