-- ==== Sys2Proof/Machine/Fabric.lean ====
section
/-! DEFINITION. The fabric of a sector as commands reach it (chapters 03 to 07): clock edges of half-blocks, column bus
lanes, Benches, Drawers with their Runners, Hinges; global set/reset; configuration upsets. -/

namespace Sys2Proof.Machine

/-- Sector `i` holds state that edges can change: powered, out of global set/reset, ACTIVE or FENCED (R61, R110, R236). The
Cabinet fabric runs while it holds an active image and CAB_RST_N is released (R367). -/
def fabricLive (s : Dev) (i : Nat) : Bool :=
  if i = 64 then s.cab.powered && s.cab.rstN && s.cab.active.isSome
  else
    let c := getSec s i
    c.vcc && !c.gsr && (c.state = .active || c.state = .fenced)

/-- An edge of a clock input of sector `i` occurs. -/
def edgeAt (s : Dev) (i : Nat) (c : ClkSel) : Bool := fabricLive s i && clkRuns s i c

/-! ## Column buses (R69, R70) -/

def benchDflt : Nat → Bench := fun _ => {}
def drawerDflt : Nat → Drawer := fun _ => {}
def hingeDflt : Nat → Hinge := fun _ => {}

/-- Bench `site` of column `col`. -/
def getBench (c : Sector) (col site : Nat) : Bench := tGet benchDflt c.benches (32 * col + site)

/-- Drawer `d` of a sector. -/
def getDrawer (c : Sector) (d : Nat) : Drawer := tGet drawerDflt c.drawers d

/-- Hinge `h` of a sector. -/
def getHinge (c : Sector) (h : Nat) : Hinge := tGet hingeDflt c.hinges h

/-- The fields of a column bus lane. -/
def laneCfgOf (l : List Setting) (col lane : Nat) : LaneCfg :=
  (l.findSome? fun x => match x with
    | .lane c n g => if c.val = col && n.val = lane then some g else none
    | _ => none).getD {}

/-- The index in force on a lane: the static field, or the dynamic index last sampled. -/
def laneIndex (l : List Setting) (c : Sector) (col lane : Nat) : Nat :=
  let g := laneCfgOf l col lane
  if g.dynamic then tGet (fun _ => 63) c.laneIdx (2 * col + lane) else g.index.toNat

/-- What a lane carries: columns 0 to 3 are Drawer columns, 4 to 9 Bench columns. -/
def laneWord (l : List Setting) (c : Sector) (col lane : Nat) : Nat :=
  let i := laneIndex l c col lane
  if 32 ≤ i then 0
  else if col < 4 then drawerLane (drawerCfg l (32 * col + i)) (getDrawer c (32 * col + i))
  else benchLane (benchCfg l (col - 4) i) (getBench c (col - 4) i)

/-- An active edge of a lane's clock samples the dynamic index (R70). -/
def laneEdge (i col lane : Nat) (index : BitVec 6) (via : List PinMux) (s : Dev) : Dev :=
  let l := items s i
  let g := laneCfgOf l col lane
  let index := routedIndex s l i col lane via index
  if g.dynamic && edgeAt s i g.clk then
    updSec s i fun c => { c with laneIdx := tSet (fun _ => 63) c.laneIdx (2 * col + lane) index.toNat }
  else s

/-! ## Logic cells -/

/-- An event at a half-block (R55): an active edge where its clock runs, or the level of an asynchronous SR. -/
def halfEdge (i u v h : Nat) (edge ce sr : Bool) (b : BlockIn) (below : List BlockIn) (s : Dev) : Dev :=
  if fabricLive s i && isLogicColumn u then
    let l := items s i
    let e := edge && clkRuns s i (halfCfg l u v h).clk
    let pin := pinLevel s l i u v 1 b.via
    let under := below.zipIdx.map fun x => routedBlock s l i u (v - 1 - x.2) x.1
    updSec s i fun c => { c with
      ffs := clockHalf l c.ffs u v h e (pin (130 + 2 * h) ce) (pin (131 + 2 * h) sr) (routedBlock s l i u v b) under }
  else s

/-! ## Global set/reset (R56, R61, R214) -/

/-- The contents of a sector while global set/reset is applied: flip-flops at the init values of the active leaf `l`, Benches at 0,
Runners and Hinges in reset with wake latches clear, ports disabled; Drawer arrays stay (R56, R61, R93, R110, R161). -/
def heldContents (l : List Setting) (c : Sector) : Sector :=
  { c with
    ffs := initFfs l, benches := [], hinges := []
    drawers := (c.drawers.map fun e => (e.1, drawerHeld e.2)).filter fun e => e.2 ≠ {} }

/-- Global set/reset is applied to sector `i`. -/
def applyGsr (s : Dev) (i : Nat) : Dev :=
  let l := items s i
  updSec s i fun c => { heldContents l c with gsr := true, gsrDue := false }

/-- Global set/reset has held every flip-flop of sector `i` and is released: init values of the active leaf, clocks start. -/
def gsrRelease (i : Nat) (s : Dev) : Dev :=
  if (getSec s i).gsrDue then
    let l := items s i
    updSec s i fun c => { c with gsr := false, gsrDue := false, clocks := true, ffs := initFfs l }
  else s

/-! ## Initial content of Drawers (R108, R165) -/

/-- The words of a frame in order. -/
def frameWords (t : Tbl Word) : List Word := (List.range 384).map fun w => tGet (fun _ => 0) t w

/-- The words of a Drawer's initial content in the active leaf: 1,280 from word 1,280·s of the span of its column. -/
def contentWords (s : Dev) (i d : Nat) : List Word :=
  let w := 1280 * (d % 32)
  let frame := fun n => frameWords (getFrame s i (activeLeaf s i) (1024 + 112 * (d / 32) + w / 384 + n)).words
  (((List.range 5).flatMap frame).drop (w % 384)).take 1280

/-- The rows of a Drawer's initial content. A leaf with no frame of that column listed holds zero content. The Cabinet leaf has no
index table (R367), so there the rows are items of its frames. -/
def drawerRows (s : Dev) (i d : Nat) : List PWord :=
  if i = 64 then
    (List.range 1024).map fun r => ((items s i).findSome? fun
      | .drawerRow d' r' v => if d'.val = d && r'.val = r then some v else none
      | _ => none).getD 0
  else
    let first := frameKey i (activeLeaf s i) (1024 + 112 * (d / 32))
    if s.cfg.frames.any fun e => first ≤ e.1 && e.1 < first + 112 then (chunks 5 (contentWords s i d)).flatMap fourRows else []

/-- The clock that initialises a Drawer runs (R108): port A's; where that port has none, port B's; else the network clock. -/
def initClock (s : Dev) (i : Nat) (g : DrawerCfg) : Bool :=
  if g.clkA.sel.toNat < 40 then clkRuns s i g.clkA
  else if g.clkB.sel.toNat < 40 then clkRuns s i g.clkB
  else if i = 64 then cabClocks s
  else netRuns s && !(getSec s i).quiet

/-- A write to GCLK_GATE_q (R132). -/
def gclkGateWrite (q : Nat) (v : BitVec 32) (s : Dev) : Dev :=
  updClk s fun c => { c with gates := tSet (fun _ => 0) c.gates q v.toNat }

/-- The routing enable of a regional line's gate changes (R132, R158). -/
def regionalGate (i line : Nat) (en : Bool) (s : Dev) : Dev :=
  updSec s i fun c => { c with lineEn := tSet (fun _ => false) c.lineEn line en }

/-! ## Benches -/

/-- One Bench of an edge: its capture from routing, lanes and cascade as they stood before the edge (R75 to R91). -/
def benchStep (l : List Setting) (c : Sector) (col : Nat) (x : BenchIn) : Bench :=
  let site := x.site.val
  let g := benchCfg l col site
  let below := if site = 0 then {} else getBench c col (site - 1)
  let gb := if site = 0 then {} else benchCfg l col (site - 1)
  let lane := fun n => laneWord l c (col + 4) n
  let (t, tp) := match (effTsrc g).toNat with
    | 2 => (BitVec.ofNat 64 (lane 0), (lane 0).testBit 64)
    | 3 => (BitVec.ofNat 64 (lane 1), (lane 1).testBit 64)
    | _ => (x.t, x.tp)
  benchEdge g (getBench c col site) below (captureOperands g x t tp (operandCascade gb below))

/-- An edge at which the Benches of `xs` are enabled (R90, R91). -/
def benchCapture (i col : Nat) (xs : List BenchIn) (s : Dev) : Dev :=
  let l := items s i
  let c := getSec s i
  let xs := (xs.filter fun x => edgeAt s i (benchCfg l col x.site.val).clk).map (routedBench s l i col)
  updSec s i fun c' => { c' with
    benches := xs.foldl (fun t x => tSet benchDflt t (32 * col + x.site.val) (benchStep l c col x)) c'.benches }

/-- RST at an edge (R90): every pipeline register, accumulator and flag takes 0. -/
def benchRst (i col site : Nat) (s : Dev) : Dev :=
  if edgeAt s i (benchCfg (items s i) col site).clk then
    updSec s i fun c => { c with benches := tSet benchDflt c.benches (32 * col + site) {} }
  else s

/-! ## Drawers -/

/-- What a sector counts, logs and raises for a Drawer (R103, R104, R487). -/
def drawerNote (i d : Nat) (s : Dev) : DrawerNote → Dev
  | .ecc row w => if i = 64 then s else eccNote s (uSector i) (d * 1024 + row) w
  | .consumed portB row =>
    if i = 64 then s
    else raiseS s fltPoisonConsumed (i * 2 ^ 58 + 2 ^ 57 + portB.toNat * 2 ^ 56 + d * 1024 + row) i

/-- Replace Drawer `d` by what an operation answers, with its notes. -/
def drawerOp (i d : Nat) (f : Drawer → Drawer × List DrawerNote) (s : Dev) : Dev :=
  let r := f (getDrawer (getSec s i) d)
  r.2.foldl (drawerNote i d) (updSec s i fun c => { c with drawers := tSet drawerDflt c.drawers d r.1 })

/-- The write data and poison of a port (R95): from routing, or from a lane of the Drawer's column. -/
def portData (l : List Setting) (c : Sector) (d : Nat) (src : BitVec 2) (din : PWord) (wp : Bool) : PWord × Bool :=
  let lane := fun n => laneWord l c (d / 32) n
  match src.toNat with
  | 1 => (BitVec.ofNat 80 (lane 0), (lane 0).testBit 64)
  | 2 => (BitVec.ofNat 80 (lane 1), (lane 1).testBit 64)
  | _ => (din, wp)

/-- A port's signals with their write data. -/
def portSignals (l : List Setting) (c : Sector) (d : Nat) (src : BitVec 2) (p : PortIn) : PortIn :=
  let (din, wp) := portData l c d src p.din p.wp
  { p with din, wp }

/-- An access at one or both ports (R99 to R105). A Runner in a queue or delay mode has the ports (R111, R118). -/
def drawerPortAccess (i d : Nat) (a b : Option PortIn) (bFirst close : Bool) (s : Dev) : Dev :=
  let l := items s i
  let c := getSec s i
  let g := drawerCfg l d
  if g.runner ≠ .none then s
  else
    let a := if edgeAt s i g.clkA then a.map fun p => portSignals l c d g.wsrcA (routedPort s l i d false p) else none
    let b := if edgeAt s i g.clkB then b.map fun p => portSignals l c d g.wsrcB (routedPort s l i d true p) else none
    let (v, s') := takeWord s
    if close then drawerOp i d (drawerAccess g a b bFirst (some v)) s'
    else drawerOp i d (drawerAccess g a b bFirst none) s

/-- An edge of a queue's write side (R113, R114). -/
def queueWriteOp (i d : Nat) (din : PWord) (wp rd : Bool) (s : Dev) : Dev :=
  let l := items s i
  let g := drawerCfg l d
  if (g.runner = .single || g.runner = .dual) && edgeAt s i g.clkA then
    let (din, wp) := portData l (getSec s i) d g.wsrcA din wp
    drawerOp i d (queueWrite g din wp rd) s
  else s

/-- An edge of a queue's read side (R113). -/
def queueReadOp (i d : Nat) (rd : Bool) (s : Dev) : Dev :=
  let g := drawerCfg (items s i) d
  if (g.runner = .single && edgeAt s i g.clkA) || (g.runner = .dual && edgeAt s i g.clkB) then
    drawerOp i d (queueReadEdge g rd) s
  else s

/-- A pointer reaches the other side of a dual-clock queue (R115). -/
def queueSyncOp (i d : Nat) (toRead : Bool) (skip : Nat) (s : Dev) : Dev :=
  let g := drawerCfg (items s i) d
  if g.runner = .dual && edgeAt s i (if toRead then g.clkB else g.clkA) then
    drawerOp i d (fun x => (pointerSync toRead skip x, [])) s
  else s

/-- RST of a queue or delay line (R117). -/
def queueRstOp (i d : Nat) (e : RstEvent) (s : Dev) : Dev :=
  let g := drawerCfg (items s i) d
  let runs := match e with
    | .edge second => edgeAt s i (if second && g.runner = .dual then g.clkB else g.clkA)
    | _ => fabricLive s i
  if g.runner ≠ .none && runs then drawerOp i d (fun x => (runnerRst g e x, [])) s else s

/-- An advancing edge of a delay line (R118). -/
def delayLineOp (i d : Nat) (din : PWord) (wp : Bool) (s : Dev) : Dev :=
  let l := items s i
  let g := drawerCfg l d
  if g.runner = .delay && edgeAt s i g.clkA then
    let (din, wp) := portData l (getSec s i) d g.wsrcA din wp
    drawerOp i d (delayAdvance g din wp) s
  else s

/-- Part of a background pass attempt (R119, R120), at an edge of port B's clock, which in the single-clock queue is port A's (R111). -/
def passOp (i d : Nat) (ph : PassPhase) (s : Dev) : Dev :=
  let g := drawerCfg (items s i) d
  if edgeAt s i (if g.runner = .single then g.clkA else g.clkB) then drawerOp i d (passAttempt g ph) s else s

/-! ## Hinges -/

/-- Apply `f` to Hinge `h`. -/
def updHinge (i h : Nat) (f : Hinge → Hinge) (s : Dev) : Dev :=
  updSec s i fun c => { c with hinges := tUpd hingeDflt c.hinges h f }

/-- An edge of one side of Hinge `h` of the given kind. -/
def hingeEdge (kind : HingeKind) (dst : Bool) (i h : Nat) (f : HingeCfg → Hinge → Hinge) (s : Dev) : Dev :=
  let g := hingeCfg (items s i) h
  if g.kind = kind && edgeAt s i (if dst then g.dstClk else g.srcClk) then updHinge i h (f g) s else s

/-- A source edge of a value crossing, its inputs taken from their multiplexers where `via` gives them (R150); `done`: one that ends a
handshake. -/
def valueLoadOp (done : Bool) (i h : Nat) (load : Bool) (data : PWord) (clr late : Bool) (via : List PinMux) (s : Dev) : Dev :=
  let pin := hingePin s i h via
  let load := pin 0 load
  let data := pinBits pin 1 data
  let clr := pin 81 clr
  hingeEdge .value false i h (fun g => if done then valueComplete g load clr data late else valueLoad g load clr data late) s

/-- A source edge of a counter crossing (R155): S_EVT is 1, or what its multiplexer gives. -/
def counterEventOp (i h : Nat) (late : Bool) (via : List PinMux) (s : Dev) : Dev :=
  hingeEdge .counter false i h (fun g => counterEvent g (hingePin s i h via 0 true) late) s

/-- A destination edge of a level Hinge (R147). -/
def levelSampleOp (i h : Nat) (inp late : BitVec 8) (via : List PinMux) (s : Dev) : Dev :=
  hingeEdge .level true i h (fun g => levelSample g (pinBits (hingePin s i h via) 0 inp) late) s

/-- RST of a Hinge, or an edge of a side in reset (R160); a wake Hinge has none. -/
def hingeRstOp (i h : Nat) (e : RstEvent) (s : Dev) : Dev :=
  let g := hingeCfg (items s i) h
  let runs := match e with
    | .edge second => edgeAt s i (if second then g.dstClk else g.srcClk)
    | _ => fabricLive s i
  if g.kind ≠ .wake && runs then updHinge i h (hingeRst g e) s else s

/-- A pulse of W_REQ of the given length (R157): 250 ps or more sets the latch; a shorter one may or may not. -/
def wakeRequest (i h ps : Nat) (s : Dev) : Dev :=
  if (hingeCfg (items s i) h).kind = .wake && fabricLive s i then
    let (v, s') := takeBit s
    if 250 ≤ ps then updHinge i h (fun x => { x with latch := true }) s
    else updHinge i h (fun x => { x with latch := x.latch || v }) s'
  else s

/-- An edge of the woken regional line with W_CLR 1 (R158). -/
def wakeClear (i h : Nat) (wReq : Bool) (via : List PinMux) (s : Dev) : Dev :=
  let g := hingeCfg (items s i) h
  let pin := hingePin s i h via
  if g.kind = .wake && edgeAt s i { sel := BitVec.ofNat 6 (32 + g.wakeLine.toNat) } && !pin 0 wReq && pin 1 true then
    updHinge i h (fun x => { x with latch := false }) s
  else s

/-! ## Configuration upsets (R62, R163) -/

/-- An upset inverts configuration bits of a frame: the frame then configures those of `now` that it can hold (R165). A leaf without power holds nothing. -/
def configUpset (i l f : Nat) (flips : List Nat) (now : List Setting) (s : Dev) : Dev :=
  if f < framesOf i && (getSec s i).cfgPower then
    let fr := getFrame s i l f
    let words := flips.foldl (fun t b => tUpd (fun _ => 0) t (b / 64 % 384) fun w => w ^^^ BitVec.ofNat 64 (2 ^ (b % 64))) fr.words
    setFrame s i l f { fr with words, meaning := now.filter (frameHolds i f) }
  else s

end Sys2Proof.Machine
end

