-- ==== Sys2Proof/Machine/Requests.lean ====
section
/-! DEFINITION. Transactions at requesters and targets (R277 to R298, R302): issue, credits, sub-reads, responses, timers,
reassembly, user ports. -/

namespace Sys2Proof.Machine

/-! ## Issuing -/

/-- A request ready to be issued: its words as carried. -/
structure Issue where
  op : ReqOp
  addr : Nat
  len : Nat
  first : Nat
  last : Nat
  data : List (List PWord) := []
  operands : List PWord := []
  bulk : Bool := true
  prio : Nat := 0
  key : Nat := 0
  raHint : Bool := false
  raStream : Nat := 0
  deriving DecidableEq, Repr

/-- Encode words presented with their poison bits (R35). -/
def encodeAll (l : List (Word × Bool)) : List PWord := l.map fun x => encodeWord x.1 x.2

/-- A list of exactly four words. -/
def four (l : List PWord) : List PWord := (l ++ zeroPayload).take 4

/-- A user port's request, encoded at injection. -/
def issueOf (r : Request) : Issue :=
  { op := r.op, addr := r.addr.toNat, len := r.len.toNat, first := r.firstMask.toNat, last := r.lastMask.toNat
    data := (List.range (r.len.toNat + 1)).map fun k => four (encodeAll (nth [] r.data k))
    operands := encodeAll r.operands, bulk := r.bulk, prio := r.prio.toNat, key := r.key.toNat, raHint := r.raHint
    raStream := r.raStream.toNat }

/-- Response parcels that a request is answered with, at most (R283). -/
def respParcels (op : ReqOp) (len : Nat) : Nat := if op = .rd then len + 1 else 1

/-- The parcels of a request (R265, R285). -/
def requestParcels (k epoch tag dr dp : Nat) (x : Issue) : List Parcel :=
  let w0 := BitVec.ofNat 64 (x.addr % 2 ^ 48 + x.len % 64 * 2 ^ 48 + x.raHint.toNat * 2 ^ 56 + x.raStream % 8 * 2 ^ 57)
  let w1 := BitVec.ofNat 64 (x.first % 2 ^ 32 + x.last % 2 ^ 32 * 2 ^ 32)
  let ops := if isAtomic x.op then x.operands else []
  let h : Hdr := { epoch, key := x.key, op := opcodeOf x.op, tag, prio := x.prio, bulk := x.bulk, src := k / 4, srcPort := k % 4
                   dst := dr, dstPort := dp, last := !isWrite x.op, seq := 0 }
  let req := mkParcel h (four ([encodeWord w0 false, encodeWord w1 false] ++ ops))
  if isWrite x.op then
    req :: (List.range (x.len + 1)).map fun i =>
      mkParcel { h with op := 7, seq := i, last := i = x.len } (four (nth [] x.data i))
  else [req]

/-- Parcels go to the outbound queue: at a fabric attachment they enter it one at each user edge (R277); an edge block has no such
queue of a stated size. -/
def offerParcels (k : Nat) (ps : List Parcel) (e : Endpoint) : Endpoint :=
  if isFabricAddr (k / 4) then { e with entering := e.entering ++ ps } else { e with outq := e.outq ++ ps }

/-- An edge of the user clock of attachment point `k` occurs (R277, R71). -/
def userEdge (s : Dev) (k : Nat) : Bool := edgeAt s (sectorOfAddr (k / 4)) (attFields s k).clk

/-- One parcel enters the outbound queue of 32, where it has room (R277). -/
def enterOne (k : Nat) (s : Dev) : Dev :=
  let e := getEp s k
  match e.entering with
  | [] => s
  | p :: ps => if e.outq.length < 32 then updEp s k fun e => { e with entering := ps, outq := e.outq ++ [p] } else s

/-- At a user edge one parcel enters the outbound queue (R277). -/
def enterStep (k : Nat) (s : Dev) : Dev := if userEdge s k then enterOne k s else s

/-- A user port can offer parcels: it has none that still wait, and the queue has room. -/
def portReady (e : Endpoint) : Bool := e.entering.isEmpty && decide (e.outq.length < 32)

/-- A request enters the outbound queue. It takes its tag and its credits when it is injected (R288, R289). -/
def enterRequest (k : Nat) (user : ReqUser) (agent : Option Nat) (split : Option Nat) (dr dp : Nat) (x : Issue) (s : Dev) : Dev :=
  updEp s k fun e =>
    let q : Queued := { id := e.nextId, op := x.op, addr := x.addr, len := x.len, dstR := dr, dstP := dp
                        need := respParcels x.op x.len, split, agent, user }
    offerParcels k (requestParcels k e.epoch (e.nextId % 4096) dr dp x)
      { e with nextId := e.nextId + 1, requests := e.requests ++ [q] }

/-- A completion that the attachment itself gives. -/
def selfComplete (k : Nat) (code : Nat) (s : Dev) : Dev :=
  updEp s k fun e => { e with completions := e.completions ++ [{ user := .userPort, tag := e.nextTag, code, data := [] }] }

/-- The next sub-read of a split read is issued when its credits are free; a FENCED attachment completes it (R229, R291). -/
def subRead (k : Nat) (s : Dev) : Dev :=
  let e := getEp s k
  match e.splits.find? fun p => p.issued < p.total with
  | none => s
  | some p =>
    let n := p.req.len.toNat
    let lo := p.step * p.issued
    let parcels := min p.step (n + 1 - lo)
    let base := issueOf p.req
    let ones := 2 ^ 32 - 1
    let x := { base with
      addr := (base.addr + 32 * lo) % 2 ^ 48
      len := parcels - 1
      first := if lo = 0 then base.first else ones
      last := if p.issued + 1 = p.total then base.last else ones }
    let mark := fun s => updEp s k fun e =>
      { e with splits := mapIf (fun q => q.id = p.id) (fun q => { q with issued := q.issued + 1 }) e.splits }
    if epState s k = .fenced then
      updEp (mark s) k fun e =>
        completeTxn rspFenced [] { tag := e.nextTag, op := .rd, addr := x.addr, len := x.len, dstR := p.dstR, dstP := p.dstP
                                   epoch := e.epoch, need := parcels, split := some p.id, user := p.user } e
    else if epState s k = .active && portReady e && creditsAllow s k p.dstR parcels then
      enterRequest k p.user none (some p.id) p.dstR p.dstP x (mark s)
    else s

/-- An initiator port issues a transaction (R20, R21, R229, R289, R291). It waits where its tag, credits or queue are not free. The
address cases of R20 and its case of a group without credits (R289) come before FENCED (DEDUCED, assumption 128). -/
def userRequest (k : Nat) (r : Request) (s : Dev) : Dev :=
  let e := getEp s k
  let x := issueOf r
  let posted := decide (x.op = .wrp)
  if !userEdge s k || !(epState s k = .active || epState s k = .fenced) then s
  else match decodeAddr s false x.addr x.len x.first x.last with
    | .refused c => if posted then s else selfComplete k c s
    | .to dr dp =>
      let g := groupOfRouter dr
      let c := creditsOf (attFields s k) g
      if !posted && c = 0 then selfComplete k rspUnmapped s
      else if epState s k = .fenced then
        if posted then (match (requestParcels k e.epoch e.nextTag dr dp x).head? with
          | some p => countDrop s k dropPosted p
          | none => s)
        else selfComplete k rspFenced s
      else if !portReady e then s
      else if posted then enterRequest k .userPort none none dr dp x s
      else if x.op = .rd && c < x.len + 1 then
        let sp : Split := { id := e.nextSplit, req := r, dstR := dr, dstP := dp, step := c, issued := 0
                            total := (x.len + c) / c, done := [] }
        subRead k (updEp s k fun e => { e with splits := e.splits ++ [sp], nextSplit := e.nextSplit + 1 })
      else if creditsAllow s k dr (respParcels x.op x.len) then
        enterRequest k .userPort none none dr dp x s
      else s

/-- An edge requester issues a request: its own attachment refuses it, or it goes out (R20, R21, R292). -/
def edgeRequest (k : Nat) (user : ReqUser) (agent : Option Nat) (mgmt : Bool) (x : Issue) (s : Dev) : Option Nat × Dev :=
  match decodeAddr s mgmt x.addr x.len x.first x.last with
  | .refused c => (some c, s)
  | .to dr dp => (none, enterRequest k user agent none dr dp x s)

/-! ## Responses (R302) and timers -/

/-- Data parcels in order. -/
def inOrder (l : List (Nat × List PWord)) : List (List PWord) :=
  (List.range 64).filterMap fun q => (l.find? fun x => x.1 = q).map (·.2)

/-- A response reaches a router side: it is delivered to its initiator, or discarded as stale. -/
def responseDelivery (k : Nat) (s : Dev) : Dev :=
  let e := getEp s k
  match e.resp with
  | [] => s
  | p :: rest =>
    let h := pHdr p
    let s := updEp s k fun e => { e with resp := rest }
    match e.txns.find? fun t => t.tag = h.tag && !t.quarantined with
    | none => countDrop s k dropStale p
    | some t =>
      if h.epoch ≠ e.epoch || h.src ≠ t.dstR || h.srcPort ≠ t.dstP then countDrop s k dropStale p
      else
        let got := if h.op = 8 then t.got ++ [(h.seq, p.pay)] else t.got ++ [(64, [])]
        let t' := { t with got, need := if h.op = 8 then t.need else got.length, code := if h.op = 10 then h.key else t.code }
        let s := updEp s k fun e => { e with txns := mapIf (fun x => x.tag = t.tag && !x.quarantined) (fun _ => t') e.txns }
        if isFabricAddr (k / 4) then updEp s k fun e => { e with inq := e.inq ++ [p] }
        else if t'.got.length < t'.need then s
        else updEp s k (endTxn t'.code (if t'.code = 0 then inOrder t'.got else []) t')

/-- Parcels of its response that a transaction has: those delivered, and those ejected by this edge (R297). -/
def ejectedParcels (e : Endpoint) (t : Txn) : Nat :=
  let mine := e.resp.filter fun p =>
    let h := pHdr p
    h.tag = t.tag && h.epoch = e.epoch && h.src = t.dstR && h.srcPort = t.dstP
  if mine.any fun p => (pHdr p).op ≠ 8 then t.need else t.got.length + mine.length

/-- A transaction timer expires before its response is complete (R297). -/
def transactionTimeout (k tag : Nat) (s : Dev) : Dev :=
  let e := getEp s k
  match e.txns.find? fun t => t.tag = tag && t.injected && !t.quarantined && ejectedParcels e t < t.need with
  | none => s
  | some t =>
    let s := updEp s k fun e => completeTxn rspTimeout [] t { e with
      txns := mapIf (fun x => x.tag = tag) (fun x => { x with quarantined := true }) e.txns
      inq := e.inq.filter fun p => !(isResponse (pHdr p).op && (pHdr p).tag = tag) }
    raise s fltNocTimeout
      (k / 4 * 2 ^ 55 + k % 4 * 2 ^ 53 + tag * 2 ^ 41 + opcodeOf t.op * 2 ^ 37 + t.dstR)
      (if isFabricAddr (k / 4) then 2 ^ sectorOfAddr (k / 4) else 0)

/-- A quarantined tag may be allocated again (R288). -/
def quarantineEnd (k tag : Nat) (s : Dev) : Dev :=
  updEp s k fun e => { e with txns := e.txns.filter fun t => !(t.tag = tag && t.quarantined) }

/-! ## Targets (R293 to R295) -/

/-- A request or WDATA parcel enters reassembly. -/
def hold (p : Parcel) (l : List Reasm) : List Reasm :=
  let h := pHdr p
  let same := fun (r : Reasm) => r.src = h.src && r.port = h.srcPort && r.tag = h.tag
  let l := if l.any same then l else l ++ [{ src := h.src, port := h.srcPort, tag := h.tag, req := none, data := [] }]
  mapIf same (fun r => if h.op = 7 then { r with data := r.data ++ [(h.seq, p.pay)] } else { r with req := some p }) l

/-- Take parcels out of a buffer in arrival order, as long as the block has room for them: those left, and reassembly. -/
def gatherList (room : List Reasm → Parcel → Bool) : List Parcel → List Reasm → List Parcel × List Reasm
  | [], l => ([], l)
  | p :: ps, l => if room l p then gatherList room ps (hold p l) else (p :: ps, l)

/-- An edge block takes the parcels of its ejection buffer into reassembly, while it has room (R256). -/
def gatherWhile (k : Nat) (room : List Reasm → Parcel → Bool) (s : Dev) : Dev :=
  updEp s k fun e => let x := gatherList room e.inq e.reasm; { e with inq := x.1, reasm := x.2 }

/-- The same for a block whose queues never fill. -/
def gather (k : Nat) (s : Dev) : Dev := gatherWhile k (fun _ _ => true) s

/-- All parcels of a transaction are present. -/
def complete (r : Reasm) : Bool :=
  match r.req with
  | none => false
  | some p =>
    if (pHdr p).op = 1 || (pHdr p).op = 2 then decide ((reqFields p).len + 1 ≤ r.data.length) else true

/-- The transaction that a target holds under a source and tag. -/
def held (s : Dev) (k src port tag : Nat) : Option Reasm :=
  (getEp s k).reasm.find? fun r => r.src = src && r.port = port && r.tag = tag

/-- Remove it. -/
def unhold (k src port tag : Nat) (s : Dev) : Dev :=
  updEp s k fun e => { e with reasm := e.reasm.filter fun r => !(r.src = src && r.port = port && r.tag = tag) }

/-- The ECC unit in which a target counts its request words (R42, R508). -/
def targetUnit (k : Nat) : Nat :=
  let a := k / 4
  if isFabricAddr a then uQuadrant (sectorOfAddr a / 16)
  else if a = bureauAddr then uBureau
  else if a = timebaseAddr then uTimebase
  else if a = gatewayAddr then uGateway
  else match ((List.range 8).map ddrAddr).findIdx? (· = a) with
    | some n => n
    | none => match ((List.range 4).map sramAddr).findIdx? (· = a) with
      | some n => 8 + n
      | none => match ((List.range 4).map pcieAddr).findIdx? (· = a) with
        | some n => uPcie n
        | none => uBureau

/-- Decode the request words, counted at the target (R42); words 2 and 3 of an atomic are request words too (R284). -/
def countReqWords (k : Nat) (p : Parcel) (s : Dev) : Dev :=
  let h := pHdr p
  let n := if 3 ≤ h.op && h.op ≤ 5 then 4 else 2
  (List.range n).foldl (fun s w => eccTransit s (targetUnit k) h.src (pWord p w)) s

/-- A request word is poisoned or UNCORRECTABLE (R266, R284). -/
def reqPoisoned (p : Parcel) : Bool :=
  let h := pHdr p
  let n := if 3 ≤ h.op && h.op ≤ 5 then 4 else 2
  (List.range n).any fun w =>
    let d := decodeWord (pWord p w)
    d.poison || d.outcome = .uncorrectable

/-- The request of a complete transaction. -/
def memReq (r : Reasm) (p : Parcel) : MemReq :=
  let h := pHdr p
  let f := reqFields p
  { src := h.src, port := h.srcPort, tag := h.tag, epoch := h.epoch, bulk := h.bulk, prio := h.prio, key := h.key
    op := (reqOf h.op).getD .rd, addr := f.addr, len := f.len, first := f.first, last := f.last
    data := (List.range (f.len + 1)).map fun k => alGet [] r.data k
    operands := [pWord p 2, pWord p 3], raHint := f.raHint, raStream := f.raStream }

/-- The header of a request, as status registers record it. -/
def MemReq.hdr (q : MemReq) (k : Nat) : BitVec 64 :=
  ({ epoch := q.epoch, key := q.key, op := opcodeOf q.op, tag := q.tag, prio := q.prio, bulk := q.bulk, src := q.src
     srcPort := q.port, dst := k / 4, dstPort := k % 4, last := !isWrite q.op } : Hdr).bits

/-- Response parcels from endpoint `k` (R285, R286): an error, an acknowledgement, or data parcels. -/
def respond (k : Nat) (q : MemReq) (code : Nat) (data : List (List PWord)) (s : Dev) : Dev :=
  let h : Hdr := { epoch := q.epoch, tag := q.tag, bulk := q.bulk, prio := q.prio, src := k / 4, srcPort := k % 4, dst := q.src
                   dstPort := q.port, op := 10, key := code }
  let out := if q.op = .wrp then []
    else if code ≠ 0 then [mkParcel h [clean q.addr, clean 0, clean 0, clean 0]]
    else if q.op = .wr then [mkParcel { h with op := 9 } zeroPayload]
    else data.zipIdx.map fun x => mkParcel { h with op := 8, seq := x.2, last := x.2 + 1 = data.length } (four x.1)
  updEp s k (offerParcels k out)

/-- A write that is too large is refused whole (R294). -/
def oversize (k : Nat) (r : Reasm) (p : Parcel) (s : Dev) : Dev :=
  let q := memReq r p
  let s := if q.op = .wrp then incR s (rDrop (k / 4) (k % 4)) 47 36 1 else respond k q rspOversize [] s
  if complete r then unhold k r.src r.port r.tag s
  else updEp s k fun e =>
    { e with reasm := mapIf (fun x => x = r) (fun x => { x with refused := true }) e.reasm }

/-- Reassembly size of a target in data parcels (R294, R388). -/
def reasmSize (s : Dev) (k : Nat) : Nat :=
  let a := k / 4
  if isFabricAddr a then (attFields s k).reasm.toNat + 1
  else if a = bureauAddr || a = timebaseAddr then 1
  else if a = gatewayAddr then 8
  else 64

/-- An atomic is well formed (R284): length 0, address [2:0] zero, exactly the 8 bytes at the address. -/
def atomicOk (q : MemReq) : Bool :=
  q.len = 0 && q.addr % 8 = 0 && (q.first &&& q.last) = 255 * 2 ^ (q.addr % 32)

/-- Byte mask of the word at device address `a` (a multiple of 8) under a request. -/
def wordMask (q : MemReq) (a : Nat) : Nat :=
  let off := a - q.addr / 32 * 32
  nbits (parcelMask q.len q.first q.last (off / 32)) (off % 32 + 7) (off % 32)

/-- The words that a request enables, by device address. -/
def reqWords (q : MemReq) : List Nat :=
  ((List.range (4 * (q.len + 1))).map fun i => q.addr / 32 * 32 + 8 * i).filter fun a => wordMask q a ≠ 0

/-- The word that a write carries for device address `a`. -/
def carriedWord (q : MemReq) (a : Nat) : PWord :=
  let off := a - q.addr / 32 * 32
  nth 0 (nth [] q.data (off / 32)) (off % 32 / 8)

/-- Data parcels of a read from the words read: a word without an enabled byte is a clean zero word. -/
def readParcels (q : MemReq) (got : List (Nat × PWord)) : List (List PWord) :=
  (List.range (q.len + 1)).map fun k => (List.range 4).map fun w => alGet (clean 0) got (q.addr / 32 * 32 + 32 * k + 8 * w)

/-- What a target finds when asked to perform a transaction: nothing ready, refused, or a request to perform. -/
inductive Taken where
  | nothing
  | done
  | perform (q : MemReq)
  deriving DecidableEq, Repr

/-- Take a transaction for performance at endpoint `k` with the checks common to every target (R266, R293, R294). `early` answers
before the request words are examined (a memory that performs nothing yet, R47). -/
def takeRequest (k src port tag : Nat) (early : Option Nat) (s : Dev) : Taken × Dev :=
  match held s k src port tag with
  | none => (.nothing, s)
  | some r =>
    if r.refused then
      (.nothing, if complete r then unhold k src port tag s else s)
    else match r.req with
      | none => (.nothing, s)
      | some p =>
        let q := memReq r p
        if isWrite q.op && reasmSize s k < q.len + 1 then (.done, oversize k r p s)
        else if !complete r then (.nothing, s)
        else
          let s := countReqWords k p (unhold k src port tag s)
          match early with
          | some c => (.done, respond k q c [] s)
          | none => if reqPoisoned p then (.done, respond k q rspReqPoisoned [] s) else (.perform q, s)

/-- FLT_POISON_CONSUMED for an attachment (R39, R488). -/
def raisePoison (k addr : Nat) (s : Dev) : Dev :=
  let a := k / 4
  raiseS s fltPoisonConsumed (sectorOfAddr a * 2 ^ 58 + sideOfAddr a * 2 ^ 56 + k % 4 * 2 ^ 55 + addr % 2 ^ 48) (sectorOfAddr a)

/-- Parcels of an incomplete transaction have waited one transaction timeout (R295); those of a refused write are not counted
(R294). -/
def reassemblyTimeout (k src port tag : Nat) (s : Dev) : Dev :=
  let s := if isEdgeAddr (k / 4) then gather k s else s
  match held s k src port tag with
  | none => s
  | some r =>
    if complete r && !r.refused then s
    else
      let s := unhold k src port tag s
      let s := match r.early with
        | some _ => let (w, s) := takeWord s; raisePoison k (fld w 47 0) s
        | none => s
      if r.refused then s else incR s (rDrop (k / 4) (k % 4)) 47 36 1

/-! ## User ports of a fabric attachment (R39, R278) -/

/-- Words as presented at a user port: a poisoned word is data zero unless the attachment is poison-aware. -/
def presentWords (aware : Bool) (l : List Plain) : List Plain := l.map fun x => if x.2 && !aware then (0, false) else x

/-- Decode a parcel's payload at a user port, counted for the quadrant. -/
def decodePayload (k : Nat) (src : Nat) (l : List PWord) (s : Dev) : List Plain × Dev :=
  l.foldl (fun (r : List Plain × Dev) w =>
    let x := consume r.2 (targetUnit k) src w
    (r.1 ++ [x.1], x.2)) ([], s)

/-- Device address of word `w` of data parcel `seq` of a transaction at `addr`. -/
def wordAddr (addr seq w : Nat) : Nat := addr / 32 * 32 + 32 * seq + 8 * w

/-- The poisoned words of a parcel presented at a target port (R39): the fault is raised once per transaction, with the address of
the first. Where the request has not been presented yet that address is not known: the place is kept, and the fault raised with
the request (DEDUCED, assumption 142). -/
def notePoison (k : Nat) (p : Parcel) (poisoned : Option Nat) (s : Dev) : Dev :=
  let h := pHdr p
  match held s k h.src h.srcPort h.tag with
  | none => s
  | some r =>
    let place := r.early.or (poisoned.map fun w => (h.seq, w))
    let set := fun (f : Reasm → Reasm) s => updEp s k fun e => { e with reasm := mapIf (fun x => x = r) f e.reasm }
    if r.noted then s
    else match place, r.req with
      | some (q, w), some rq => raisePoison k (wordAddr (reqFields rq).addr q w) (set (fun x => { x with noted := true, early := none }) s)
      | some x, none => set (fun y => { y with early := some x }) s
      | none, _ => s

/-- A user edge presents the head of the inbound queue (R278): a response parcel leaves towards its initiator, releasing its
credit, and the transaction completes with its last one; a request or WDATA parcel goes to the target port's reassembly. -/
def presentInbound (k : Nat) (s : Dev) : Dev :=
  let e := getEp s k
  match e.inq with
  | [] => s
  | p :: rest =>
    if !userEdge s k then s
    else
      let h := pHdr p
      let aware := (attFields s k).poisonAware
      let s := updEp s k fun e => { e with inq := rest, lag := addLag e.lag }
      if isResponse h.op then
        match e.txns.find? fun t => t.tag = h.tag && !t.quarantined with
        | none => s
        | some t =>
          let r := if h.op = 8 then decodePayload k h.src p.pay s else ([], s)
          let bad := if aware || t.noted then none else r.1.findIdx? (·.2)
          let s := match bad with
            | some w => raisePoison k (wordAddr t.addr h.seq w) r.2
            | none => r.2
          let ws := presentWords aware r.1
          let t' := { t with shown := t.shown + 1, noted := t.noted || bad.isSome
                             got := mapIf (fun x => x.1 = h.seq && h.op = 8) (fun x => (x.1, encodeAll ws)) t.got }
          let s := updEp s k fun e =>
            { e with txns := mapIf (fun x => x.tag = t.tag && !x.quarantined) (fun _ => t') e.txns
                     presented := some { hdr := p.hdr, words := ws } }
          if t'.shown < t'.need then s
          else updEp s k fun e => endTxn t'.code (if t'.code = 0 then inOrder t'.got else []) t' e
      else
        let r := if h.op = 7 then decodePayload k h.src p.pay s else ([], s)
        let p' := if h.op = 7 then { p with pay := encodeAll (presentWords aware r.1) } else p
        let s := updEp r.2 k fun e =>
          { e with reasm := hold p' e.reasm, presented := some { hdr := p.hdr, words := presentWords aware r.1 } }
        notePoison k p' (if aware then none else r.1.findIdx? (·.2)) s

/-- A fabric target port accepts a complete transaction (R293, R294). -/
def fabricTarget (k src port tag : Nat) (s : Dev) : Dev :=
  match held s k src port tag with
  | none => s
  | some r0 =>
    match takeRequest k src port tag none s with
    | (.perform q, s) => if q.op = .wrp then s else updEp s k fun e => { e with accepted := e.accepted ++ [r0] }
    | (_, s) => s

/-- A fabric target port issues its response to a transaction it accepted (R277, R284, R287). -/
def targetResponse (k : Nat) (r : TargetResp) (s : Dev) : Dev :=
  let e := getEp s k
  let same := fun (x : Reasm) => x.src = r.src.toNat && x.port = r.srcPort.toNat && x.tag = r.tag.toNat
  if !userEdge s k || !portReady e then s
  else match e.accepted.find? same with
    | none => s
    | some x => match x.req with
      | none => s
      | some p =>
        let q := memReq x p
        let n := respParcels q.op q.len
        let data := (List.range n).map fun i => encodeAll (nth [] r.data i)
        let s := updEp s k fun e => { e with accepted := e.accepted.filter fun y => !same y }
        respond k q r.code.toNat data s

/-! ## Network registers (R281) -/

/-- A write to NOC_EDGE_REG_a: the regulator's fields, with the tokens held up to the new depth. -/
def edgeRegWrite (a : Nat) (v : Word) (s : Dev) : Dev :=
  let r := rEdgeReg a
  let s := setR (setR (setR (setR s r 63 63 (fld v 63 63)) r 51 48 (fld v 51 48)) r 33 32 (fld v 33 32)) r 31 16 (fld v 31 16)
  let d := (regulator s (4 * a)).depth
  updEp s (4 * a) fun e => { e with tokens := min e.tokens d }

end Sys2Proof.Machine
end

