-- ==== Sys2Proof/Machine/IoCells.lean ====
section
/-! DEFINITION. I/O cells (R472 to R477, R176, R222): owner, fields, registers and taps at a commit strobe, safe-value latch, and
what a cell drives. -/

namespace Sys2Proof.Machine

def cellDflt : Nat → IoCell := fun _ => {}

/-- I/O cell `c` = 48·bank + cell. -/
def getCell (s : Dev) (c : Nat) : IoCell := tGet cellDflt s.io.cells c

/-- Apply `f` to I/O cell `c`. -/
def updCell (s : Dev) (c : Nat) (f : IoCell → IoCell) : Dev :=
  { s with io := { s.io with cells := tUpd cellDflt s.io.cells c f } }

/-- A high-voltage bank (R471). -/
def hvCell (c : Nat) : Bool := 384 ≤ c

/-- A standard that R471 lists for the cell's bank. The manual does not number the standards; the model numbers them from 0 in
the order of R471, with open-drain after the LVCMOS standards. DESIGN CHOICE, assumption 12. -/
def knownStd (c std : Nat) : Bool := if hvCell c then std < 4 else std < 10

/-- The supply in millivolts that a standard needs; 0 where it works at any supply (R471). -/
def stdSupply (c std : Nat) : Nat :=
  if hvCell c then nth 0 [1800, 2500, 3300] std else nth 0 [1000, 1200, 1500, 1800, 1200, 1350, 1500, 1500, 1800] std

/-- The measured supply of a cell's bank lies within the nominal ± 5 % of R520. -/
def supplyFits (s : Dev) (c need : Nat) : Bool :=
  let v := fldR s (rBank (c / 48)) 15 0
  decide (19 * need ≤ 20 * v ∧ 20 * v ≤ 21 * need)

/-- The cell's standard needs a supply other than the one that its bank has measured (R472). -/
def stdMismatch (s : Dev) (c std : Nat) : Bool :=
  knownStd c std && stdSupply c std ≠ 0 && fldR s (rBank (c / 48)) 15 0 ≠ 0 && !supplyFits s c (stdSupply c std)

/-- LVDS, the differential standard. -/
def isDifferential (c std : Nat) : Bool := !hvCell c && std = 9

/-- Open-drain, at a high-voltage bank. -/
def isOpenDrain (c std : Nat) : Bool := hvCell c && std = 3

/-- The cell whose fields govern cell `c`: the even one of a differential pair (R472). -/
def governing (l : List Setting) (c : Nat) : Nat :=
  let even := 2 * (c / 2)
  if isDifferential c (ioCfgOf l even).std.toNat then even else c

/-- Fields of cell `c` in a leaf. -/
def cellFields (l : List Setting) (c : Nat) : IoCfg := ioCfgOf l (governing l c)

/-- The cells that sector `i` owns. -/
def ownedCells (s : Dev) (i : Nat) : List Nat := (List.range 480).filter fun c => ioOwner s c = some i

/-- The latch of a cell takes its leaf's values (R222). -/
def latchOf (g : IoCfg) : SafeLatch := { std := g.std, drive := g.drive, safe := g.safeMode }

/-- Registers of a cell take the leaf's init values (R176). -/
def cellRegs (g : IoCfg) (x : IoCell) : IoCell :=
  { x with
    c1 := g.init.getLsbD 0, c2 := g.init.getLsbD 1, q1 := g.init.getLsbD 0, q2 := g.init.getLsbD 1
    d1 := g.init.getLsbD 2, d2 := g.init.getLsbD 3, oe := g.init.getLsbD 4 }

/-- Registers and taps of a cell take the leaf's values (R176, R475). -/
def cellInit (g : IoCfg) (x : IoCell) : IoCell :=
  { cellRegs g x with itap := g.idelay.toNat, otap := g.odelay.toNat }

/-- One cell at a commit strobe (R176, R222, R475). -/
def cellStrobe (old new : IoCfg) (x : IoCell) : IoCell :=
  let x := { x with latch := latchOf new }
  if old.carryIo && new.carryIo then x else cellInit new x

/-- The cells of sector `i` at a commit strobe from leaf `old` to leaf `new`. -/
def ioStrobe (i : Nat) (old new : List Setting) (s : Dev) : Dev :=
  (ownedCells s i).foldl (fun s c => updCell s c (cellStrobe (cellFields old c) (cellFields new c))) s

/-- The latches of the cells of sector `i` are loaded from its active leaf (R213 event 7, R222); without one they keep what they hold. -/
def loadLatches (i : Nat) (s : Dev) : Dev :=
  let l := items s i
  if (activeDesc s i).state ≠ .active then s
  else (ownedCells s i).foldl (fun s c => updCell s c fun x => { x with latch := latchOf (cellFields l c) }) s

/-- Registers of the cells of sector `i` hold their init values under global set/reset (R56). Delay taps are no registers (R475). -/
def ioGsr (i : Nat) (s : Dev) : Dev :=
  let l := items s i
  (ownedCells s i).foldl (fun s c => updCell s c (cellRegs (cellFields l c))) s

/-- Escalation holds the pins of sector `i` at their safe values: a group holds pins or its fence (R494). -/
def pinsEscalated (s : Dev) (i : Nat) : Bool :=
  (List.range 8).any fun g => let r := getGroup s g; (r.pinHold ||| r.secHold).testBit i || r.e3

/-- A cell is at its safe value (R222, R476). -/
def atSafe (s : Dev) (c : Nat) : Bool :=
  match ioOwner s c with
  | none => true
  | some i => (getSec s i).state ≠ .active || pinsEscalated s i

/-- A JTAG instruction that takes control of the pins is selected while DONE is low (R518). -/
def jtagHolds (s : Dev) : Bool := !s.cfg.done && 3 ≤ s.bureau.jtag && s.bureau.jtag ≤ 7

/-- What such an instruction puts on pin `c` of the chain: HIGHZ nothing, the others the boundary register, whose contents no rule gives
(assumption 148). -/
def jtagDrives (s : Dev) (c : Nat) : Option Bool := if s.bureau.jtag = 6 then none else Config.boundaryPin c

/-- Every cell of bank `c / 48` is at high impedance: before the release of the power-on reset, until start-up releases the outputs
(R212), or while the bank's supply is out of its limits (R477). -/
def bankOff (s : Dev) (c : Nat) : Bool := !mainUp s || tGet (fun _ => false) s.io.bankHiZ (c / 48)

/-- What a cell drives: what JTAG gives it (R518), or nothing, or a level, with `d1` and `oe` as routing presents them in the direct modes. From event 4 to event 6
of a commit it holds what it drove at event 4 (R177); a safe value goes before that, also one that E1 applies meanwhile (R179). A
high-voltage cell without an owner drives nothing (assumption 127). -/
def cellDrives (s : Dev) (c : Nat) (d1 oe : Bool) : Option Bool :=
  let x := getCell s c
  if jtagHolds s then jtagDrives s c
  else if s.power.pinsHeld || bankOff s c then none
  else
    match ioOwner s c with
    | none => none
    | some i =>
      let od := fun std (v : Option Bool) => if isOpenDrain c std && v = some true then none else v
      if atSafe s c then
        if knownStd c x.latch.std.toNat && !stdMismatch s c x.latch.std.toNat then
          od x.latch.std.toNat (match x.latch.safe.toNat with
            | 1 => some false
            | 2 => some true
            | _ => none)
        else none
      else if x.hold.isSome then x.hold.getD none
      else
        let g := cellFields (items s i) c
        if !knownStd c g.std.toNat || stdMismatch s c g.std.toNat || (isDifferential c g.std.toNat && !supplyFits s c 1800) then none
        else if g.srcTimebase && 384 ≤ c && c < 392 then
          od g.std.toNat (some (tGet (fun _ => false) s.tb.level (c - 384)))
        else
          let en := if g.oeMode then x.oe else oe
          let v := if g.outMode = 1 || g.outMode = 2 then x.d1 else d1
          if en then od g.std.toNat (some v) else none

/-- What a cell delivers to the fabric as Q1 and Q2 while its pad is at `pad`: 0 under a standard that is unlisted or does not fit its
bank's supply. A safe value changes nothing here (R472 to R474, R476). -/
def cellDelivers (s : Dev) (c : Nat) (pad : Bool) : Bool × Bool :=
  match ioOwner s c with
  | none => (false, false)
  | some i =>
    let x := getCell s c
    let g := cellFields (items s i) c
    if !knownStd c g.std.toNat || stdMismatch s c g.std.toNat then (false, false)
    else if g.inMode = 1 then (x.q1, false)
    else if g.inMode = 2 then (x.q1, x.q2)
    else (pad, false)

/-- The pull on a cell: 0 none, 1 up, 2 down, 3 keeper. The straps give it until start-up releases the outputs, and the image from
then on (R212, R213 event 7, R473). -/
def cellPull (s : Dev) (c : Nat) : Nat :=
  if bankOff s c then 0
  else if s.power.pinsHeld then (if hvCell c then s.power.ioPullHv else s.power.ioPullHp)
  else match ioOwner s c with
    | none => 0
    | some i => (cellFields (items s i) c).pull.toNat

/-- The cells of sector `i` hold what they drive (R177). `pins` gives the levels of data and enable that routing presents to cells in
the direct modes. -/
def ioHold (pins : List (Nat × Bool × Bool)) (i : Nat) (s : Dev) : Dev :=
  (ownedCells s i).foldl (fun t c =>
    let p := ((pins.find? fun p => p.1 = c).map (·.2)).getD (false, false)
    updCell t c fun x => { x with hold := some (cellDrives s c p.1 p.2) }) s

/-- Held cells follow their leaf again (R177). -/
def ioRelease (s : Dev) : Dev :=
  (s.io.cells.filter fun e => e.2.hold.isSome).foldl (fun s e => updCell s e.1 fun x => { x with hold := none }) s

end Sys2Proof.Machine
end

