-- ==== Sys2Proof/Machine/Leaves.lean ====
section
/-! DEFINITION. Leaves, the ledger, commit and rollback (chapter 08), and how a mailbox command is started and ended. -/

namespace Sys2Proof.Machine

/-! ## Mailbox commands (R510 to R514) -/

/-- Result families (R513). -/
def famMbx : Nat := 0
def famLoad : Nat := 1
def famCommit : Nat := 2
def famRollback : Nat := 3
def famStore : Nat := 4
def famRegion : Nat := 5
def famKey : Nat := 6
def famCab : Nat := 7

/-- The mailbox runs no command, or it runs opcode `op` with argument word 2 equal to `val` under `mask`, not yet ended. -/
def mbxFits (s : Dev) (op mask val : Nat) : Bool :=
  match s.bureau.mbx.run with
  | none => true
  | some c => c.opcode = op && (nth 0 c.args 0).toNat &&& mask = val && s.bureau.mbx.result.isNone

/-- The mailbox runs opcode `op`, which has not ended. -/
def mbxRuns (s : Dev) (op : Nat) : Bool :=
  match s.bureau.mbx.run with
  | none => false
  | some c => c.opcode = op && s.bureau.mbx.result.isNone

/-- The running mailbox command ends with a result; its response is written by MAILBOX_RESPONSE (R512). -/
def mbxEnd (fam val : Nat) (data : List Word) (s : Dev) : Dev :=
  if s.bureau.mbx.run.isSome && s.bureau.mbx.result.isNone then
    { s with bureau := { s.bureau with mbx := { s.bureau.mbx with result := some { family := fam, value := val, data } } } }
  else s

/-- End the command of opcode `op` where the mailbox runs it. -/
def mbxEndOp (op fam val : Nat) (data : List Word) (s : Dev) : Dev := if mbxRuns s op then mbxEnd fam val data s else s

/-! ## Units and the ledger (R183 to R186) -/

/-- A sector that the available-unit map does not take out (R504). -/
def inService (s : Dev) (i : Nat) : Bool := !s.units.sectors.contains i

/-- Apply `f` to the configuration state. -/
def updCfg (s : Dev) (f : Config → Config) : Dev := { s with cfg := f s.cfg }

/-- The syndrome of a frame: XOR of i + 1 over every set bit i (R183). -/
def frameSyndrome (ws : List Word) : Nat :=
  (ws.foldl (fun (a : Nat × Nat) w =>
    if w = 0 then (a.1, a.2 + 64)
    else ((List.range 64).foldl (fun x b => if w.getLsbD b then x ^^^ (a.2 + b + 1) else x) a.1, a.2 + 64)) (0, 0)).1

/-- The parity of a frame. -/
def frameParity (ws : List Word) : Bool := ws.foldl (fun p w => p != parity 64 w.toNat) false

/-- The ledger entry for a frame content and a leaf sequence (R183, R185). -/
def ledgerOf (ws : List Word) (seq : Nat) : Word :=
  BitVec.ofNat 64 (crc32c (wordBytes ws) * 2 ^ 32 + frameSyndrome ws * 2 ^ 17 + (frameParity ws).toNat * 2 ^ 16 + seq % 2 ^ 16)

/-- The stored ledger word of a frame key; a frame that nothing has written singly has its leaf's zero-frame entry. -/
def ledgerDflt (s : Dev) : Nat → PWord := fun k => tGet (fun _ => 0) s.cfg.ledgerBase (k / 2048)

def getLedger (s : Dev) (k : Nat) : PWord := tGet (ledgerDflt s) s.cfg.ledger k

def setLedger (s : Dev) (k : Nat) (w : PWord) : Dev :=
  updCfg s fun c => { c with ledger := tSet (ledgerDflt s) c.ledger k w }

/-- The decoder of the configuration loader counts and logs an outcome (R246). -/
def loaderNote (s : Dev) (w : PWord) : Dev := eccTransit s 97 0x080 w

/-- A read of a ledger entry through management space (R186). The entries of an EMPTY leaf are not valid: they read as a free value
whose seq_tag is not the leaf's sequence, 0 (assumption 49). -/
def ledgerRead (l i f : Nat) (s : Dev) : Word × Dev :=
  let k := frameKey i l f
  let w := getLedger s k
  let d := decodeWord w
  if (getLeaf s i l).state = .empty then
    let (v, s) := takeWord s
    (putFld v 15 0 (max 1 (fld v 15 0)), s)
  else
  let s := loaderNote s w
  if d.outcome = .uncorrectable then
    (BitVec.ofNat 64 (2 ^ 64 - 1),
     updCfg s fun c => { c with scrub := { c.scrub with
       scheduled := if c.scrub.scheduled.contains k then c.scrub.scheduled else c.scrub.scheduled ++ [k] } })
  else (d.data, s)

/-! ## Records and conditions (R173, R174, R181) -/

/-- The load record of key `r`: a region, or 16 for full images. -/
def recordOf (s : Dev) (r : Nat) : Option LoadRecord := (s.cfg.records.find? fun e => e.1 = r).map (·.2)

/-- A running load writes a sector of `set`. -/
def loadTouches (s : Dev) (set : List Nat) : Bool :=
  match s.cfg.load with
  | some l => l.leaves.any fun e => set.contains e.1
  | none => false

/-- A commit, a rollback, or the start-up that a COMMIT FULL runs. -/
def commitBusy (s : Dev) : Bool :=
  s.cfg.commit.isSome || (match s.cfg.startup with | some u => u.fromCommit | none => false)

/-- A sector that is RESETTING, OFF or in initial load. -/
def sectorDown (s : Dev) (i : Nat) : Bool :=
  match (getSec s i).state with
  | .active => false
  | .fenced => false
  | _ => true

/-- Reasons of R174. -/
def rsnBusy : Nat := 1
def rsnCount : Nat := 2
def rsnNoRecord : Nat := 3
def rsnNotSealed : Nat := 4
def rsnUnavailable : Nat := 5
def rsnBase : Nat := 6
def rsnState : Nat := 7
def rsnDrain : Nat := 8
def rsnReset : Nat := 9
def rsnEscalated : Nat := 10
def rsnNoPredecessor : Nat := 11
def rsnNotLast : Nat := 12
def rsnStart : Nat := 13

/-- CFG_COMMIT_STATUS.count is at its end. -/
def countExhausted (s : Dev) : Bool := fldR s rCommitStatus 63 32 = 2 ^ 32 - 1

/-- The first condition of R174 that fails for a commit of record `r`; 0 where none does. While DONE is low no commit runs the events of
R175, and only COMMIT FULL is carried out (R175, R213). -/
def commitRefusal (s : Dev) (r : Nat) : Nat :=
  let set := match recordOf s r with
    | some l => l.sectors.map (·.1)
    | none => []
  if commitBusy s || loadTouches s set then rsnBusy
  else if countExhausted s then rsnCount
  else match recordOf s r with
    | none => rsnNoRecord
    | some l =>
      if l.sectors.any fun e =>
          let d := getLeaf s e.1 (otherLeaf s e.1)
          d.state ≠ .sealed || d.imageId ≠ l.imageId || d.digest ≠ l.digest || d.seq ≠ e.2 then rsnNotSealed
      else if set.any fun i => (getLeaf s i (otherLeaf s i)).unavail then rsnUnavailable
      else if r < 16 && (match s.cfg.base with | some b => b.imageId ≠ l.baseId | none => true) then rsnBase
      else if if s.cfg.done then set.any (sectorDown s) else r ≠ 16 then rsnState
      else 0

/-- The set of a rollback (R181). -/
def rollbackSet (s : Dev) (r : Nat) : List Nat :=
  (if r = 16 then List.range 64 else regionSectors s r).filter (inService s)

/-- The first condition of R181 that fails for a rollback. -/
def rollbackRefusal (s : Dev) (r : Nat) : Nat :=
  let set := rollbackSet s r
  let c := match set with
    | i :: _ => (activeDesc s i).commitId
    | [] => 0
  if commitBusy s || loadTouches s set then rsnBusy
  else if countExhausted s then rsnCount
  else if set.isEmpty then rsnNoRecord
  else if set.any fun i => (getLeaf s i (otherLeaf s i)).unavail then rsnUnavailable
  else if !s.cfg.done || set.any (sectorDown s) then rsnState
  else if (set.any fun i => (getLeaf s i 0).commitId ≠ c || (getLeaf s i 1).commitId ≠ c) ||
      (List.range 64).any fun i => !set.contains i && (activeDesc s i).commitId = c then rsnNotLast
  else if set.any fun i =>
      let d := getLeaf s i (otherLeaf s i)
      (d.state ≠ .retired && d.state ≠ .sealed) || (activeDesc s i).seq ≤ d.seq then rsnNoPredecessor
  else 0

/-! ## Events of a commit (R175 to R179) -/

/-- The attachments of a set with their states. -/
def attStates (s : Dev) (set : List Nat) : List (Nat × AttState) :=
  set.flatMap fun i => (sectorAtts i).map fun k => (k, (getEp s k).state)

/-- Return attachments to recorded states. -/
def restoreAtts (s : Dev) (l : List (Nat × AttState)) : Dev :=
  l.foldl (fun s e => updEp s e.1 fun x => { x with state := e.2 }) s

/-- Mailbox opcode and result family of a run. -/
def runOp (rollback : Bool) : Nat := if rollback then 0x0104 else 0x0103
def runFam (rollback : Bool) : Nat := if rollback then famRollback else famCommit

/-- A commit or rollback is refused (R174). -/
def refuseCommit (rollback : Bool) (reason : Nat) (s : Dev) : Dev :=
  mbxEndOp (runOp rollback) (runFam rollback) reason [] (setR s rCommitStatus 23 20 reason)

/-- A commit or rollback passes its checks: event 1 of R175. Scrub operations on the set are abandoned (R251). -/
def startCommit (set : List Nat) (r : Nat) (rollback mailbox : Bool) (s : Dev) : Dev :=
  let run : CommitRun := { set, region := r, rollback, event := 1, prior := attStates s set, mailbox }
  let s := set.foldl (fun s i => setAtts s i .fenced) s
  let s := updCfg s fun c => { c with
    commit := some run
    scrub := { c.scrub with waiting := c.scrub.waiting.filter fun k => !set.contains (k / 4096) } }
  setR (setR s rCommitStatus 31 31 1) rCommitStatus 30 29 1

/-- The effective drain timeout in µs (R180, R239). -/
def effDrain (t : Nat) : Nat := min (max t 1) 1000000

/-- The quiet window of `set` ends: isolation cells and I/O cells release (R68, R177). -/
def quietRelease (set : List Nat) (s : Dev) : Dev := ioRelease (isoRelease (updSecs s set fun x => { x with quiet := false }))

/-- A commit or rollback ends before its strobe: attachments return to their earlier state (R175, R179). -/
def endCommitEarly (reason : Nat) (s : Dev) : Dev :=
  match s.cfg.commit with
  | none => s
  | some c =>
    let s := restoreAtts s c.prior
    let s := quietRelease c.set s
    let s := updCfg s fun g => { g with commit := none }
    let s := setR (setR (setR s rCommitStatus 31 31 0) rCommitStatus 30 29 0) rCommitStatus 23 20 reason
    if c.mailbox then mbxEndOp (runOp c.rollback) (runFam c.rollback) reason [] s else s

/-- Event 2: both queues of every attachment of the set are empty. -/
def commitDrained (us : Nat) (s : Dev) : Dev :=
  match s.cfg.commit with
  | some c =>
    if c.event = 1 && c.set.all (sectorDrained s) then
      setR (updCfg s fun g => { g with commit := some { c with event := 2 } }) rCommitStatus 19 0 (min us (2 ^ 20 - 1))
    else s
  | none => s

/-- The drain timeout (R175 event 2). -/
def commitDrainTimeout (s : Dev) : Dev :=
  match s.cfg.commit with
  | some c =>
    if c.event = 1 && !c.set.all (sectorDrained s) then
      let s := setR s rCommitStatus 19 0 (effDrain (fldR s rCommitCfg 19 0))
      if bitR s rCommitCfg 20 then updCfg s fun g => { g with commit := some { c with event := 2 } }
      else endCommitEarly rsnDrain s
    else s
  | none => s

/-- Event 4: the last clock input has stopped, isolation cells and I/O cells hold (R68, R177). -/
def commitQuietBegin (pins : List (Nat × Bool × Bool)) (s : Dev) : Dev :=
  match s.cfg.commit with
  | some c =>
    if c.event = 2 then
      let s := c.set.foldl (fun s i => ioHold pins i s) s
      let s := updSecs (isoHold c.set s) c.set fun x => { x with quiet := true }
      setR (updCfg s fun g => { g with commit := some { c with event := 4 } }) rCommitStatus 30 29 2
    else s
  | none => s

/-- The Drawers of a sector that hold state or that a leaf configures; every one where `all`. -/
def drawersOf (all : Bool) (l : List Setting) (t : Tbl Drawer) : List Nat :=
  if all then List.range 128
  else (List.range 128).filter fun d => t.any (·.1 = d) || l.any fun x => match x with
    | .drawer e _ => e.val = d
    | _ => false

/-- The Drawers of sector contents at a strobe: all of them in the first configuration (R107). -/
def drawersStrobe (old new : List Setting) (fresh : Bool) (t : Tbl Drawer) : Tbl Drawer :=
  ((drawersOf fresh (old ++ new) t).map fun d =>
    (d, drawerStrobe (drawerCfg old d) (drawerCfg new d) fresh (tGet drawerDflt t d))).filter fun e => e.2 ≠ {}

/-- The hard blocks and flip-flops of a sector at a commit strobe (R176, R93, R107, R110, R161); under global set/reset they are held
by the new leaf. No wire has been driven under the new leaf yet. -/
def contentsStrobe (old new : List Setting) (c : Sector) : Sector :=
  let t := contentsCarried old new c
  if c.gsr then heldContents new t else t
where contentsCarried (old new : List Setting) (c : Sector) : Sector :=
  { c with
    ffs := strobeFfs old new c.ffs
    benches := (c.benches.map fun e => (e.1, benchStrobe (benchCfg old (e.1 / 32) (e.1 % 32)) (benchCfg new (e.1 / 32) (e.1 % 32)) e.2)).filter
      fun e => e.2 ≠ {}
    drawers := drawersStrobe old new c.fresh c.drawers
    hinges := (c.hinges.map fun e => (e.1, hingeStrobe (hingeCfg old e.1) (hingeCfg new e.1) e.2)).filter fun e => e.2 ≠ {}
    laneIdx := []
    wires := []
    fresh := false }

/-- The active-leaf select of sector `i` flips: descriptors (R171), contents (R176), pins (R222), attachments (R178, R230, R271,
R304), with `n` the new commit count. -/
def flipSector (n : Nat) (s : Dev) (i : Nat) : Dev :=
  let o := activeLeaf s i
  let old := items s i
  let new := leafItems s i (1 - o)
  let s := updLeaf s i o fun d =>
    if d.state = .active then { d with state := .retired, commitId := n, unavail := d.unavail || d.damaged } else d
  let s := updLeaf s i (1 - o) fun d => { d with state := .active, commitId := n }
  let s := updCfg s fun c => { c with active := tSet (fun _ => 0) c.active i (1 - o) }
  let s := updSec s i (contentsStrobe old new)
  let s := portsStrobe i old new (dropSector (ioStrobe i old new s) i)
  loadReasm (fillTokens (bumpSector s i) i) i

/-- The sectors that hold the BAR4 target. -/
def bar4Sector (s : Dev) : Option Nat :=
  if bitR s rBar4 63 then some (sectorOfAddr (fldR s rBar4 8 0)) else none

/-- The target fields return to reset (R27). -/
def clearBar4 (s : Dev) : Dev := setR (setR (setR s rBar4 63 63 0) rBar4 10 9 0) rBar4 8 0 0

/-- The target fields take the target that the active image names (R27). -/
def applyBar4 (s : Dev) : Dev :=
  match s.cfg.base.bind (·.bar4) with
  | some (r, p) => setR (setR (setR s rBar4 63 63 1) rBar4 10 9 p) rBar4 8 0 r
  | none => clearBar4 s

/-- The global lines take the sources that a base image names (R131). -/
def applyLines (b : Option BaseImage) (s : Dev) : Dev :=
  let lines := (b.map (·.lines)).getD []
  updClk s fun c => { c with
    glines := (List.range 128).foldl (fun t k =>
      let e := (lines.find? fun e => e.1 = k).getD (k, 63, 63)
      tUpd glineDflt t k fun g => { g with selA := e.2.1, selB := e.2.2 }) c.glines }

/-- The active base image changes with a full commit or rollback (R220). -/
def changeBase (rollback : Bool) (s : Dev) : Dev :=
  updCfg s fun c =>
    if rollback then { c with base := c.prevBase, prevBase := none }
    else { c with prevBase := c.base, base := c.loadedBase }

/-- A commit strobe over a set (R175 event 5, R213 event 3, R237 event 3). -/
def strobe (set : List Nat) (full rollback : Bool) (s : Dev) : Dev :=
  let n := (fldR s rCommitStatus 63 32 + 1) % 2 ^ 32
  let s := setR s rCommitStatus 63 32 n
  let hit := match bar4Sector s with
    | some i => set.contains i
    | none => false
  let s := set.foldl (flipSector n) s
  if full then
    let s := changeBase rollback s
    applyBar4 (applyLines s.cfg.base s)
  else if hit then clearBar4 s else s

/-- Event 5. -/
def commitStrobe (s : Dev) : Dev :=
  match s.cfg.commit with
  | some c =>
    if c.event = 4 then
      strobe c.set (c.region = 16) c.rollback (updCfg s fun g => { g with commit := some { c with event := 5 } })
    else s
  | none => s

/-- A sector enters FENCED: router sides FENCED, pins and isolation as R221 states. -/
def fenceSector (s : Dev) (i : Nat) : Dev :=
  if (getSec s i).state = .active then setAtts (updSec s i fun x => { x with state := .fenced }) i .fenced else s

/-- Event 6: clocks restart; fences that arrived after the strobe apply (R179). -/
def commitQuietEnd (s : Dev) : Dev :=
  match s.cfg.commit with
  | some c =>
    if c.event = 5 then
      let s := quietRelease c.set s
      let s := c.fenceAfter.foldl fenceSector s
      setR (updCfg s fun g => { g with commit := some { c with event := 6 } }) rCommitStatus 30 29 3
    else s
  | none => s

/-- Effective health timeout in ms (R188): none where 0xFFFF_FFFF asks for no check. -/
def healthMs (raw : Nat) : Option Nat :=
  if raw = 0 then some 1000
  else if raw = 2 ^ 32 - 1 then none
  else some (min raw 600000)

/-- The health check starts (R216, R218), after a boot attempt's start-up, a COMMIT FULL, or another start-up. -/
def startHealth (afterBoot afterCommit : Bool) (s : Dev) : Dev :=
  let ms := healthMs ((s.cfg.base.map (·.healthMs)).getD 0)
  let s := setR (setR (setR s rHealth 62 62 0) rHealth 60 60 ms.isSome.toNat) rHealth 31 0 (ms.getD 0)
  let n := fldR s rCommitStatus 63 32
  updCfg s fun c => { c with health := { running := ms.isSome, afterBoot, afterCommit, ms := ms.getD 0, count := n } }

/-- A running health check ends without passing (R216). -/
def stopHealth (s : Dev) : Dev :=
  if s.cfg.health.running then
    let s := setR (setR s rHealth 60 60 0) rHealth 31 0 0
    updCfg s fun c => { c with health := { c.health with running := false } }
  else s

/-- Events 7 and 8: attachments return to their earlier state, except where a fence applied; response OK. -/
def commitEpochHoldEnd (s : Dev) : Dev :=
  match s.cfg.commit with
  | some c =>
    if c.event = 6 then
      let s := restoreAtts s (c.prior.map fun e =>
        if (getSec s (sectorOfAddr (e.1 / 4))).state = .fenced then (e.1, AttState.fenced) else e)
      let s := updCfg s fun g => { g with commit := none }
      let s := setR (setR (setR s rCommitStatus 31 31 0) rCommitStatus 30 29 0) rCommitStatus 23 20 0
      let s := if c.region = 16 && !c.rollback then startHealth false true s else s
      if c.mailbox then mbxEndOp (runOp c.rollback) (runFam c.rollback) 0 [] s else s
    else s
  | none => s

/-- A fence reaches sectors of a running commit's set (R179): before the strobe the commit ends with ESCALATED; after it the
fence waits for event 6. -/
def fenceMeetsCommit (l : List Nat) (s : Dev) : Dev :=
  match s.cfg.commit with
  | some c =>
    let hit := l.filter c.set.contains
    if hit.isEmpty then s
    else if c.event < 5 then endCommitEarly rsnEscalated s
    else if c.event = 5 then updCfg s fun g => { g with commit := some { c with fenceAfter := c.fenceAfter ++ hit } }
    else s
  | none => s

/-- A fence meets the drain of a region command: the region returns to FENCED where the drain ends in REGION_ERR_DRAIN (R494,
R495; DEDUCED, assumption 27). -/
def fenceMeetsDrain (l : List Nat) (s : Dev) : Dev :=
  updCfg s fun c => { c with
    regions := mapIf (fun q => q.prior = .active && l.any fun i => regionOf s i = some q.region) (fun q => { q with prior := .fenced }) c.regions }

/-- Fence a list of sectors (E2, E3, REGION_FENCE), with R179. -/
def fenceSectors (l : List Nat) (s : Dev) : Dev :=
  let s := fenceMeetsDrain l s
  let s := fenceMeetsCommit l s
  let deferred := match s.cfg.commit with
    | some c => if c.event = 5 then c.fenceAfter else []
    | none => []
  (l.filter fun i => !deferred.contains i).foldl fenceSector s

/-- ROLLBACK (R181): refused, or event 1. A rollback ends a running health check (R216). -/
def doRollback (r : Nat) (mailbox : Bool) (s : Dev) : Dev :=
  match rollbackRefusal s r with
  | 0 => startCommit (rollbackSet s r) r true mailbox (stopHealth s)
  | reason => if mailbox then refuseCommit true reason s else s

end Sys2Proof.Machine
end

