-- ==== Sys2Proof/Machine/ImageFormat.lean ====
section
/-! DEFINITION. The image container (R187 to R197): header, section table, frame records and tokens, trailer, digest. -/

namespace Sys2Proof.Machine

/-- The data words of a source. -/
def imgWords (img : ImageWords) : List Word := img.map (·.1)

/-- The bytes of words with a poison flag each. -/
def imgBytes (img : ImageWords) : List Nat := wordBytes (imgWords img)

/-- Header word `n` of an image. -/
def hword (img : List Word) (n : Nat) : Word := nth 0 img n

/-! ## Load error codes (R198) -/

def errBusy : Nat := 0x01
def errHeader : Nat := 0x02
def errPart : Nat := 0x03
def errSize : Nat := 0x04
def errSection : Nat := 0x05
def errUnsigned : Nat := 0x06
def errUnits : Nat := 0x07
def errBase : Nat := 0x08
def errSequence : Nat := 0x09
def errKey : Nat := 0x0A
def errToken : Nat := 0x0B
def errAddress : Nat := 0x0C
def errRegion : Nat := 0x0D
def errFrameCrc : Nat := 0x0E
def errVerify : Nat := 0x0F
def errPoison : Nat := 0x10
def errAuth : Nat := 0x11
def errAborted : Nat := 0x12
def errStream : Nat := 0x13
def errSignature : Nat := 0x14
def errPll : Nat := 0x15

/-! ## Header (R188) -/

/-- Header fields that the loader uses. -/
def hImageId (h : List Word) : Nat := (hword h 1).toNat
def hMask (h : List Word) : Nat := (hword h 3).toNat
def hGroups (h : List Word) : Nat := fld (hword h 4) 31 16
def hRegion (h : List Word) : Nat := fld (hword h 4) 11 8
def hEncrypted (h : List Word) : Bool := bit (hword h 4) 2
def hSigned (h : List Word) : Bool := bit (hword h 4) 1
def hPartial (h : List Word) : Bool := bit (hword h 4) 0
def hBaseId (h : List Word) : Nat := (hword h 5).toNat
def hTable (h : List Word) : Nat := fld (hword h 7) 63 32
def hSections (h : List Word) : Nat := fld (hword h 7) 31 0
def hLength (h : List Word) : Nat := (hword h 8).toNat
def hKeySlot (h : List Word) : Nat := fld (hword h 9) 39 32

/-- The header check of LOAD_ERR_HEADER. -/
def headerOk (h : List Word) (isPartial : Bool) : Bool :=
  h.length = 16 &&
  fld (hword h 15) 31 0 = crc32c (wordBytes (h.take 15)) && fld (hword h 0) 31 0 = 0x58565146 &&
  fld (hword h 0) 63 48 = 128 && fld (hword h 0) 47 32 = 3 &&
  fld (hword h 2) 63 48 = 0 && fld (hword h 4) 63 44 = 0 && fld (hword h 4) 15 12 = 0 && fld (hword h 4) 7 3 = 0 &&
  fld (hword h 6) 63 48 = 0 && fld (hword h 9) 63 40 = 0 && (List.range 4).all (fun n => hword h (11 + n) = 0) &&
  fld (hword h 15) 63 32 = 0 && hPartial h == isPartial

/-! ## Section table (R187, R189) -/

/-- The entries of the section table. -/
def sectionTable (img : List Word) : List SectionEntry :=
  let t := hTable img / 8
  (List.range (min (hSections img) 64)).map fun n =>
    let w0 := hword img (t + 2 * n)
    let w1 := hword img (t + 2 * n + 1)
    { offset := fld w0 63 32, kind := fld w0 7 0, encrypted := bit w0 8, crc := fld w1 63 32, length := fld w1 31 0 }

/-- The reserved bits of the entries are zero. -/
def tableReservedOk (img : List Word) : Bool :=
  (List.range (min (hSections img) 64)).all fun n => fld (hword img (hTable img / 8 + 2 * n)) 31 9 = 0

/-- Parts in increasing offset order, without overlap, up to `limit`. -/
def partsInOrder (limit : Nat) : Nat → List SectionEntry → Bool
  | pos, [] => pos ≤ limit
  | pos, e :: es => pos ≤ e.offset && e.offset % 8 = 0 && e.length % 8 = 0 && partsInOrder limit (e.offset + e.length) es

/-- Bytes that a section of fixed size has, by type. -/
def fixedSize (kind : Nat) : Option Nat :=
  if kind = 2 then some 128 else if kind = 3 then some 256 else if kind = 4 then some 96 else if kind = 5 then some 192 else none

/-- The rules that R187 and R189 set for the table (R198, LOAD_ERR_SECTION). -/
def tableOk (img : List Word) : Bool :=
  let es := sectionTable img
  let n := hSections img
  let len := hLength img
  let count := fun k => (es.filter fun e => e.kind = k).length
  1 ≤ n && n ≤ 64 && hTable img % 8 = 0 && 128 ≤ hTable img && len % 8 = 0 && 32 ≤ len &&
  partsInOrder (len - 32) (hTable img + 16 * n) es && tableReservedOk img &&
  1 ≤ count 1 && count 2 ≤ 1 && count 3 ≤ 1 && count 4 ≤ 1 && count 5 ≤ 1 &&
  es.all (fun e => 1 ≤ e.kind && e.kind ≤ 5 && !(hPartial img && (e.kind = 2 || e.kind = 3 || e.kind = 4)) &&
    !(e.kind = 5 && e.encrypted) &&
    match fixedSize e.kind with
    | some b => e.length = b + (if e.encrypted then 16 else 0)
    | none => true) &&
  (count 5 = 1) == hSigned img && (count 5 = 0 || (es.getLast?.map (·.kind)) = some 5) &&
  hEncrypted img == es.any (·.encrypted)

/-- The stored words of a section. -/
def sectionWords (img : ImageWords) (e : SectionEntry) : ImageWords := (img.drop (e.offset / 8)).take (e.length / 8)

/-- The IV of section `n` (R196). -/
def sectionIv (img : List Word) (n : Nat) : List Nat := wordBytes [hword img 10] ++ leB 4 n

/-- The plain words of a section with their poison: decrypted where it is encrypted, without its tag (R196). -/
def plainSection (img : ImageWords) (key : List Nat) (n : Nat) (e : SectionEntry) : ImageWords :=
  let w := sectionWords img e
  if e.encrypted then
    let ct := w.take (w.length - 2)
    (bytesWords (gcmCtr key (sectionIv (imgWords (img.take 16)) n) (imgBytes ct))).zip (ct.map (·.2))
  else w

/-- The tag of an encrypted section holds. -/
def tagOk (img : ImageWords) (key : List Nat) (n : Nat) (e : SectionEntry) : Bool :=
  let w := sectionWords img e
  let b := imgBytes w
  !e.encrypted ||
    gcmTag key (sectionIv (imgWords (img.take 16)) n) (imgBytes (img.take 16)) (b.take (b.length - 16)) = b.drop (b.length - 16)

/-! ## Frame records (R190, R191) -/

/-- Decompress a payload: the runs must add up to 384 words and use every byte. -/
def tokens : Nat → List Nat → List Word → Option (List Word)
  | 0, _, _ => none
  | _ + 1, [], acc => if acc.length = 384 then some acc else none
  | _ + 1, [_], _ => none
  | fuel + 1, lo :: hi :: rest, acc =>
    let t := lo + 256 * hi
    let n := t % 512 + 1
    if nbits t 14 9 ≠ 0 || 384 < n || 384 < acc.length + n then none
    else if t.testBit 15 then tokens fuel rest (acc ++ List.replicate n 0)
    else if rest.length < 8 * n then none
    else tokens fuel (rest.drop (8 * n)) (acc ++ bytesWords (rest.take (8 * n)))

/-- A parsed frame record: addresses, content, check word's CRC, words used, poison among them. -/
structure FrameRec where
  addrs : List Nat
  content : List Word
  crc : Nat
  used : Nat
  poisoned : Bool
  deriving DecidableEq, Repr

/-- Words that a record takes, by its first word; 0 where its address count is out of range. -/
def recordWords (w : Word) : Nat :=
  let a := fld w 16 0
  if a = 0 || 98304 < a then 0 else 1 + (a + 1) / 2 + (fld w 63 32 + 7) / 8 + 1

/-- Parse the record at the head of the plain words; nothing where it breaks R190 or R191. -/
def parseRecord (ws : ImageWords) : Option FrameRec :=
  match ws with
  | [] => none
  | (w, _) :: _ =>
    let total := recordWords w
    if total = 0 || ws.length < total then none
    else
      let a := fld w 16 0
      let pb := fld w 63 32
      let body := (ws.take total).drop 1
      let alist := body.take ((a + 1) / 2)
      let entries := (imgWords alist).flatMap fun x => [fld x 31 0, fld x 63 32]
      let payload := imgBytes ((body.drop ((a + 1) / 2)).take ((pb + 7) / 8))
      let check := nth 0 (imgWords body) (total - 2)
      if (entries.drop a).any (· ≠ 0) || (entries.take a).any (fun x => 2 ^ 17 ≤ x) || (payload.drop pb).any (· ≠ 0) then none
      else match tokens (pb + 2) (payload.take pb) [] with
        | none => none
        | some content =>
          some { addrs := entries.take a, content, crc := fld check 31 0, used := total, poisoned := (ws.take total).any (·.2) }

/-- The words of the record at the head hold poison. -/
def recordPoisoned (ws : ImageWords) : Bool :=
  match ws with
  | [] => false
  | (w, p) :: _ => p || (ws.take (recordWords w)).any (·.2)

/-- The first frame address of the record at the head, where its record word and address list hold no poison; 0 otherwise. -/
def recordStart : ImageWords → Nat
  | (w, false) :: (x, false) :: rest =>
    if recordWords w ≠ 0 && (rest.take ((fld w 16 0 - 1) / 2)).all (!·.2) then fld x 16 0 else 0
  | _ => 0

/-- An address names a frame (R164). -/
def namesFrame (a : Nat) : Bool := a < 2 ^ 17 && a % 2048 < 1536

/-! ## Whole image (R192, R193, R195, R197) -/

/-- One byte of CRC-64, bit 7 first. -/
def crc64Byte (c b : Nat) : Nat := foldNat (crcBit 64 0x42F0E1EBA9EA3693) c (msbBits 8 b)

/-- CRC-64 over words, low byte first. -/
def crc64Words (c : Nat) (ws : List Word) : Nat := foldNat crc64Byte c (wordBytes ws)

/-- Product of two remainders of the CRC-64 polynomial. -/
def crc64Mul (a b : Nat) : Nat :=
  foldNat (fun r x => let r := crcBit 64 0x42F0E1EBA9EA3693 r false; if x then r ^^^ a else r) 0 (msbBits 64 b)

/-- The remainder of x to the power `n`, by squaring; `fuel` is above the number of bits of `n`. -/
def crc64Pow : Nat → Nat → Nat
  | 0, _ => 1
  | fuel + 1, n =>
    if n = 0 then 1
    else
      let r := crc64Pow fuel (n / 2)
      let r := crc64Mul r r
      if n % 2 = 1 then crcBit 64 0x42F0E1EBA9EA3693 r false else r

/-- CRC-64 over `n` zero bytes: each zero bit multiplies the remainder by x. -/
def crc64Zeros (c n : Nat) : Nat := if c = 0 || n = 0 then c else crc64Mul c (crc64Pow 64 (8 * n))

/-- CRC-64 over `n` words of which those not listed are zero; words listed in ascending order. -/
def crc64Sparse (c n : Nat) (l : Tbl Word) : Nat :=
  let r := l.foldl (fun (r : Nat × Nat) e => (crc64Words (crc64Zeros r.1 (8 * (e.1 - r.2))) [e.2], e.1 + 1)) (c, 0)
  crc64Zeros r.1 (8 * (n - r.2))

/-- CRC-64 over `n` frames, in ascending order, of which those not listed are zero (R193). -/
def crc64Frames (c n : Nat) (l : Tbl (Tbl Word)) : Nat :=
  let r := l.foldl (fun (r : Nat × Nat) e => (crc64Sparse (crc64Zeros r.1 (3072 * (e.1 - r.2))) 384 e.2, e.1 + 1)) (c, 0)
  crc64Zeros r.1 (3072 * (n - r.2))

/-- Byte offset up to which the digest is taken. -/
def digestEnd (img : List Word) : Nat :=
  match (sectionTable img).find? fun e => e.kind = 5 with
  | some e => e.offset
  | none => hLength img - 32

/-- The image digest (R195). -/
def imageDigest (img : List Word) : List Nat := sha384 (wordBytes (img.take (digestEnd img / 8)))

/-- The digest prefix (R195), byte 0 lowest. -/
def digestPrefix (img : List Word) : Nat := ofLe ((imageDigest img).take 6)

/-- The trailer words. -/
def trailer (img : List Word) : List Word := (img.drop (hLength img / 8 - 4)).take 4

/-- The trailer is well formed (R192). -/
def trailerOk (img : List Word) : Bool :=
  let t := trailer img
  fld (nth 0 t 0) 31 0 = 0x4C525446 && fld (nth 0 t 3) 31 0 = crc32c (wordBytes (t.take 3))

/-- PLLS entry (R194). -/
def pllEntry (w0 w1 : Word) : PllEntry :=
  { en := bit w0 0, ref := bit w0 1, input := fld w0 4 2, refDiv := fld w0 7 5 + 1, mult := fld w0 15 8
    phases := (List.range 6).map fun k => fld w0 (18 + 3 * k) (16 + 3 * k)
    divs := (List.range 6).map fun k => fld w1 (9 * k + 8) (9 * k) }

/-- The masks of a REGIONS section are disjoint and lie within the sector mask (R189). -/
def regionsOk (mask : Nat) (rs : List Nat) : Bool :=
  rs.all (fun r => r &&& mask = r) &&
    (rs.foldl (fun (a : Bool × Nat) r => (a.1 && r &&& a.2 = 0, a.2 ||| r)) (true, 0)).1

/-- A byte of HV_ASSIGN names a sector of Q0 or Q2, or none. -/
def hvOk (b : Nat) : Bool := b < 16 || (32 ≤ b && b < 48) || b = 255

end Sys2Proof.Machine
end

