-- ==== Sys2Proof/Machine/Regions.lean ====
section
/-! DEFINITION. Regions and sector power (chapter 10): region commands, the sequences of R236 and R237. -/

namespace Sys2Proof.Machine

/-- Results of R239. -/
def regUndefined : Nat := 1
def regBusy : Nat := 2
def regState : Nat := 3
def regEscalated : Nat := 4
def regEmpty : Nat := 5
def regDrain : Nat := 6
def regPower : Nat := 7

/-- The in-service sectors of region `r`. -/
def regionLive (s : Dev) (r : Nat) : List Nat := (regionSectors s r).filter (inService s)

/-- The state of region `r` (R221): that of its sectors, which agree. -/
def regionState (s : Dev) (r : Nat) : SecState :=
  match regionLive s r, regionSectors s r with
  | i :: _, _ => (getSec s i).state
  | [], i :: _ => (getSec s i).state
  | [], [] => .active

/-- The running sequence of region `r`. -/
def regionSeq (s : Dev) (r : Nat) : Option RegionSeq := s.cfg.regions.find? fun q => q.region = r

/-- Opcode of a region command. -/
def regionOp : RegionCmd → Nat
  | .reset => 0x0303
  | _ => 0x0304

/-- A region command ends at once with a result. -/
def regionAnswer (op r result : Nat) (s : Dev) : Dev :=
  mbxEndOp op famRegion result [] (setR s (rRegionStatus r) 51 44 result)

/-- A running sequence ends with a result. -/
def regionFinish (q : RegionSeq) (result : Nat) (s : Dev) : Dev :=
  let s := updCfg s fun c => { c with regions := c.regions.filter fun x => x.region ≠ q.region }
  let s := setR (setR s (rRegionStatus q.region) 63 63 0) (rRegionStatus q.region) 59 56 0
  if q.ended then s else regionAnswer (regionOp q.cmd) q.region result s

/-- A sequence reaches event `n`. -/
def regionEvent (q : RegionSeq) (n : Nat) (s : Dev) : Dev :=
  let s := updCfg s fun c => { c with
    regions := c.regions.map fun x => if x.region = q.region then { q with event := n } else x }
  setR s (rRegionStatus q.region) 59 56 n

/-- A sequence starts, with event `n` reached. -/
def regionStart (q : RegionSeq) (s : Dev) : Dev :=
  let s := updCfg s fun c => { c with regions := c.regions ++ [q] }
  setR (setR s (rRegionStatus q.region) 63 63 1) (rRegionStatus q.region) 59 56 q.event

/-- A commit or rollback of the region runs (R235). -/
def regionCommitting (s : Dev) (r : Nat) : Bool :=
  match s.cfg.commit with
  | some c => (regionSectors s r).any c.set.contains
  | none => false

/-- Escalation holds a sector fenced (R233, R239). -/
def secEscalated (s : Dev) (i : Nat) : Bool :=
  (List.range 8).any fun g => let x := getGroup s g; x.secHold.testBit i || x.e3

/-- Checks that every region command shares, in the order of R233; 0 where they pass. `lose` marks power-off with lose. -/
def regionCheck (s : Dev) (r : Nat) (lose : Bool) (from' : List SecState) : Nat :=
  if (regionSectors s r).isEmpty then regUndefined
  else if (regionSeq s r).isSome || (lose && loadTouches s (regionSectors s r)) then regBusy
  else if !from'.contains (regionState s r) then regState
  else 0

/-- REGION_FENCE (R232, R235). -/
def regionFence (r : Nat) (s : Dev) : Dev :=
  match regionCheck s r false [.active, .fenced] with
  | 0 => regionAnswer 0x0301 r 0 (fenceSectors (regionLive s r) s)
  | e => regionAnswer 0x0301 r e s

/-- REGION_UNFENCE (R232, R233, R235). -/
def regionUnfence (r : Nat) (s : Dev) : Dev :=
  if regionCommitting s r then s
  else match regionCheck s r false [.fenced] with
    | 0 =>
      if (regionSectors s r).any (secEscalated s) then regionAnswer 0x0302 r regEscalated s
      else
        let s := (regionLive s r).foldl (fun s i => setAtts (updSec s i fun x => { x with state := .active }) i .active) s
        regionAnswer 0x0302 r 0 s
    | e => regionAnswer 0x0302 r e s

/-- Event 1 of R236. From RESETTING the attachments keep their state. -/
def regionDown (r : Nat) (cmd : RegionCmd) (s : Dev) : Dev :=
  let q : RegionSeq := { region := r, cmd, event := 1, prior := regionState s r }
  regionStart q ((regionLive s r).foldl fenceSector s)

/-- REGION_RESET assert. -/
def regionResetAssert (r : Nat) (s : Dev) : Dev :=
  if regionCommitting s r then s
  else match regionCheck s r false [.active, .fenced] with
    | 0 => regionDown r .reset s
    | e => regionAnswer 0x0303 r e s

/-- The sector leaves global set/reset when GLOBAL_SET_RESET_RELEASE follows; its clocks stop first (R57). -/
def gsrOrder (s : Dev) (i : Nat) : Dev := updSec s i fun x => { x with gsrDue := true, clocks := false }

/-- REGION_RESET release. -/
def regionResetRelease (r : Nat) (s : Dev) : Dev :=
  match regionCheck s r false [.resetting] with
  | 0 =>
    let s := (regionLive s r).foldl (fun s i =>
      setAtts (updSec (gsrOrder s i) i fun x => { x with state := .fenced }) i .fenced) s
    regionAnswer 0x0303 r 0 s
  | e => regionAnswer 0x0303 r e s

/-- GLOBAL_SET_RESET_RELEASE (R57): flip-flops and I/O cell registers leave with their init values, regulators hold their
depth (R271). -/
def gsrComplete (i : Nat) (s : Dev) : Dev :=
  if (getSec s i).gsrDue then fillTokens (ioGsr i (gsrRelease i s)) i else s

/-- REGION_POWER off with retain. -/
def regionOffRetain (r : Nat) (s : Dev) : Dev :=
  if regionCommitting s r then s
  else match regionCheck s r false [.active, .fenced, .resetting] with
    | 0 => regionDown r .offRetain s
    | e => regionAnswer 0x0304 r e s

/-- REGION_POWER off with lose: from OFF_RETAINED event 7 alone follows. -/
def regionOffLose (r : Nat) (s : Dev) : Dev :=
  if regionCommitting s r then s
  else match regionCheck s r true [.active, .fenced, .resetting, .offRetained] with
    | 0 =>
      if regionState s r = .offRetained then
        regionStart { region := r, cmd := .offLose, event := 6, prior := .offRetained } s
      else regionDown r .offLose s
    | e => regionAnswer 0x0304 r e s

/-- Attachments of a sector enter a state whose entry increments the epoch (R230). -/
def enterAtts (st : AttState) (s : Dev) (i : Nat) : Dev := setAtts (bumpSector s i) i st

/-- Close the supply switch of a sector: its flip-flops are held under global set/reset. -/
def closeSwitch (s : Dev) (i : Nat) : Dev := applyGsr (updSec s i fun x => { x with vcc := true }) i

/-- The inactive leaves of the region are SEALED with its load record (R233). -/
def regionLoaded (s : Dev) (r : Nat) : Bool :=
  match recordOf s r with
  | none => false
  | some l => (regionLive s r).all fun i =>
      let d := getLeaf s i (otherLeaf s i)
      d.state = .sealed && d.imageId = l.imageId && d.digest = l.digest && l.sectors.contains (i, d.seq)

/-- Event 1 of R237. -/
def regionUp (r : Nat) (s : Dev) : Dev :=
  let q : RegionSeq := { region := r, cmd := .on, event := 1, prior := regionState s r, switches := 1 }
  let l := regionLive s r
  let s := l.foldl (fun s i => updSec (enterAtts .resetting (portsDown i s) i) i fun x => { x with state := .resetting }) s
  regionStart q (match l with
    | i :: _ => closeSwitch s i
    | [] => s)

/-- REGION_POWER on. -/
def regionOn (r : Nat) (s : Dev) : Dev :=
  match regionCheck s r false [.offRetained, .offLost] with
  | 0 =>
    if regionState s r = .offLost && !regionLoaded s r then regionAnswer 0x0304 r regEmpty s
    else regionUp r s
  | e => regionAnswer 0x0304 r e s

/-- Apply `f` to the running sequence of region `r` where it stands at event `n` and `p` holds of it. -/
def atEvent (r n : Nat) (p : RegionSeq → Bool) (f : RegionSeq → Dev → Dev) (s : Dev) : Dev :=
  match regionSeq s r with
  | some q => if q.event = n && p q then f q s else s
  | none => s

def isDown (q : RegionSeq) : Bool := q.cmd ≠ .on
def isOff (q : RegionSeq) : Bool := q.cmd = .offRetain || q.cmd = .offLose
def isUp (q : RegionSeq) : Bool := q.cmd = .on

/-- Event 2 of R236: every queue is empty (R234). -/
def regionDrained (r us : Nat) (s : Dev) : Dev :=
  if (regionLive s r).all (sectorDrained s) then
    atEvent r 1 isDown (fun q s => setR (regionEvent q 2 s) (rRegionStatus r) 19 0 (min us (2 ^ 20 - 1))) s
  else s

/-- The sectors return to the state before the command (R233, REGION_ERR_DRAIN). -/
def regionReturn (q : RegionSeq) (s : Dev) : Dev :=
  (regionLive s q.region).foldl (fun s i =>
    let s := updSec s i fun x => { x with state := q.prior }
    match q.prior with
    | .active => setAtts s i .active
    | .fenced => setAtts s i .fenced
    | _ => s) s

/-- The drain timeout (R233, R234): under drain_policy 1 what is queued is dropped and counted. -/
def regionDrainTimeout (r : Nat) (s : Dev) : Dev :=
  if (regionLive s r).all (sectorDrained s) then s
  else
    atEvent r 1 isDown (fun q s =>
      let s := setR s (rRegionStatus r) 19 0 (effDrain (fldR s rRegionCfg 19 0))
      if bitR s rRegionCfg 20 then regionEvent q 2 ((regionLive s r).foldl dropSector s) else regionFinish q regDrain (regionReturn q s)) s

/-- Event 4 of R236; a region reset then applies global set/reset and ends, its clocks running again (R236). -/
def regionClocksStopped (r : Nat) (s : Dev) : Dev :=
  atEvent r 2 isDown (fun q s =>
    let l := regionLive s r
    if q.cmd = .reset then
      let s := l.foldl (fun s i =>
        ioGsr i (updSec (applyGsr (dropSector (enterAtts .resetting (portsDown i s) i) i) i) i fun x =>
          { x with state := .resetting, clocks := true })) s
      regionFinish q 0 s
    else regionEvent q 4 (updSecs s l fun x => { x with clocks := false })) s

/-- Event 5 of R236. -/
def regionAttsOff (r : Nat) (s : Dev) : Dev :=
  atEvent r 4 isOff (fun q s =>
    regionEvent q 5 ((regionLive s r).foldl (fun s i =>
      updSec (dropSector (enterAtts .off (portsDown i s) i) i) i fun x => { x with state := .offRetained }) s)) s

/-- The contents that a sector loses with VCC_FAB (R61, R110). -/
def openSwitch (s : Dev) (i : Nat) : Dev :=
  updSec s i fun x => { x with
    vcc := false, clocks := false, gsr := true, gsrDue := false, fresh := true, quiet := false
    ffs := [], benches := [], drawers := [], hinges := [], laneIdx := [], wires := [], iso := [], userOk := false }

/-- Event 6 of R236; without lose the command ends. -/
def regionSwitchOpen (r : Nat) (s : Dev) : Dev :=
  atEvent r 5 isOff (fun q s =>
    let s := (regionLive s r).foldl openSwitch s
    if q.cmd = .offLose then regionEvent q 6 s else regionFinish q 0 s) s

/-- A sector's configuration cells lose power: both leaves become EMPTY and both descriptors take their reset values, sel
with them (R170, R171, R221; DEDUCED, assumption 28). -/
def unpowerConfig (s : Dev) (i : Nat) : Dev :=
  let s := updSec s i fun x => { x with cfgPower := false, state := .offLost }
  let mine := fun k => k / 4096 == i
  evalSectorBundles i <| updCfg s fun c => { c with
    leaves := tDrop (fun k => k / 2 == i) c.leaves
    active := tSet (fun _ => 0) c.active i 0
    frames := tDrop mine c.frames
    ledger := tDrop mine c.ledger
    ledgerBase := tDrop (fun k => k / 2 == i) c.ledgerBase
    repair := tDrop (fun k => k / 2 == i) c.repair
    index := tDrop mine c.index
    scrub := { c.scrub with
      unrestored := c.scrub.unrestored.filter fun k => !mine k
      scheduled := c.scrub.scheduled.filter fun k => !mine k
      waiting := c.scrub.waiting.filter fun k => !mine k } }

/-- Event 7 of R236. -/
def regionUnpowered (r : Nat) (s : Dev) : Dev :=
  atEvent r 6 isOff (fun q s => regionFinish q 0 ((regionLive s r).foldl unpowerConfig s)) s

/-- The next supply switch closes (R237 event 1). -/
def regionSwitchClose (r : Nat) (s : Dev) : Dev :=
  atEvent r 1 isUp (fun q s =>
    match (regionLive s r)[q.switches]? with
    | some i => regionEvent { q with switches := q.switches + 1 } 1 (closeSwitch s i)
    | none => s) s

/-- Events 2 and 3 of R237: every switch is closed and VCC_FAB good; from OFF_LOST the SEALED leaves are selected. -/
def regionVccGood (r : Nat) (s : Dev) : Dev :=
  atEvent r 1 (fun q => isUp q && decide ((regionLive s r).length ≤ q.switches)) (fun q s =>
    let s := if q.prior = .offLost && q.strobes then regionEvent q 3 (strobe (regionLive s r) false false s) else regionEvent q 2 s
    if q.ended then regionFinish q 0 s else s) s

/-- Event 2 of R237 fails: the region goes back to its OFF state, whose entry increments the epochs again (R230). -/
def regionVccBad (r sector mv : Nat) (s : Dev) : Dev :=
  atEvent r 1 isUp (fun q s =>
    let s := (regionLive s r).foldl (fun s i => updSec (openSwitch (enterAtts .off s i) i) i fun x => { x with state := q.prior }) s
    let s := regionFinish q regPower s
    raiseS s fltSectorPower (sector * 2 ^ 58 + r * 2 ^ 54 + mv % 2 ^ 16) sector) s

/-- Drawers initialise at event 4 of R213, R237: on the first configuration, or where the active leaf sets init (R107). -/
def startInit (always : Bool) (s : Dev) (i : Nat) : Dev :=
  let l := items s i
  updSec s i fun c => { c with
    clocks := true
    fresh := false
    drawers :=
      let first := always || c.fresh
      ((drawersOf first l c.drawers).map fun d =>
        let x := tGet drawerDflt c.drawers d
        (d, { x with initing := x.initing || first || (drawerCfg l d).init })).filter fun e => e.2 ≠ {} }

/-- Drawer `d` of sector `i` after the last edge of its initialising clock, where that clock runs (R108, R109). -/
def initEnd (s : Dev) (i d : Nat) (x : Drawer) : Drawer :=
  let g := drawerCfg (items s i) d
  if initClock s i g then initComplete g (drawerRows s i d) x else x

/-- Every Drawer of a sector whose initialising clock runs has finished initialisation. -/
def finishInit (s : Dev) (i : Nat) : Dev :=
  updSec s i fun c => { c with drawers := (c.drawers.map fun e => (e.1, initEnd s i e.1 e.2)).filter fun e => e.2 ≠ {} }

/-- No Drawer of a sector initialises. -/
def initsEnded (s : Dev) (i : Nat) : Bool := (getSec s i).drawers.all fun e => !e.2.initing

/-- Event 5 of R237: no Drawer of the region initialises any more. -/
def regionUpInit (r : Nat) (s : Dev) : Dev :=
  atEvent r 4 isUp (fun q s =>
    if (regionLive s r).all (initsEnded s) then regionEvent q 5 s else s) s

/-- A Drawer writes its last row: the sector is powered and its clocks run, under global set/reset or not (R108, R109). The last
one of a powering-up region is event 5 of R237. -/
def drawerInitDone (i d : Nat) (s : Dev) : Dev :=
  if fabricLive s i || ((getSec s i).vcc && i < 64) then
    let s := drawerOp i d (fun x => (initEnd s i d x, [])) s
    match regionOf s i with
    | some r => regionUpInit r s
    | none => s
  else s

/-- Event 4 of R237: the sectors were powered up, so every Drawer initialises. -/
def regionUpClocks (r : Nat) (s : Dev) : Dev :=
  match regionSeq s r with
  | some q =>
    if isUp q && (q.event = 2 || q.event = 3) then
      regionUpInit r (regionEvent q 4 ((regionLive s r).foldl (startInit true) s))
    else s
  | none => s

/-- Event 6 of R237. A Drawer whose last row no command has shown ends its initialisation by then, unless its clock is stopped: then
event 5 has not been reached. -/
def regionUpRelease (r : Nat) (s : Dev) : Dev :=
  match regionSeq s r with
  | some q =>
    let t := (regionLive s r).foldl finishInit s
    if isUp q && (q.event = 4 || q.event = 5) && (regionLive s r).all (initsEnded t) then
      regionFinish q 0 ((regionLive s r).foldl (fun s i =>
        setAtts (updSec (gsrOrder s i) i fun x => { x with state := .fenced }) i .fenced) t)
    else s
  | none => s

end Sys2Proof.Machine
end

