-- ==== Sys2Proof/Machine/Images.lean ====
section
/-! DEFINITION. The store's slots and the configuration loader (R198 to R208, R224 to R227, R247). -/

namespace Sys2Proof.Machine

/-! ## Store copies (R201 to R203) -/

def copyDflt : Nat → StoreCopy := fun _ => {}

/-- Key of a copy: area 0 main, 1 partial, 2 Cabinet, 3 lane table. -/
def copyKey (area slot copy : Nat) : Nat := 64 * area + 2 * slot + copy

def getCopy (s : Dev) (k : Nat) : StoreCopy := tGet copyDflt s.cfg.store k

def setCopy (s : Dev) (k : Nat) (v : StoreCopy) : Dev := updCfg s fun c => { c with store := tSet copyDflt c.store k v }

/-- store_seq as STORE_WRITE and the comparisons take it: 0 for an invalid copy. -/
def copySeq (c : StoreCopy) : Nat := if c.valid then c.seq else 0

/-- Copy B is the newer one: with equal store_seq, copy A counts as newer (R203). -/
def newerIsB (a b : StoreCopy) : Bool := b.valid && (!a.valid || a.seq < b.seq)

/-- The newest valid copy of a slot, and the other valid copy. -/
def slotCopies (s : Dev) (area slot : Nat) : List Nat :=
  let ka := copyKey area slot 0
  let kb := copyKey area slot 1
  let l := if newerIsB (getCopy s ka) (getCopy s kb) then [kb, ka] else [ka, kb]
  l.filter fun k => (getCopy s k).valid

/-- The eight words of a valid copy header (R202). -/
def copyHeader (c : StoreCopy) : List Word :=
  let w := [BitVec.ofNat 64 (c.seq * 2 ^ 32 + 0x50535146), BitVec.ofNat 64 c.length, BitVec.ofNat 64 c.crc, BitVec.ofNat 64 c.imageId,
    BitVec.ofNat 64 c.version, 0, 0]
  w ++ [BitVec.ofNat 64 (crc32c (wordBytes w))]

/-- The image of a copy fits the length and the CRC of its header. The loader checks it when it reads the copy (R202); a copy that does
not fit delivers no bytes (assumption 138). -/
def copyFits (c : StoreCopy) : Bool := c.length = 8 * c.image.length && c.crc = crc32c (imgBytes c.image)

/-- What a source delivers, and the copy it came from. -/
def sourceImage (s : Dev) : LoadFrom → Option ImageWords × Option Nat
  | .store area slot copy newest =>
    let k := if newest then (slotCopies s area.val slot.val).head? else some (copyKey area.val slot.val copy.val)
    match k with
    | some k => let c := getCopy s k; if c.valid && copyFits c then (some c.image, some k) else (none, none)
    | none => (none, none)
  | .host img => (if hostLinkUp s then img else none, none)
  | .port => (none, none)

def loadSource : LoadFrom → LoadSource
  | .store _ _ _ _ => .store
  | .host _ => .host
  | .port => .port

/-- Coding of LOAD_STATUS.source (R200). -/
def sourceCode : LoadSource → Nat
  | .store => 0
  | .port => 1
  | .host => 2

/-! ## Checks before writing (R198) -/

/-- The image key of an entry (R516). -/
def imageKey (s : Dev) (e : Nat) : Option (List Nat) :=
  if 16 ≤ e then none
  else
    let k := tGet (fun _ => []) s.bureau.keys.imageKeys e
    if k.isEmpty then none else some k

/-- A required unit is out of service. -/
def unitsMissing (s : Dev) (h : List Word) : Bool :=
  let w := hword h 6
  (bitsOf 64 (hMask h)).any (s.units.sectors.contains ·) ||
    (bitsOf 32 (fld w 31 0)).any (s.units.quads.contains ·) ||
    (bitsOf 8 (fld w 39 32)).any (fun n => s.units.ddr.any (·.1 = n)) ||
    (bitsOf 4 (fld w 43 40)).any (s.units.sram.contains ·) ||
    (bitsOf 4 (fld w 47 44)).any (s.units.pcie.contains ·)

/-- The sectors that a load writes (R199). -/
def loadSectors (s : Dev) (isPartial : Bool) (region : Nat) : List Nat :=
  if isPartial then regionLive s region else (List.range 64).filter (inService s)

/-- A sector whose sequence numbers are exhausted (R172). -/
def seqExhausted (s : Dev) (i : Nat) : Bool := max (getLeaf s i 0).seq (getLeaf s i 1).seq = 2 ^ 32 - 1

/-- The first check before writing that fails; 0 where none does. A poisoned word fails the load where it is taken (R39). -/
def precheck (s : Dev) (img : ImageWords) (isPartial : Bool) : Nat :=
  let ws := imgWords img
  let h := ws.take 16
  let tEnd := hTable ws / 8 + 2 * min (hSections ws) 64
  if s.units.loaderDec || (img.take 16).any (·.2) then errPoison
  else if !headerOk h isPartial then errHeader
  else if fld (hword h 2) 47 32 ≠ 0x1260 then errPart
  else if 0x14000000 < hLength h || hLength h ≠ 8 * img.length then errSize
  else if (img.take tEnd).any (·.2) then errPoison
  else if !tableOk ws then errSection
  else if (bitR s rBootCfg 20 || s.bureau.keys.signFuse) && !hSigned h then errUnsigned
  else if unitsMissing s h then errUnits
  else if isPartial && (regionMask s (hRegion h) = 0 || hMask h ≠ regionMask s (hRegion h) ||
      (match s.cfg.base with | some b => b.imageId ≠ hBaseId h | none => true)) then errBase
  else if (loadSectors s isPartial (hRegion h)).any (seqExhausted s) then errSequence
  else if hEncrypted h && (imageKey s (hKeySlot h)).isNone then errKey
  else 0

/-! ## Ends of a load -/

/-- Opcode of the command that runs a load. -/
def loadOp (isPartial : Bool) : Nat := if isPartial then 0x0102 else 0x0101

/-- FLT_LOAD_FAILED (R487). -/
def raiseLoadFailed (code src : Nat) (isPartial : Bool) (region addr : Nat) (s : Dev) : Dev :=
  raiseD s fltLoadFailed (code * 2 ^ 56 + src * 2 ^ 54 + isPartial.toNat * 2 ^ 53 + region % 16 * 2 ^ 49 +
    addr % 2 ^ 17 * 2 ^ 32 + fldR s rLoadStatus 31 0)

/-- A boot attempt fails: CONF_ERR_N low, attempts counted (R210, R211); with fail_policy 0 the host is waited for. -/
def attemptFailed (s : Dev) : Dev :=
  let s := incR s rLoadStatus 39 32 1
  let stop := !bitR s rBootCfg 4
  updCfg s fun c => { c with
    confErrN := false
    boot := { c.boot with
      attempt := none
      waitHost := c.boot.waitHost || stop
      running := c.boot.running && !stop } }

/-- The leaves that a load was writing become ABORTED (R171). -/
def abortLeaves (l : Load) (s : Dev) : Dev :=
  l.leaves.foldl (fun s e => updLeaf s e.1 e.2 fun d => if d.state = .loading then { d with state := .aborted } else d) s

/-- The running load fails with a code (R198). `addr` is the frame address at which it stopped. -/
def failLoad (code addr : Nat) (s : Dev) : Dev :=
  match s.cfg.load with
  | none => s
  | some l =>
    let s := abortLeaves l s
    let s := updCfg s fun c => { c with load := none, port := { c.port with armed := false } }
    let s := setR (setR s rLoadStatus 63 63 0) rLoadStatus 55 48 code
    let s := raiseLoadFailed code (sourceCode l.source) l.isPartial l.region addr s
    let s := if l.mailbox then mbxEndOp (loadOp l.isPartial) famLoad code [] s else s
    if l.boot then attemptFailed s else s

/-- LOAD_STATUS at the start of a load. -/
def loadBegins (src : Nat) (isPartial : Bool) (region : Nat) (s : Dev) : Dev :=
  let s := setR (setR s rLoadStatus 63 63 1) rLoadStatus 62 61 src
  let s := setR (setR s rLoadStatus 60 60 isPartial.toNat) rLoadStatus 31 0 0
  if isPartial then setR s rLoadStatus 59 56 region else s

/-- Facts of a full image (R188). -/
def baseOf (img : List Word) : BaseImage :=
  let w4 := hword img 4
  { imageId := hImageId img, digest := digestPrefix img, mask := hMask img, healthMs := fld (hword img 9) 31 0
    bar4 := if bit w4 43 then some (fld w4 40 32, fld w4 42 41) else none }

/-- An image reaches the loader: checks before writing, then the load waits at its first section. A region that an image of a
partial load names is set in the write gate (R224). -/
def takeImage (img : ImageWords) (copy : Option Nat) (src : LoadSource) (isPartial mailbox boot : Bool) (s : Dev) : Dev :=
  let ws := imgWords img
  let r := hRegion ws
  let s := loadBegins (sourceCode src) isPartial r s
  let l : Load := { source := src, copy, image := img, isPartial, region := r, header := ws.take 16, sections := [], mailbox, boot }
  let s := updCfg s fun c => { c with load := some l }
  match precheck s img isPartial with
  | 0 =>
    let gate := maskOf (loadSectors s isPartial r)
    updCfg s fun c => { c with
      gate
      load := some { l with sections := sectionTable ws, base := if isPartial then {} else baseOf ws } }
  | code => failLoad code 0 s

/-- A load that writes the sectors of `set` waits while a commit or rollback of one of them runs (R179), while a power-off with lose of
one runs (R235), and while a start-up or a power-up is still to select the leaf that it would write (R171; DEDUCED, assumption 140). -/
def setWaits (s : Dev) (set : List Nat) : Bool :=
  (match s.cfg.commit with | some c => set.any c.set.contains | none => false) ||
  (match s.cfg.startup with | some u => !u.warm && decide (u.event < 3) | none => false) ||
  s.cfg.regions.any fun q =>
    (q.cmd = .offLose || (q.cmd = .on && q.event < 3)) && (regionSectors s q.region).any set.contains

/-- A load of the image that a source holds waits. -/
def loadWaits (s : Dev) (src : LoadFrom) (isPartial : Bool) : Bool :=
  match (sourceImage s src).1 with
  | none => false
  | some img => setWaits s (loadSectors s isPartial (hRegion (imgWords img)))

/-- The running load has still to start writing, and waits. -/
def writingWaits (s : Dev) (l : Load) : Bool := !l.started && setWaits s (loadSectors s l.isPartial l.region)

/-- LOAD_IMAGE, LOAD_PARTIAL or a boot attempt starts (R198, R205, R208). -/
def beginLoad (src : LoadFrom) (isPartial mailbox boot : Bool) (s : Dev) : Dev :=
  if jtagHolds s || selfTestPending s || loadWaits s src isPartial then s
  else if s.cfg.load.isSome then
    let s := raiseLoadFailed errBusy (sourceCode (loadSource src)) isPartial 0 0 s
    if mailbox then mbxEndOp (loadOp isPartial) famLoad errBusy [] s else s
  else match src with
    | .port =>
      let l : Load := { source := .port, copy := none, image := [], isPartial, region := 0, header := [], sections := [], mailbox, boot }
      let s := loadBegins 1 isPartial 0 s
      updCfg s fun c => { c with load := some l, port := { c.port with armed := true, armedPartial := isPartial } }
    | _ =>
      match sourceImage s src with
      | (some img, copy) => takeImage img copy (loadSource src) isPartial mailbox boot s
      | (none, _) =>
        let s := loadBegins (sourceCode (loadSource src)) isPartial 0 s
        let l : Load :=
          { source := loadSource src, copy := none, image := [], isPartial, region := 0, header := [], sections := [], mailbox, boot }
        failLoad errSize 0 (updCfg s fun c => { c with load := some l })

/-- An image passes the configuration port (R206 to R208); `portWaits` has not held it back. -/
def portImage (img : ImageWords) (s : Dev) : Dev :=
  let ws := imgWords img
  match s.cfg.load with
  | some l =>
    if l.source = .port && l.header.isEmpty && s.cfg.port.armed && (hGroups ws).testBit s.power.cfgGrp &&
        hPartial ws == s.cfg.port.armedPartial then
      takeImage img none .port l.isPartial l.mailbox l.boot
        (updCfg s fun c => { c with load := none, port := { c.port with armed := false } })
    else s
  | none => s

/-- The image that the port would take waits: the port holds it (R179, R207, R235). -/
def portWaits (img : ImageWords) (s : Dev) : Bool :=
  match s.cfg.load with
  | some l => l.source = .port && setWaits s (loadSectors s l.isPartial (hRegion (imgWords img)))
  | none => false

/-- An image passes as a whole, unless it is held. -/
def portWhole (img : ImageWords) (s : Dev) : Dev := if portWaits img s then s else portImage img s

/-- The 64-bit words of a stream of 16-bit words: CFG_D[7:0] is the lower byte (R206). -/
def streamWords (ds : List (BitVec 16)) : List Word :=
  (chunks 4 ds).map fun q => BitVec.ofNat 64 ((List.range 4).foldl (fun n k => n + (nth 0 q k).toNat * 2 ^ (16 * k)) 0)

/-- 16-bit words of the image at the head of a stream, by its header; nothing while the header is not complete. -/
def streamImage (ds : List (BitVec 16)) : Option Nat :=
  if ds.length < 64 then none else some (max 128 (hLength (streamWords (ds.take 64))) / 2)

/-- The whole images in the port's buffer pass in order: each is taken or skipped by its header (R206). -/
def portDrain : Nat → Dev → Dev
  | 0, s => s
  | n + 1, s =>
    let ds := s.cfg.port.part
    match streamImage ds with
    | none => s
    | some k =>
      let img : ImageWords := (streamWords (ds.take k)).map (·, false)
      if ds.length < k || portWaits img s then s
      else portDrain n (portImage img (updCfg s fun c => { c with port := { c.port with part := ds.drop k } }))

/-- Words that the port takes, with CFG_VALID 1, in order (R206). -/
def portWords (ds : List (BitVec 16)) (s : Dev) : Dev :=
  let s := updCfg s fun c => { c with port := { c.port with part := c.port.part ++ ds } }
  portDrain (s.cfg.port.part.length / 64 + 1) s

/-- The port buffer's free words change (R207). -/
def portLevel (free : Nat) (s : Dev) : Dev := updCfg s fun c => { c with port := { c.port with busy := free < 64 } }

/-! ## Sections and records -/

/-- A leaf starts to be written (R171, R172, R185, R251): frames and ledger describe zero content until records arrive. -/
def openLeaf (l : Load) (dig : Nat) (s : Dev) (i : Nat) : Dev :=
  let lf := otherLeaf s i
  let seq := max (getLeaf s i 0).seq (getLeaf s i 1).seq + 1
  let k := 2 * i + lf
  let mine := fun f => f / 2048 == k
  let s := updLeaf s i lf fun _ =>
    { state := .loading, imageId := hImageId l.header, digest := dig, seq, commitId := 0, damaged := false, unavail := false }
  let zero := encodeWord (ledgerOf (List.replicate 384 0) seq) false
  let s := updSec s i fun x => { x with cfgPower := true }
  updCfg s fun c => { c with
    frames := tDrop mine c.frames
    ledger := tDrop mine c.ledger
    ledgerBase := tSet (fun _ => 0) c.ledgerBase k zero
    repair := tDrop (fun f => f == k) c.repair
    index := tDrop mine c.index
    scrub := { c.scrub with
      unrestored := c.scrub.unrestored.filter fun f => !mine f
      scheduled := c.scrub.scheduled.filter fun f => !mine f
      waiting := c.scrub.waiting.filter fun f => !mine f } }

/-- The load starts to write its sectors. -/
def startWriting (l : Load) (s : Dev) : Dev :=
  if l.started then s
  else
    let set := loadSectors s l.isPartial l.region
    let dig := digestPrefix (imgWords l.image)
    let leaves := set.map fun i => (i, otherLeaf s i)
    let s := set.foldl (openLeaf l dig) s
    updCfg s fun c => { c with load := some { l with started := true, leaves } }

/-- The key for the image's sections. -/
def loadKey (s : Dev) (l : Load) : List Nat := (imageKey s (hKeySlot l.header)).getD []

/-- FLT_IMAGE_AUTH and the failure of a tag (R198). -/
def failAuth (l : Load) (n : Nat) (s : Dev) : Dev :=
  let last := l.seen.getLastD 0
  failLoad errAuth last (raiseD s fltImageAuth (n * 2 ^ 56 + sourceCode l.source * 2 ^ 54 + l.isPartial.toNat * 2 ^ 53 + last))

/-- Replace the running load. -/
def setLoad (l : Load) (s : Dev) : Dev := updCfg s fun c => { c with load := some l }

/-- The loader reaches its next section (R189, R196). -/
def imageSection (s : Dev) : Dev :=
  match s.cfg.load with
  | none => s
  | some l =>
    match l.sections[l.next]? with
    | none => s
    | some e =>
      if !l.plain.isEmpty || writingWaits s l then s
      else
        let n := l.next
        let stored := sectionWords l.image e
        let key := loadKey s l
        if e.kind = 1 then
          let s := startWriting l s
          match s.cfg.load with
          | some l =>
            let plain := plainSection l.image key n e
            if plain.isEmpty then
              if tagOk l.image key n e then setLoad { l with next := n + 1 } s else failAuth l n s
            else setLoad { l with plain, pos := 0 } s
          | none => s
        else if stored.any (·.2) then failLoad errPoison 0 s
        else if e.kind = 5 then setLoad { l with next := n + 1 } s
        else if crc32c (imgBytes stored) ≠ e.crc then failLoad errSection 0 s
        else if !tagOk l.image key n e then failAuth l n s
        else
          let ws := imgWords (plainSection l.image key n e)
          let next := n + 1
          if e.kind = 2 then
            let rs := ws.map (·.toNat)
            if regionsOk (hMask l.header) rs then setLoad { l with next, base := { l.base with regions := rs } } s
            else failLoad errSection 0 s
          else if e.kind = 3 then
            let plls := (chunks 2 ws).map fun p => pllEntry (nth 0 p 0) (nth 0 p 1)
            setLoad { l with next, base := { l.base with plls } } s
          else
            let hv := wordBytes ws
            if hv.all hvOk then setLoad { l with next, base := { l.base with hv } } s else failLoad errSection 0 s

/-- The global-line sources that items name. -/
def lineItems (l : List Setting) : List (Nat × Nat × Nat) :=
  l.filterMap fun x => match x with
    | .gline q n a b => some (32 * q.val + n.val, a.toNat, b.toNat)
    | _ => none

/-- Write one frame with its ledger entry (R167, R185). Of the items, those that the frame can hold act (R165). -/
def writeFrame (l : Load) (content : List Word) (s : Dev) (x : Nat × List Setting) : Dev :=
  let i := x.1 / 2048
  let f := x.1 % 2048
  let lf := alGet 0 l.leaves i
  let words := ((List.range 384).zip content).foldl (fun t e => tSet (fun _ => 0) t e.1 e.2) []
  let its := x.2.filter (frameHolds i f)
  let s := setFrame s i lf f { words, meaning := its, written := its }
  let s := setLedger s (frameKey i lf f) (encodeWord (ledgerOf content (getLeaf s i lf).seq) false)
  incR s rLoadStatus 31 0 1

/-- The write gate refuses an address (R224, R228). -/
def gateRefuse (l : Load) (addr : Nat) (s : Dev) : Dev :=
  let s := if bitR s rGateStatus 63 then s
    else putR (putR s rGateStatus (BitVec.ofNat 64 (2 ^ 63 + l.region * 2 ^ 44 + addr))) rGateImage (BitVec.ofNat 64 (hImageId l.header))
  failLoad errRegion addr (raiseD s fltRegionGate (l.region * 2 ^ 60 + addr))

/-- The loader takes the next frame record (R190). `items` gives what the frame configures at each address of its list;
`mismatches` counts read-backs that differ at one address (R167). A poisoned word fails the load as it is taken, before a check uses it
(R39, R198; DEDUCED, assumption 137). -/
def frameRecord (items : List (List Setting)) (mismatches : Nat) (s : Dev) : Dev :=
  match s.cfg.load with
  | none => s
  | some l =>
    if l.plain.isEmpty then s
    else if recordPoisoned (l.plain.drop l.pos) then failLoad errPoison (recordStart (l.plain.drop l.pos)) s
    else match parseRecord (l.plain.drop l.pos) with
      | none => failLoad errToken 0 s
      | some r =>
        let bad := r.addrs.find? fun a => !namesFrame a || l.seen.contains a || (r.addrs.filter (· = a)).length ≠ 1 ||
          (!l.isPartial && !(hMask l.header).testBit (a / 2048))
        match bad, r.addrs.find? fun a => !s.cfg.gate.testBit (a / 2048) with
        | some a, _ => failLoad errAddress a s
        | none, some a => if l.isPartial then gateRefuse l a s else failLoad errAddress a s
        | none, none =>
          if crc32c (wordBytes r.content) ≠ r.crc then failLoad errFrameCrc (r.addrs.headD 0) s
          else
            let xs := (List.range r.addrs.length).map fun n => (nth 0 r.addrs n, nth [] items n)
            let s := xs.foldl (writeFrame l r.content) s
            if 2 ≤ mismatches then failLoad errVerify (r.addrs.getLastD 0) s
            else
              let pos := l.pos + r.used
              let lines := if l.isPartial then l.base.lines else l.base.lines ++ lineItems items.flatten
              let index := l.index ++ r.addrs.map fun a => (a, l.next, l.pos)
              let l := { l with seen := l.seen ++ r.addrs, index, pos, base := { l.base with lines } }
              if pos < l.plain.length then setLoad l s
              else
                let e := nth { offset := 0, kind := 0, encrypted := false, crc := 0, length := 0 } l.sections l.next
                if tagOk l.image (loadKey s l) l.next e then setLoad { l with plain := [], pos := 0, next := l.next + 1 } s
                else failAuth l l.next s

/-! ## Completion -/

/-- The frame stream of the sectors written (R193). -/
def streamCrc (s : Dev) (l : Load) : Nat :=
  l.leaves.foldl (fun c e =>
    crc64Frames c 1536 ((s.cfg.frames.filter fun f => f.1 / 2048 == 2 * e.1 + e.2).map fun f => (f.1 % 2048, f.2.words))) 0

/-- The signature section verifies against an unrevoked key hash (R197). -/
def signatureOk (s : Dev) (l : Load) : Bool :=
  match l.sections.find? fun e => e.kind = 5 with
  | none => true
  | some e =>
    let b := imgBytes (sectionWords l.image e)
    let pub := b.take 96
    let hash := ofLe (sha384 pub)
    ecdsaVerify pub (imageDigest (imgWords l.image)) (b.drop 96) &&
      (List.range 4).any fun k =>
        let x := tGet (fun _ => ({} : SignEntry)) s.bureau.keys.sign k
        x.programmed && !x.revoked && x.hash = hash

/-- A store copy holds the image of a leaf (R247). -/
def copyHolds (s : Dev) (d : LeafDesc) (k : Nat) : Bool :=
  let c := getCopy s k
  c.valid && c.imageId = d.imageId && digestPrefix (imgWords c.image) = d.digest

/-- The search order for a repair source, after a first copy (R247). -/
def repairOrder : List Nat := (List.range 16).map (copyKey 0 0 0 + ·) ++ (List.range 64).map (copyKey 1 0 0 + ·)

/-- The repair source of a leaf. -/
def findRepair (s : Dev) (first : Option Nat) (d : LeafDesc) : Option Nat :=
  (first.toList ++ repairOrder).find? (copyHolds s d)

/-- An index word (R247): the frame is carried, and the section and word at which its record starts. -/
def indexWord (sect pos : Nat) : Word := BitVec.ofNat 64 (2 ^ 63 + sect * 2 ^ 48 + pos)

/-- Where the records of a FRAMES section start: frame address, section, word. -/
def recordStarts (n : Nat) : Nat → Nat → ImageWords → List (Nat × Nat × Nat)
  | 0, _, _ => []
  | fuel + 1, pos, ws =>
    match parseRecord ws with
    | none => []
    | some r => (r.addrs.map fun a => (a, n, pos)) ++ recordStarts n fuel (pos + r.used) (ws.drop r.used)

/-- The index of the leaves that a load wrote, by frame; a frame without an entry is not carried. -/
def leafIndex (l : Load) (t : Tbl PWord) : Tbl PWord :=
  let t := t.filter fun e => !l.leaves.any fun x => e.1 / 2048 = 2 * x.1 + x.2
  l.index.foldl (fun t e =>
    match l.leaves.find? fun x => x.1 = e.1 / 2048 with
    | some x => tSet (fun _ => 0) t (frameKey x.1 x.2 (e.1 % 2048)) (encodeWord (indexWord e.2.1 e.2.2) false)
    | none => t) t

/-- The final checks pass: every written sector becomes SEALED, the record of the load's kind is replaced, repair sources are
recorded (R171, R173, R198, R247). The image's source copy is checked once for all its leaves. -/
def sealLoad (l : Load) (s : Dev) : Dev :=
  let s := l.leaves.foldl (fun s e => updLeaf s e.1 e.2 fun d => { d with state := .sealed }) s
  let rec0 : LoadRecord :=
    { imageId := hImageId l.header, digest := digestPrefix (imgWords l.image)
      sectors := l.leaves.map fun e => (e.1, (getLeaf s e.1 e.2).seq), baseId := hBaseId l.header }
  let key := if l.isPartial then l.region else 16
  let src := match l.leaves with
    | e :: _ => findRepair s l.copy (getLeaf s e.1 e.2)
    | [] => none
  let s := updCfg s fun c => { c with
    load := none
    records := (c.records.filter fun e => e.1 ≠ key) ++ [(key, rec0)]
    loadedBase := if l.isPartial then c.loadedBase else some l.base
    index := leafIndex l c.index
    repair := l.leaves.foldl (fun t e => tSet (fun _ => none) t (2 * e.1 + e.2) src) c.repair }
  let s := setR (setR s rLoadStatus 63 63 0) rLoadStatus 55 48 0
  if l.mailbox then mbxEndOp (loadOp l.isPartial) famLoad 0 [] s else s

/-- The checks after the last frame (R198); answers the load that completed, if one did. -/
def loadComplete (s : Dev) : Option Load × Dev :=
  match s.cfg.load with
  | none => (none, s)
  | some l =>
    if l.sections.isEmpty || l.next < l.sections.length || !l.plain.isEmpty || writingWaits s l then (none, s)
    else
      let s := startWriting l s
      let l := s.cfg.load.getD l
      let ws := imgWords l.image
      let s := setR s rLoadStatus 31 0 (1536 * l.leaves.length)
      if (l.image.drop (l.image.length - 4)).any (·.2) then (none, failLoad errPoison 0 s)
      else if !trailerOk ws || (nth 0 (trailer ws) 2).toNat ≠ l.seen.length || (nth 0 (trailer ws) 1).toNat ≠ streamCrc s l then
        (none, failLoad errStream 0 s)
      else if hSigned l.header && !signatureOk s l then (none, failLoad errSignature 0 s)
      else (some l, sealLoad l s)

/-- MBX_CTRL.abort (R511, R512): of a path that the claim admits, it ends a load that the mailbox runs. -/
def loadAbort (path : Nat) (s : Dev) : Dev :=
  let owner := fldR s rMbxClaim 1 0
  if owner ≠ 0 && owner ≠ path then setR s rMbxStatus 61 61 1
  else match s.cfg.load with
    | some l => if l.mailbox then failLoad errAborted 0 s else s
    | none => s

/-- A running load meets a reset (R198, R514). -/
def resetLoad (s : Dev) : Dev :=
  match s.cfg.load with
  | some l => failLoad errAborted 0 (updCfg s fun c => { c with load := some { l with boot := false } })
  | none => s

end Sys2Proof.Machine
end

