-- ==== Sys2Proof/Machine/Boot.lean ====
section
/-! DEFINITION. Start-up, the boot procedure, the health check's pass, STORE_WRITE and STORE_SELECT (R201 to R218). -/

namespace Sys2Proof.Machine

/-! ## Start-up (R213, R214) -/

/-- The sectors that start-up brings into service: in service, with an ACTIVE leaf, not in a region that stays OFF (R214,
R544). -/
def startSectors (s : Dev) : List Nat :=
  (List.range 64).filter fun i =>
    let st := (getSec s i).state
    inService s i && (activeDesc s i).state = .active && st ≠ .offRetained && st ≠ .offLost && (getSec s i).vcc

/-- The base image whose PLLs and lines start-up sets. -/
def startupBase (s : Dev) (warm : Bool) : Option BaseImage := if warm then s.cfg.base else s.cfg.loadedBase

/-- The fabric PLLs that a base image enables, by PLL number. -/
def enabledPlls (b : Option BaseImage) : List Nat :=
  match b with
  | none => []
  | some b => (List.range 16).filterMap fun p => if (nth {} b.plls p).en then some (3 + p) else none

/-- Event 1: the enabled fabric PLLs start, the others stop; line selects are set. -/
def startStartup (fromCommit boot warm : Bool) (s : Dev) : Dev :=
  let b := startupBase s warm
  let on := enabledPlls b
  let s := (List.range 16).foldl (fun s p => if on.contains (3 + p) then pllRestart s (3 + p) else setPll s (3 + p) .off) s
  let s := applyLines b s
  updCfg s fun c => { c with startup := some { event := 1, fromCommit, boot, warm } }

/-- Set the running start-up. -/
def setStartup (u : StartupRun) (s : Dev) : Dev := updCfg s fun c => { c with startup := some u }

/-- Events 2 and 3: every enabled fabric PLL has locked; a start-up on a load then selects the written leaves. -/
def startupPllsLocked (s : Dev) : Dev :=
  match s.cfg.startup with
  | some u =>
    if u.event = 1 && (enabledPlls (startupBase s u.warm)).all (fun p => pllState s p ≠ .off && pllHasRef s p) then
      let s := (enabledPlls (startupBase s u.warm)).foldl (fun s p => setPll s p .locked) s
      if u.warm then applyBar4 (setStartup { u with event := 2 } s)
      else
        let set := ((recordOf s 16).map fun r => r.sectors.map (·.1)).getD []
        strobe set true false (setStartup { u with event := 3 } s)
    else s
  | none => s

/-- Event 2 fails: LOAD_ERR_PLL; the leaves stay SEALED and unselected. -/
def startupPllTimeout (s : Dev) : Dev :=
  match s.cfg.startup with
  | some u =>
    if u.event = 1 then
      let s := setR (updCfg s fun c => { c with startup := none }) rLoadStatus 55 48 errPll
      let s := raiseLoadFailed errPll (fldR s rLoadStatus 62 61) (bitR s rLoadStatus 60) (fldR s rLoadStatus 59 56) 0 s
      let s := if u.fromCommit then
          mbxEndOp 0x0103 famCommit rsnStart [] (setR (setR s rCommitStatus 31 31 0) rCommitStatus 23 20 rsnStart)
        else s
      if u.boot then attemptFailed s else s
    else s
  | none => s

/-- Event 4: sector clocks start and Drawers initialise (R107, R214). -/
def startupClocks (s : Dev) : Dev :=
  match s.cfg.startup with
  | some u =>
    if (u.warm && u.event = 2) || (!u.warm && u.event = 3) then
      (startSectors s).foldl (startInit false) (setStartup { u with event := 4 } s)
    else s
  | none => s

/-- Event 6 for quadrant `q`: after every Drawer has been initialised (event 5), global set/reset is ordered released and attachments
become ACTIVE. -/
def startupQuadrant (q : Nat) (s : Dev) : Dev :=
  match s.cfg.startup with
  | some u =>
    let t := (startSectors s).foldl finishInit s
    if u.event = 4 && !u.released.contains q && (startSectors s).all (initsEnded t) then
      let s := setStartup { u with released := q :: u.released } s
      ((startSectors s).filter fun i => quadrantOf i = q).foldl (fun s i =>
        setAtts (updSec (gsrOrder (finishInit s i) i) i fun x => { x with state := .active }) i .active) s
    else s
  | none => s

/-- Event 7: every quadrant that has a sector to start has been released; outputs and pulls follow the image. -/
def startupOutputs (s : Dev) : Dev :=
  match s.cfg.startup with
  | some u =>
    if u.event = 4 && (startSectors s).all (fun i => u.released.contains (quadrantOf i)) then
      let s := (List.range 64).foldl (fun s i => loadLatches i s) s
      setStartup { u with event := 7 } { s with power := { s.power with pinsHeld := false } }
    else s
  | none => s

/-- Event 8 in the configuration state: DONE and CONF_ERR_N high, health timer, response of COMMIT FULL. Its effects on lanes
and P0 are in `startupDone`. -/
def startupDoneCore (s : Dev) : Dev :=
  match s.cfg.startup with
  | some u =>
    if u.event = 7 then
      let s := updCfg s fun c => { c with
        startup := none, done := true, confErrN := true
        boot := { c.boot with running := false, attempt := none, waitHost := false } }
      let s := startHealth u.boot u.fromCommit s
      if u.fromCommit then
        mbxEndOp 0x0103 famCommit 0 [] (setR (setR s rCommitStatus 31 31 0) rCommitStatus 23 20 0)
      else s
    else s
  | none => s

/-! ## COMMIT (R174, R213) -/

/-- COMMIT: refused; event 1 of R175; or, for FULL while DONE is low, the start-up of R213. -/
def doCommit (r : Nat) (s : Dev) : Dev :=
  match commitRefusal s r with
  | 0 =>
    if r = 16 && !s.cfg.done then startStartup true false false (setR s rCommitStatus 31 31 1)
    else startCommit (((recordOf s r).map fun l => l.sectors.map (·.1)).getD []) r false true s
  | reason => refuseCommit false reason s

/-! ## Boot procedure (R210) -/

/-- A copy as a source. -/
def copySource (k : Nat) : LoadFrom := .store 0 (Fin.ofNat 32 (k % 64 / 2)) (Fin.ofNat 2 k) false

/-- wait_for_host. -/
def waitForHost (s : Dev) : Dev :=
  updCfg s fun c => { c with boot := { c.boot with running := false, attempt := none, waitHost := true } }

/-- The next attempts of a running procedure, until one is under way or the candidates are used up. A load of the host ends
the procedure. -/
def bootContinue : Nat → Dev → Dev
  | 0, s => s
  | n + 1, s =>
    if !s.cfg.boot.running || s.cfg.boot.attempt.isSome || s.cfg.startup.isSome then s
    else if s.cfg.load.isSome then waitForHost s
    else match s.cfg.boot.cands with
      | [] => waitForHost s
      | k :: ks =>
        let s := updCfg s fun c => { c with boot := { c.boot with cands := ks } }
        if s.cfg.boot.tried.contains k then bootContinue n s
        else
          let s := updCfg s fun c => { c with boot := { c.boot with tried := c.boot.tried ++ [k], attempt := some k } }
          bootContinue n (beginLoad (copySource k) false false true s)

/-- The procedure starts, once the management clock runs on PLL 0 or reduced service is entered. -/
def bootProcedure (s : Dev) : Dev :=
  if s.cfg.boot.due && !selfTestPending s && !(s.cfg.regions.any (·.ended)) && (s.clk.mgmt.cur = 1 || s.clk.reduced) then
    let s := updCfg s fun c => { c with boot := { c.boot with due := false } }
    let src := fldR s rBootCfg 17 16
    if s.clk.reduced || 2 ≤ src || s.cfg.load.isSome || jtagHolds s then waitForHost s
    else if src = 1 then
      let s := updCfg s fun c => { c with boot := { c.boot with running := true, waitHost := false, cands := [], attempt := some 0xFFFF } }
      beginLoad .port false false true s
    else
      let slot := fldR s rBootCfg 2 0
      let fb := if bitR s rBootCfg 11 then slotCopies s 0 (fldR s rBootCfg 10 8) else []
      let s := updCfg s fun c => { c with
        boot := { c.boot with running := true, waitHost := false, cands := slotCopies s 0 slot ++ fb, attempt := none } }
      bootContinue 6 s
  else s

/-- After a step of a load: a boot attempt that failed is followed by the next. -/
def afterLoad (s : Dev) : Dev := bootContinue 6 s

/-- IMAGE_SECTION, FRAME_RECORD and STARTUP_PLL_TIMEOUT; a boot attempt that fails at them is followed by the next (R210). -/
def sectionStep (s : Dev) : Dev := afterLoad (imageSection s)
def recordStep (items : List (List Setting)) (mismatches : Nat) (s : Dev) : Dev := afterLoad (frameRecord items mismatches s)
def startupTimeout (s : Dev) : Dev := afterLoad (startupPllTimeout s)

/-- LOAD_COMPLETE: a boot attempt goes on to start-up (R210, R213). -/
def doLoadComplete (s : Dev) : Dev :=
  match loadComplete s with
  | (some l, s) => if l.boot then startStartup false true false s else s
  | (none, s) => afterLoad s

/-! ## Health check (R216, R217) -/

/-- USER_OK for the user-OK inputs of the sectors. -/
def userOk (s : Dev) (inputs : BitVec 64) : Bool :=
  let en := (List.range 64).filter fun i => inService s i && userOkOf (items s i)
  !en.isEmpty && en.all fun i =>
    let st := (getSec s i).state
    (st = .active || st = .fenced) && inputs.getLsbD i

/-- The Bureau samples USER_OK; a running check passes where it is 1. -/
def healthSample (inputs : BitVec 64) (s : Dev) : Dev :=
  let ok := userOk s inputs
  let s := (List.range 64).foldl (fun s i =>
    if (getSec s i).userOk == inputs.getLsbD i then s else updSec s i fun x => { x with userOk := inputs.getLsbD i }) s
  let s := setR s rHealth 63 63 ok.toNat
  if ok && s.cfg.health.running then setR (stopHealth s) rHealth 62 62 1 else s

/-! ## STORE_WRITE and STORE_SELECT (R203, R204, R515) -/

/-- A copy at 10,000 writes is retired. -/
def copyRetired (c : StoreCopy) : Bool := 10000 ≤ max c.wear c.wearB

/-- Largest image of a slot in bytes (R201); Cabinet and lane-table slots as their chapters give them. -/
def slotLimit (area : Nat) : Nat := nth 0 [0x14000000, 0x5000000, 0x200000, 0x80000] area

/-- The copy holds the image that is active in a sector. -/
def copyActive (s : Dev) (k : Nat) : Bool :=
  k < 128 && (List.range 64).any fun i =>
    let d := activeDesc s i
    d.state = .active && copyHolds s d k

/-- A Cabinet slot copy holds the image of the active Cabinet leaf: refused whatever overwrite_active holds (R371). -/
def copyCabActive (s : Dev) (k : Nat) : Bool :=
  k / 64 = 2 && (match s.cab.active with | some l => copyHolds s (getLeaf s 64 l) k | none => false)

/-- A load reads the copy. -/
def copyBusy (s : Dev) (k : Nat) : Bool :=
  match s.cfg.load with
  | some l => l.copy = some k
  | none => match s.cab.run with
    | some ⟨_, .load slot copy, 1, _, _⟩ => k = copyKey 2 slot copy
    | _ => false

/-- Bytes of the image that STORE_WRITE writes: the length that the mailbox command names, where one runs. -/
def writeBytes (img : ImageWords) (s : Dev) : Nat :=
  match s.bureau.mbx.run with
  | some c => fld (nth 0 c.args 1) 31 0
  | none => 8 * img.length

/-- A copy as an image is written to it: its header names the image (R202). -/
def writtenCopy (img : ImageWords) (seq : Nat) (c : StoreCopy) : StoreCopy :=
  let ws := imgWords img
  { c with valid := true, seq, length := 8 * img.length, crc := crc32c (imgBytes img), imageId := hImageId ws
           version := fld (hword ws 2) 31 0, image := img }

/-- A repair that reads the copy of key `k` is under way (R249). -/
def repairReads (s : Dev) (k : Nat) : Bool :=
  s.cfg.scrub.waiting.any fun f => tGet (fun _ => none) s.cfg.repair (f / 2048) = some k

/-- STORE_WRITE with its refusals in order (R204), and the order of its steps (R203). It waits for a repair that reads the copy
(R249). -/
def storeWrite (area slot : Nat) (overwrite single : Bool) (img : ImageWords) (res : StoreOutcome) (s : Dev) : Dev :=
  let a := copyKey area slot 0
  let b := copyKey area slot 1
  let ca := getCopy s a
  let cb := getCopy s b
  let (old, new) := if newerIsB ca cb then (a, b) else if !ca.valid && !cb.valid then (a, b) else (b, a)
  let oldRetired := copyRetired (getCopy s old)
  let target := if oldRetired then new else old
  let answer := fun v s => mbxEndOp 0x0201 famStore v [] s
  if (oldRetired && !single) || (oldRetired && copyRetired (getCopy s new)) then answer 1 s
  else if (copyActive s target && !overwrite) || copyCabActive s target then answer 2 s
  else if slotLimit area < writeBytes img s then answer 3 s
  else if copyBusy s target then answer 4 s
  else if repairReads s target then s
  else
    let c := getCopy s target
    let worn : StoreCopy := { wear := c.wear + 1, wearB := c.wearB + 1 }
    let s := setCopy s target worn
    let s := updCfg s fun g => { g with repair := g.repair.filter fun e => e.2 ≠ some target }
    match res with
    | .ok => answer 0 (setCopy s target (writtenCopy img (max (copySeq ca) (copySeq cb) + 1) worn))
    | .verifyFails => answer 5 s
    | .sourceFails => answer 6 s
    | .interrupted => s

/-- STORE_SELECT writes the boot record, both copies. -/
def storeSelect (size : Nat) (s : Dev) : Dev :=
  let r : BootRecord :=
    { bootCfg := (getR s rBootCfg).toNat, refCfg := (getR s rRefCfg).toNat, startTarget := fldR s rTbClkCtrl 17 16, sizeLog2 := size % 64 }
  mbxEndOp 0x0202 famStore 0 [] (updCfg s fun c => { c with bootRecord := some r, bootRecordB := some r })

end Sys2Proof.Machine
end

