-- ==== Sys2Proof/Machine/Scrub.lean ====
section
/-! DEFINITION. The configuration scrubber (chapter 11). -/

namespace Sys2Proof.Machine

/-- Apply `f` to the scrubber's state. -/
def updScrub (s : Dev) (f : Scrub → Scrub) : Dev := updCfg s fun c => { c with scrub := f c.scrub }

/-- Add a key to a list that holds it at most once. -/
def addKey (k : Nat) (l : List Nat) : List Nat := if l.contains k then l else l ++ [k]

/-- Remove a key. -/
def dropKey (k : Nat) (l : List Nat) : List Nat := l.filter (· ≠ k)

/-- The scrubber runs (R243). -/
def scrubRuns (s : Dev) : Bool := s.cfg.done && bitR s rScrubCfg 63

/-- The scrubber that repairs frames of sector `i` runs: the Cabinet has its own (R368). -/
def repairRuns (s : Dev) (i : Nat) : Bool := if i = 64 then fabricLive s 64 else scrubRuns s

/-! ## The sequencer's three copies (R241) -/

/-- A number of each quadrant that is 0 at reset. -/
def zeroDflt : Nat → Nat := fun _ => 0

/-- Majority of three, bit by bit. -/
def majority (a b c : Nat) : Nat := (a &&& b) ||| (a &&& c) ||| (b &&& c)

/-- A copy's state for quadrant `q`: active position, inactive position, active slots since the last inactive one, SCRUB_CFG. -/
def seqOf (q : Nat) (x : ScrubCopy) : List Nat := [tGet zeroDflt x.pos q, tGet zeroDflt x.inPos q, tGet zeroDflt x.ratio q, x.cfg.toNat]

/-- A copy that holds `l` for quadrant `q`. -/
def seqPut (q : Nat) (l : List Nat) (x : ScrubCopy) : ScrubCopy :=
  { pos := tSet zeroDflt x.pos q (nth 0 l 0), inPos := tSet zeroDflt x.inPos q (nth 0 l 1), ratio := tSet zeroDflt x.ratio q (nth 0 l 2)
    cfg := BitVec.ofNat 64 (nth 0 l 3) }

/-- The three copies; the first takes SCRUB_CFG from the register. -/
def scrubCopies (s : Dev) : List ScrubCopy :=
  let c := s.cfg.scrub
  [{ pos := c.pos, inPos := c.inPos, ratio := c.ratio, cfg := getR s rScrubCfg }, c.second, c.third]

/-- Every copy holds `l` for quadrant `q`. -/
def seqWrite (q : Nat) (l : List Nat) (s : Dev) : Dev :=
  updScrub s fun c =>
    let a := seqPut q l { pos := c.pos, inPos := c.inPos, ratio := c.ratio }
    { c with pos := a.pos, inPos := a.inPos, ratio := a.ratio, second := seqPut q l c.second, third := seqPut q l c.third }

/-- SCRUB_CFG, or a voted value of it, in every copy. -/
def seqConfig (w : Word) (s : Dev) : Dev :=
  updScrub (putR s rScrubCfg w) fun c => { c with second := { c.second with cfg := w }, third := { c.third with cfg := w } }

/-- The vote over the copies for quadrant `q`: `flips` are bits of a copy's values that have been upset since the vote before (copy,
value, bit). Copies that disagree with the majority are overwritten and counted. SCRUB_CFG is not the Cabinet sequencer's. -/
def scrubVote (q : Nat) (flips : List (Fin 3 × Fin 4 × Fin 64)) (s : Dev) : Dev :=
  let parts := if q = 4 then 3 else 4
  let seen := (scrubCopies s).zipIdx.map fun x =>
    ((flips.filter fun f => f.1.val = x.2 && f.2.1.val < parts).foldl (fun l f => updNth l f.2.1.val (· ^^^ 2 ^ f.2.2.val)) (seqOf q x.1)).take parts
  let v := (List.range parts).map fun k => majority (nth 0 (nth [] seen 0) k) (nth 0 (nth [] seen 1) k) (nth 0 (nth [] seen 2) k)
  let wrong := (seen.filter (· ≠ v)).length
  if wrong = 0 then s
  else if q = 4 then seqWrite q (v ++ [(getR s rScrubCfg).toNat]) s
  else incR (seqConfig (BitVec.ofNat 64 (nth 0 v 3)) (seqWrite q v s)) rScrubStatus 47 32 wrong

/-- Effective inactive_ratio (R252). -/
def effRatio (s : Dev) : Nat := max 4 (fldR s rScrubCfg 39 32)

/-- A sector whose active leaf is scrubbed at the active rate. -/
def scrubActiveState (st : SecState) : Bool := st = .active || st = .fenced || st = .resetting

/-- Sector `i` belongs to a commit set that has not reached event 6. -/
def inCommit (s : Dev) (i : Nat) : Bool :=
  match s.cfg.commit with
  | some c => c.event < 6 && c.set.contains i
  | none => false

/-- The leaves of sector `i` that an active or an inactive slot reads (R243). -/
def slotLeaves (s : Dev) (i : Nat) (inactive : Bool) : List Nat :=
  let st := (getSec s i).state
  let a := activeLeaf s i
  let fit := fun l => let d := (getLeaf s i l).state; d = .sealed || d = .retired || d = .active
  if !inService s i || inCommit s i then []
  else if inactive then
    (if st = .offRetained then [0, 1].filter fit
     else [1 - a].filter fun l => (getLeaf s i l).state = .sealed || (getLeaf s i l).state = .retired)
  else if scrubActiveState st && (getLeaf s i a).state = .active then [a] else []

/-- A leaf is handled as an active one under R248. -/
def countsActive (s : Dev) (i l : Nat) : Bool := scrubActiveState (getSec s i).state && activeLeaf s i = l

/-- Count in SCRUB_COUNTS; the Cabinet scrubber has no such register (R368). -/
def scrubCount (k hi lo : Nat) (s : Dev) : Dev := if k / 4096 = 64 then s else incR s rScrubCounts hi lo 1

/-- Address of a frame as images and records name it (R164, R367). -/
def frameAddr (i f : Nat) : Nat := if i = 64 then f else i * 2048 + f

/-- The frame at key `k` has been restored: damaged is cleared with the last unrestored frame of the leaf (R248). -/
def restored (k : Nat) (s : Dev) : Dev :=
  let s := updScrub s fun c => { c with unrestored := dropKey k c.unrestored, waiting := dropKey k c.waiting }
  let lf := k / 2048
  if s.cfg.scrub.unrestored.any (fun j => j / 2048 = lf) then s
  else updLeaf s (lf / 2) (lf % 2) fun d => { d with damaged := false }

/-- The outcome unrestored (R248) with its kind. -/
def unrestored (k kind : Nat) (s : Dev) : Dev :=
  let s := updScrub s fun c => { c with waiting := dropKey k c.waiting }
  if s.cfg.scrub.unrestored.contains k then s
  else
    let i := k / 4096
    let l := k / 2048 % 2
    let addr := frameAddr i (k % 2048)
    let s := scrubCount k 15 0 (updScrub s fun c => { c with unrestored := addKey k c.unrestored })
    if i = 64 then
      if countsActive s i l then
        raiseC (updLeaf s i l fun d => { d with damaged := true }) 2 (l * 2 ^ 9 + addr)
      else updLeaf s i l fun d => { d with unavail := true }
    else
    let s := if bitR s rScrubFirst 63 then s
      else putR s rScrubFirst (BitVec.ofNat 64 (2 ^ 63 + l * 2 ^ 62 + kind * 2 ^ 60 + addr))
    let detail := l * 2 ^ 63 + kind * 2 ^ 61 + addr
    if countsActive s i l then
      raiseS (updLeaf s i l fun d => { d with damaged := true }) fltScrubDamaged detail i
    else raiseS (updLeaf s i l fun d => { d with unavail := true }) fltScrubUnavail detail i

/-- Write a content that the ledger describes: the frame configures again what was written (R242, R62). -/
def restoreFrame (k : Nat) (content : List Word) (s : Dev) : Dev :=
  let fr := tGet frameDflt s.cfg.frames k
  let words := ((List.range 384).zip content).foldl (fun t e => tSet (fun _ => 0) t e.1 e.2) []
  evalSectorBundles (k / 4096) <|
    restored k (updCfg s fun c => { c with frames := tSet frameDflt c.frames k { fr with words, meaning := fr.written } })

/-- `ws` with bit `b` inverted. -/
def flipBit (ws : List Word) (b : Nat) : List Word := updNth ws (b / 64) fun w => w ^^^ BitVec.ofNat 64 (2 ^ (b % 64))

/-- Check a frame against a usable ledger entry (R246, rows 2 to 4). The corrected frame is written with the write-and-verify of R167;
where the second read-back differs too, the frame is handled as MULTI (R240; DESIGN CHOICE, assumption 139). -/
def checkFrame (k : Nat) (entry : Word) (verifyFails : Bool) (s : Dev) : Dev :=
  let ws := frameWords (tGet frameDflt s.cfg.frames k).words
  let crc := crc32c (wordBytes ws)
  let syn := frameSyndrome ws
  let par := frameParity ws
  let d := syn ^^^ fld entry 31 17
  let multi := fun s => updScrub s fun c => { c with waiting := addKey k c.waiting }
  if crc = fld entry 63 32 && d = 0 && par == bit entry 16 then
    (if s.cfg.scrub.unrestored.contains k then restored k s else s)
  else if par != bit entry 16 && 1 ≤ d && d ≤ 24576 then
    let ws' := flipBit ws (d - 1)
    if crc32c (wordBytes ws') = fld entry 63 32 && !verifyFails then scrubCount k 63 48 (restoreFrame k ws' s) else multi s
  else multi s

/-- A scrub slot reads the frame of key `k` (R246). -/
def scrubFrame (verifyFails : Bool) (k : Nat) (s : Dev) : Dev :=
  if s.cfg.scrub.waiting.contains k then s
  else
    let w := getLedger s k
    let d := decodeWord w
    let s := if k / 4096 = 64 then s else loaderNote s w
    let seq := (getLeaf s (k / 4096) (k / 2048 % 2)).seq
    if d.outcome = .uncorrectable || fld d.data 15 0 ≠ seq % 2 ^ 16 || s.cfg.scrub.scheduled.contains k then
      updScrub s fun c => { c with scheduled := addKey k c.scheduled, waiting := addKey k c.waiting }
    else checkFrame k d.data verifyFails s

/-- A scrub slot of quadrant `q` comes due (R244). -/
def scrubSlotMain (q : Nat) (verifyFails : Bool) (s : Dev) : Dev :=
  if !scrubRuns s then s
  else
    let c := s.cfg.scrub
    let p := tGet zeroDflt c.pos q
    let ip := tGet zeroDflt c.inPos q
    let n := tGet zeroDflt c.ratio q
    let cfg := (getR s rScrubCfg).toNat
    let visit := fun inactive p s =>
      (slotLeaves s (16 * q + p / 1536) inactive).foldl (fun s l => scrubFrame verifyFails (frameKey (16 * q + p / 1536) l (p % 1536)) s) s
    if effRatio s ≤ n then visit true ip (seqWrite q [p, (ip + 1) % 24576, 0, cfg] s)
    else
      let s := visit false p (seqWrite q [(p + 1) % 24576, ip, n + 1, cfg] s)
      if q = 0 && p = 24575 then incR s rScrubStatus 31 0 1 else s

/-- A slot of the Cabinet scrubber (R368): the active pass of 512 frames, with one inactive slot for every four active ones. -/
def scrubSlotCab (verifyFails : Bool) (s : Dev) : Dev :=
  if !fabricLive s 64 || s.cab.quiet then s
  else
    let c := s.cfg.scrub
    let p := tGet zeroDflt c.pos 4
    let ip := tGet zeroDflt c.inPos 4
    let n := tGet zeroDflt c.ratio 4
    let cfg := (getR s rScrubCfg).toNat
    let a := activeLeaf s 64
    if 4 ≤ n then
      let s := seqWrite 4 [p, (ip + 1) % 512, 0, cfg] s
      let st := (getLeaf s 64 (1 - a)).state
      if st = .sealed || st = .retired then scrubFrame verifyFails (frameKey 64 (1 - a) ip) s else s
    else scrubFrame verifyFails (frameKey 64 a p) (seqWrite 4 [(p + 1) % 512, ip, n + 1, cfg] s)

/-- A scrub slot of quadrant `q`, or of the Cabinet for `q` = 4, comes due; the vote of R241 precedes it. `verifyFails`: a correction
that the slot writes differs at both read-backs. -/
def scrubSlot (q : Nat) (flips : List (Fin 3 × Fin 4 × Fin 64)) (verifyFails : Bool) (s : Dev) : Dev :=
  let s := scrubVote q flips s
  if q = 4 then scrubSlotCab verifyFails s else scrubSlotMain q verifyFails s

/-! ## Repair sources (R247, R250) -/

/-- What is found for a frame: its content, no source, or a source that does not give it. -/
inductive SourceFrame where
  | noSource
  | bad
  | content (ws : List Word)
  deriving DecidableEq, Repr

/-- The content of the record at word `pos` of section `n` of an image, which must carry the frame address and pass its frame_crc. The
section's tag is not checked again. -/
def recordFrame (s : Dev) (img : ImageWords) (addr n pos : Nat) : SourceFrame :=
  let ws := imgWords img
  match (sectionTable ws)[n]? with
  | none => .bad
  | some e =>
    match parseRecord ((plainSection img ((imageKey s (hKeySlot ws)).getD []) n e).drop pos) with
    | none => .bad
    | some r => if !r.addrs.contains addr || r.poisoned || crc32c (wordBytes r.content) ≠ r.crc then .bad else .content r.content

/-- The repair source for the frame of key `k`: the leaf's, which at a retry is looked for again (R247 to R249). -/
def sourceCopy (k : Nat) (s : Dev) : Option Nat :=
  let lf := k / 2048
  let had := tGet (fun _ => none) s.cfg.repair lf
  let d := getLeaf s (lf / 2) (lf % 2)
  if !s.cfg.scrub.unrestored.contains k then had
  else if lf / 2 = 64 then (had.toList ++ (List.range 4).map (copyKey 2 0 0 + ·)).find? (copyHolds s d)
  else findRepair s had d

/-- What a repair finds for the frame of key `k`, by the leaf's index (R247): zero content where the image does not carry it. -/
def repairContent (k : Nat) (s : Dev) : SourceFrame :=
  let i := k / 4096
  let x := decodeWord (tGet (fun _ => 0) s.cfg.index k)
  if x.outcome ≠ .uncorrectable && !bit x.data 63 then .content (List.replicate 384 0)
  else match sourceCopy k s with
    | none => .noSource
    | some c =>
      if x.outcome = .uncorrectable then .noSource
      else recordFrame s (getCopy s c).image (frameAddr i (k % 2048)) (fld x.data 62 48) (fld x.data 47 0)

/-- The source that a retry found is the leaf's source from now on. -/
def noteSource (k : Nat) (s : Dev) : Dev :=
  let src := sourceCopy k s
  updCfg s fun c => { c with repair := tSet (fun _ => none) c.repair (k / 2048) src }

/-- The store read for a MULTI frame returns (R247); `verifyFails` where the frame does not take the content. -/
def storeRepair (i l f : Nat) (verifyFails : Bool) (s : Dev) : Dev :=
  let k := frameKey i l f
  if !repairRuns s i || !s.cfg.scrub.waiting.contains k || s.cfg.scrub.scheduled.contains k then s
  else
    let found := repairContent k s
    let s := noteSource k s
    match found with
    | .noSource => unrestored k 0 s
    | .bad => unrestored k 1 s
    | .content ws =>
      let e := (decodeWord (getLedger s k)).data
      if ledgerOf ws (fld e 15 0) ≠ e || verifyFails then unrestored k 1 s
      else scrubCount k 47 32 (restoreFrame k ws s)

/-- A LEDGER-class entry is recomputed and the frame checked again (R250). -/
def ledgerRecompute (i l f : Nat) (verifyFails : Bool) (s : Dev) : Dev :=
  let k := frameKey i l f
  if !repairRuns s i || !s.cfg.scrub.waiting.contains k || !s.cfg.scrub.scheduled.contains k then s
  else
    let found := repairContent k s
    let s := noteSource k (updScrub s fun c => { c with waiting := dropKey k c.waiting })
    match found with
    | .content ws =>
      let e := ledgerOf ws (getLeaf s i l).seq
      let s := scrubCount k 31 16 (setLedger s k (encodeWord e false))
      checkFrame k e verifyFails (updScrub s fun c => { c with scheduled := dropKey k c.scheduled })
    | _ => unrestored k 2 s

/-- SCRUB_CFG.cnt_clr: every count is 0, or 1 where it increments in the same cycle (R252, R44). -/
def scrubCountsClear (inc : BitVec 4) (s : Dev) : Dev :=
  (List.range 4).foldl (fun s n => clrCount s rScrubCounts (16 * n + 15) (16 * n) (inc.getLsbD n)) s

end Sys2Proof.Machine
end

