-- ==== Sys2Proof/Machine/Cabinet.lean ====
section
/-! DEFINITION. The Cabinet (chapter 16): sealed images, tokens, the audit trail, changes, start-up, clocks. Frames, ledger, leaf
states and fabric are those of sector 64. -/

namespace Sys2Proof.Machine

/-- Digest of the active image, or 0. -/
def activeDigest (s : Dev) : Nat :=
  match s.cab.active with
  | some l => (nth {} s.cab.leaves l).digest
  | none => 0

/-- Bytes 0 to 5 of a digest, byte 0 lowest (R376). -/
def prefix6 (d : Nat) : Nat := d % 2 ^ 48

/-- The active Cabinet leaf is marked damaged (R368). -/
def cabDamaged (s : Dev) : Bool :=
  match s.cab.active with
  | some l => (getLeaf s 64 l).damaged
  | none => false

/-! ## The audit trail (R375 to R381) -/

/-- An audit record (R376). -/
def auditRecord (counter event subject time oldP newP : Nat) : List Word :=
  let w0 := BitVec.ofNat 64 (subject % 2 ^ 24 * 2 ^ 40 + event * 2 ^ 32 + counter)
  let w1 := BitVec.ofNat 64 time
  let w2 := BitVec.ofNat 64 (oldP % 2 ^ 48 * 2 ^ 16 + time / 2 ^ 64 % 2 ^ 16)
  let w3 := newP % 2 ^ 48
  let crc := crc16 ((wordBytes [w0, w1, w2, BitVec.ofNat 64 w3]).take 30)
  [w0, w1, w2, BitVec.ofNat 64 (crc * 2 ^ 48 + w3)]

/-- Counter of the record at a position, where its CRC holds and its position fits its counter (R378). -/
def recordCounter (pos : Nat) (r : List Word) : Option Nat :=
  let c := fld (nth 0 r 0) 31 0
  if r.length = 4 && 1 ≤ c && (c - 1) % 1024 = pos && crc16 ((wordBytes r).take 30) = fld (nth 0 r 3) 63 48 then some c else none

/-- 1,024 records are unexported (R379). -/
def logIsFull (s : Dev) : Bool := s.cab.e + 1024 ≤ s.cab.c

/-- Position that the next record takes. -/
def nextPos (s : Dev) : Nat := s.cab.c % 1024

/-- A position of ring A has reached 10,000 writes (R379). -/
def ringWorn (s : Dev) : Bool := s.cab.audit.wear.any fun e => 10000 ≤ e.2

/-- Ring A takes no further record: it is worn, or C is at its end (R379). -/
def logWorn (s : Dev) : Bool := ringWorn s || s.cab.c = 2 ^ 32 - 1

/-- Write a record to ring A; where it verifies it counts, and its copy in ring B is due with those that failed (R378). -/
def putRecord (event subject oldP newP : Nat) (s : Dev) : Dev :=
  let n := s.cab.c + 1
  let p := nextPos s
  let r := auditRecord n event subject s.cab.time oldP newP
  updCab s fun c => { c with
    c := n
    audit := { c.audit with ringA := tSet (fun _ => []) c.audit.ringA p r, wear := tUpd (fun _ => 0) c.audit.wear p (· + 1) }
    onDie := tSet (fun _ => []) c.onDie p r
    ringBDue := c.ringBDue ++ c.ringBFail ++ [n]
    ringBFail := [] }

/-- A write to ring A that does not verify. -/
def spoilRecord (s : Dev) : Dev :=
  updCab s fun c => { c with audit := { c.audit with
    ringA := tSet (fun _ => []) c.audit.ringA (nextPos s) [], wear := tUpd (fun _ => 0) c.audit.wear (nextPos s) (· + 1) } }

/-- An observed event is written, or counted as lost (R380). -/
def observed (event subject newP : Nat) (logOk : Bool) (s : Dev) : Dev :=
  if s.cab.state ≠ .start && !logIsFull s && !logWorn s && mainUp s then
    if logOk then putRecord event subject 0 newP s
    else updCab (spoilRecord s) fun c => { c with lostObserved := satAdd 16 c.lostObserved 1 }
  else updCab s fun c => { c with lostObserved := satAdd 16 c.lostObserved 1 }

/-- A position at 10,000 writes sets log_fault for good (R379). -/
def noteWear (s : Dev) : Dev :=
  if ringWorn s then updCab s fun c => { c with logFault := true } else s

/-- FLT_CAB_LOG_FULL is raised once while the log is full (R379). -/
def noteFull (s : Dev) : Dev :=
  if s.cab.fullRaised then s
  else raiseC (updCab s fun c => { c with fullRaised := true }) 3 (s.cab.c % 2 ^ 32 * 2 ^ 32 + s.cab.e % 2 ^ 32)

/-! ## Ends of a command (R382, R392) -/

/-- Codes of R382. -/
def cabOk : Nat := 0x00
def cabBusy : Nat := 0x01
def cabOpcode : Nat := 0x02
def cabStore : Nat := 0x03
def cabLogFull : Nat := 0x04
def cabLogWrite : Nat := 0x05
def cabImage : Nat := 0x06
def cabSignature : Nat := 0x07
def cabUnits : Nat := 0x08
def cabNoPredecessor : Nat := 0x09
def cabNoSource : Nat := 0x0A
def cabToken : Nat := 0x0B
def cabEntry : Nat := 0x0C
def cabLastKey : Nat := 0x0D
def cabExport : Nat := 0x0E
def cabErrState : Nat := 0x0F

/-- Mailbox opcode of a Cabinet command. -/
def cabMbxOp (op : Nat) : Nat := if op = 0x10 then 0x0501 else if op = 0x11 then 0x0502 else 0x0504

/-- CMD_STATUS after a command, and the response of a mailbox command that issued it. -/
def cabResult (op code detail record : Nat) (mailbox : Bool) (s : Dev) : Dev :=
  let s := updCab s fun c => { c with result := code, detail, lastOpcode := op, record }
  if mailbox then
    mbxEndOp (cabMbxOp op) famCab code [BitVec.ofNat 64 (record * 2 ^ 32 + detail)] s
  else s

/-- A command is refused (R382). -/
def cabRefuse (op code detail : Nat) (mailbox : Bool) (s : Dev) : Dev :=
  raiseC (cabResult op code detail 0 mailbox s) 6 (op * 2 ^ 8 + code)

/-- The running command ends with a code other than CAB_OK. -/
def cabFail (code detail : Nat) (s : Dev) : Dev :=
  match s.cab.run with
  | none => s
  | some r => cabRefuse r.opcode code detail r.mailbox (updCab s fun c => { c with run := none })

/-- The running command ends with a code after its record has counted. -/
def cabEnd (code : Nat) (s : Dev) : Dev :=
  match s.cab.run with
  | none => s
  | some r => cabResult r.opcode code 0 s.cab.record r.mailbox (updCab s fun c => { c with run := none })

/-- The running command ends with CAB_OK, its record being the last one. -/
def cabDone (s : Dev) : Dev := cabEnd cabOk s

/-- A LOADING leaf of the Cabinet becomes ABORTED. -/
def cabAbortLeaf (s : Dev) : Dev :=
  updLeaf s 64 (otherLeaf s 64) fun d => if d.state = .loading then { d with state := .aborted } else d

/-! ## Sealed images (R369, R370) -/

/-- Effective scrub_ms. -/
def effScrubMs (v : Nat) : Nat := min (max v 20) 1000

/-- The fields of a CAB_DECL section. -/
def declOf (ws : List Word) : CabDecl :=
  let w0 := nth 0 ws 0
  let w1 := nth 0 ws 1
  { reqTiles := fld w0 47 24, srcTiles := fld w0 23 0, cxoKhz := fld w1 63 40, cxoTol := fld w1 39 32, returnHold := fld w1 31 24
    returnMode := fld w1 18 18, startTarget := fld w1 17 16, scrubMs := effScrubMs (fld w1 15 0) }

/-- Its reserved bits are 0. -/
def declReservedOk (ws : List Word) : Bool :=
  fld (nth 0 ws 0) 63 48 = 0 && fld (nth 0 ws 1) 23 19 = 0 && (ws.drop 2).all (· = 0)

/-- The CAB_DECL section of an image. -/
def declSection (img : ImageWords) : Option (List Word) :=
  ((sectionTable (imgWords img)).find? fun e => e.kind = 6).map fun e => imgWords (sectionWords img e)

/-- What an image declares. -/
def imageDecl (img : ImageWords) : CabDecl := ((declSection img).map declOf).getD {}

/-- The header of a sealed image. -/
def sealedHeaderOk (h : List Word) : Bool :=
  headerOk h false && !hEncrypted h && hMask h = 0 && fld (hword h 4) 42 16 = 0 && !bit (hword h 4) 43 && hRegion h = 0 &&
    hBaseId h = 0 && hword h 6 = 0 && fld (hword h 9) 39 0 = 0

/-- The section table of a sealed image: one or more FRAMES, exactly one CAB_DECL, SIGNATURE last. -/
def sealedTableOk (img : List Word) : Bool :=
  let es := sectionTable img
  let n := hSections img
  let len := hLength img
  let count := fun k => (es.filter fun e => e.kind = k).length
  1 ≤ n && n ≤ 64 && hTable img % 8 = 0 && 128 ≤ hTable img && len % 8 = 0 && 32 ≤ len &&
  partsInOrder (len - 32) (hTable img + 16 * n) es && tableReservedOk img &&
  1 ≤ count 1 && count 6 = 1 && count 5 = 1 && (es.getLast?.map (·.kind)) = some 5 &&
  es.all (fun e => (e.kind = 1 || e.kind = 5 || e.kind = 6) && !e.encrypted &&
    (e.kind ≠ 5 || e.length = 192) && (e.kind ≠ 6 || e.length = 64))

/-- The records of a FRAMES section in order: address and content of every frame, or the load error that stops them. -/
def sealedRecords : Nat → List Nat → ImageWords → Except Nat (List (Nat × List Word))
  | 0, _, _ => .error errToken
  | _ + 1, _, [] => .ok []
  | fuel + 1, seen, ws =>
    if recordPoisoned ws then .error errPoison
    else match parseRecord ws with
      | none => .error errToken
      | some r =>
        if r.addrs.any fun a => 512 ≤ a || seen.contains a || (r.addrs.filter (· = a)).length ≠ 1 then .error errAddress
        else if crc32c (wordBytes r.content) ≠ r.crc then .error errFrameCrc
        else match sealedRecords fuel (seen ++ r.addrs) (ws.drop r.used) with
          | .ok l => .ok (r.addrs.map (fun a => (a, r.content)) ++ l)
          | .error e => .error e

/-- The frames of an image. -/
def sealedFrames (img : ImageWords) : Except Nat (List (Nat × List Word)) :=
  ((sectionTable (imgWords img)).filter fun e => e.kind = 1).foldl (fun acc e =>
    match acc with
    | .error c => .error c
    | .ok l =>
      let ws := sectionWords img e
      match sealedRecords (ws.length + 1) (l.map (·.1)) ws with
      | .ok m => .ok (l ++ m)
      | .error c => .error c) (.ok [])

/-- CRC-64 of the 512 frames of a leaf (R193). -/
def sealedStream (l : List (Nat × List Word)) : Nat :=
  crc64Frames 0 512 ((List.range 512).filterMap fun f =>
    (l.find? (·.1 = f)).map fun e => (f, (e.2.zipIdx.filter (·.1 ≠ 0)).map fun x => (x.2, x.1)))

/-- What the store delivers of a copy: no bytes where its image does not fit its header (R202, assumption 138). -/
def copyImage (c : StoreCopy) : ImageWords := if copyFits c then c.image else []

/-- The first check of R198, under R369, that an image fails; 0 where none does. `verifyFails`: a frame does not read back. -/
def sealedError (s : Dev) (img : ImageWords) (verifyFails : Bool) : Nat :=
  let ws := imgWords img
  let h := ws.take 16
  if img.isEmpty then errSize
  else if img.any (·.2) then errPoison
  else if !sealedHeaderOk h then errHeader
  else if fld (hword h 2) 47 32 ≠ 0x1261 then errPart
  else if 0x200000 < hLength h || hLength h ≠ 8 * img.length then errSize
  else if !sealedTableOk ws then errSection
  else if !hSigned h then errUnsigned
  else if seqExhausted s 64 then errSequence
  else if !declReservedOk ((declSection img).getD []) ||
      ((sectionTable ws).any fun e => e.kind = 6 && crc32c (imgBytes (sectionWords img e)) ≠ e.crc) then errSection
  else match sealedFrames img with
    | .error c => c
    | .ok l =>
      if verifyFails then errVerify
      else if !trailerOk ws || (nth 0 (trailer ws) 2).toNat ≠ l.length || (nth 0 (trailer ws) 1).toNat ≠ sealedStream l then errStream
      else 0

def sealDflt : Nat → SealEntry := fun _ => {}

/-- Entry `k` of the Cabinet one-time memory. -/
def sealEntry (s : Dev) (k : Nat) : SealEntry := tGet sealDflt s.cab.otp k

/-- SHA-384 of a public key, as a number. -/
def keyHash (pub : List Nat) : Nat := ofLe (sha384 pub)

/-- The entry that matches a key in a role: bit 0 SEAL, bit 1 EXPORT (R372). -/
def matchEntry (s : Dev) (pub : List Nat) (role : Nat) : Option Nat :=
  (List.range 4).find? fun k =>
    let x := sealEntry s k
    x.programmed && !x.revoked && x.hash = keyHash pub && x.role.testBit role

/-- The entry that signed a sealed image, where its signature verifies (R369). -/
def sealedSigner (s : Dev) (img : ImageWords) : Option Nat :=
  match (sectionTable (imgWords img)).find? fun e => e.kind = 5 with
  | none => none
  | some e =>
    let b := imgBytes (sectionWords img e)
    let pub := b.take 96
    if ecdsaVerify pub (imageDigest (imgWords img)) (b.drop 96) then matchEntry s pub 0 else none

/-- A tile that `mask` requires is out of service. -/
def tilesMissing (s : Dev) (mask : Nat) : Bool := (bitsOf 24 mask).any fun t => (getTile s t).out

/-- A leaf starts to take an image (R383 event 1). -/
def cabOpenLeaf (img : ImageWords) (s : Dev) : Dev :=
  let ws := imgWords img
  openLeaf { source := .store, copy := none, image := img, isPartial := false, region := 0, header := ws.take 16, sections := [] }
    (digestPrefix ws) s 64

/-- The frames of an image go into the leaf, each configuring what `items` says (R185). -/
def cabWriteFrames (frames : List (Nat × List Word)) (items : List (List Setting)) (s : Dev) : Dev :=
  let lf := otherLeaf s 64
  let seq := (getLeaf s 64 lf).seq
  (frames.zipIdx).foldl (fun s x =>
    let words := ((List.range 384).zip x.1.2).foldl (fun t e => tSet (fun _ => 0) t e.1 e.2) []
    let it := nth [] items x.2
    setLedger (setFrame s 64 lf x.1.1 { words, meaning := it, written := it }) (frameKey 64 lf x.1.1)
      (encodeWord (ledgerOf x.1.2 seq) false)) s

/-- The leaf becomes SEALED with the facts of its image. -/
def cabSeal (img : ImageWords) (signer : Nat) (copy : Option Nat) (s : Dev) : Dev :=
  let ws := imgWords img
  let lf := otherLeaf s 64
  let s := updLeaf s 64 lf fun d => { d with state := .sealed }
  let starts := (sectionTable ws).zipIdx.flatMap fun e =>
    let p := sectionWords img e.1
    if e.1.kind = 1 then recordStarts e.2 (p.length + 1) 0 p else []
  let l : Load :=
    { source := .store, copy, image := img, isPartial := false, region := 0, header := ws.take 16, sections := [], leaves := [(64, lf)]
      index := starts.map fun e => (64 * 2048 + e.1, e.2) }
  let s := updCfg s fun c => { c with repair := tSet (fun _ => none) c.repair (128 + lf) copy, index := leafIndex l c.index }
  updCab s fun c => { c with leaves := updNth c.leaves lf fun _ =>
    { digest := ofLe (imageDigest ws), version := fld (hword ws 2) 31 0, signer, decl := imageDecl img } }

/-- The commit strobe of the Cabinet (R383 event 6; R176, R107). Results are cleared with written 0. -/
def cabCommit (s : Dev) : Dev :=
  let o := activeLeaf s 64
  let old := items s 64
  let new := leafItems s 64 (1 - o)
  let first := s.cab.active.isNone
  let s := updLeaf s 64 o fun d =>
    if d.state = .active then { d with state := .retired, unavail := d.unavail || d.damaged } else d
  let s := updLeaf s 64 (1 - o) fun d => { d with state := .active }
  let s := updCfg s fun c => { c with active := tSet (fun _ => 0) c.active 64 (1 - o) }
  let s := updSec s 64 (contentsStrobe old new)
  let s := if first then
      let s := updSec s 64 fun x => { x with state := .active, vcc := true, cfgPower := true, gsr := false, clocks := true, ffs := initFfs new }
      startInit true s 64
    else s
  let s := updCab s fun c => { c with
    active := some (1 - o), state := .running, value0 := [], value1 := [], status0 := [], status1 := [] }
  if first then finishInit s 64 else s

/-! ## Commands (R382, R383, R385) -/

/-- The checks that every command shares up to the log: 0 where they pass. `change`: R379 applies; `noImageOk`: the command is
accepted in NO_IMAGE. -/
def cabCheck (change noImageOk : Bool) (s : Dev) : Nat :=
  if s.cab.run.isSome || s.cab.state = .start then cabBusy
  else if !noImageOk && s.cab.state = .noImage then cabErrState
  else if change && logIsFull s then cabLogFull
  else if change && logWorn s then cabLogWrite
  else if !mainUp s then cabStore
  else 0

/-- Refuse with the effects of R379. -/
def cabRefuseLog (op code : Nat) (mailbox : Bool) (s : Dev) : Dev :=
  let s := if code = cabLogFull then noteFull s else if code = cabLogWrite then noteWear s else s
  cabRefuse op code 0 mailbox s

/-- SEALED_LOAD (R383 event 1). req_tiles is checked before the leaf is touched. -/
def sealedLoad (slot copy : Nat) (newest mailbox : Bool) (s : Dev) : Dev :=
  match cabCheck true true s with
  | 0 =>
    let k := if newest then (slotCopies s 2 slot).head? else some (copyKey 2 slot copy)
    match k.filter fun k => (getCopy s k).valid with
    | none => cabRefuse 0x10 cabStore 0 mailbox s
    | some k =>
      let img := copyImage (getCopy s k)
      if tilesMissing s (imageDecl img).reqTiles then cabRefuse 0x10 cabUnits 0 mailbox s
      else
        let run : CabRun := { opcode := 0x10, change := .load slot (k % 2), event := 1, image := img, mailbox }
        updCab (cabOpenLeaf img s) fun c => { c with run := some run, record := 0 }
  | e => cabRefuseLog 0x10 e mailbox s

/-- Set the event of the running command. -/
def cabEvent (n : Nat) (s : Dev) : Dev := updCab s fun c => { c with run := c.run.map fun r => { r with event := n } }

/-- Events 2 and 3: the frames are written, the image's checks run, and the leaf becomes SEALED or ABORTED. -/
def cabLoadChecked (items : List (List Setting)) (verifyFails : Bool) (s : Dev) : Dev :=
  match s.cab.run with
  | some r =>
    match r.change with
    | .load slot copy =>
      if r.event ≠ 1 then s
      else
        let s := match sealedFrames r.image with
          | .ok l => cabWriteFrames l items s
          | .error _ => s
        match sealedError s r.image verifyFails with
        | 0 =>
          match sealedSigner s r.image with
          | none => cabFail cabSignature 0 (cabAbortLeaf s)
          | some k =>
            if tilesMissing s (imageDecl r.image).reqTiles then cabFail cabUnits 0 (cabAbortLeaf s)
            else cabEvent 3 (cabSeal r.image k (some (copyKey 2 slot copy)) s)
        | e => cabFail cabImage e (cabAbortLeaf s)
    | _ => s
  | none => s

/-- ROLLBACK (R385). -/
def cabRollback (mailbox : Bool) (s : Dev) : Dev :=
  match cabCheck true false s with
  | 0 =>
    let o := otherLeaf s 64
    let d := getLeaf s 64 o
    let x := nth {} s.cab.leaves o
    let a := getLeaf s 64 (activeLeaf s 64)
    let fail := fun c => cabRefuse 0x11 c 0 mailbox s
    if d.state ≠ .retired || a.seq ≤ d.seq then fail cabNoPredecessor
    else if d.unavail || !((List.range 4).any fun n =>
        let c := getCopy s (copyKey 2 0 n)
        c.valid && ofLe (imageDigest (imgWords c.image)) = x.digest) then fail cabNoSource
    else if tilesMissing s x.decl.reqTiles then fail cabUnits
    else if (sealEntry s x.signer).revoked then fail cabSignature
    else updCab s fun c => { c with run := some { opcode := 0x11, change := .rollback, event := 3, mailbox }, record := 0 }
  | e => cabRefuseLog 0x11 e mailbox s

/-! ## Tokens (R373, R374) -/

/-- The first bytes of the staging buffer. -/
def stagingBytes (s : Dev) (n : Nat) : List Nat :=
  (wordBytes ((List.range ((n + 7) / 8)).map fun w => tGet (fun _ => 0) s.cab.staging w)).take n

/-- Bytes [from, to). -/
def slice (a b : Nat) (l : List Nat) : List Nat := (l.drop a).take (b - a)

/-- A token's parts. -/
structure Token where
  kind : Nat
  headOk : Bool
  counter : Nat
  arg : Nat
  value : Nat
  signer : List Nat
  sigOk : Bool
  block : List Nat
  deriving DecidableEq, Repr

/-- Read the token in the staging buffer. -/
def tokenOf (s : Dev) : Token :=
  let b := stagingBytes s 4360
  let signer := slice 72 168 b
  let kind := nth 0 b 4
  let arg := ofLe (slice 20 24 b)
  let argOk := if kind = 1 then fldNat arg 31 10 = 0 && fldNat arg 7 2 = 0 else if kind = 2 then fldNat arg 31 2 = 0 else arg = 0
  { kind, headOk := ofLe (slice 0 4 b) = 0x4E4B5443 && ofLe (slice 5 8 b) = 0 && ofLe (slice 8 16 b) = s.cab.id.toNat && argOk
    counter := ofLe (slice 16 20 b), arg, value := ofLe (slice 24 72 b), signer
    sigOk := ecdsaVerify signer (sha384 (b.take 168)) (slice 168 264 b), block := slice 264 4360 b }
where
  /-- Bits of a number. -/
  fldNat (v hi lo : Nat) : Nat := nbits v hi lo

/-- The signer may make the change of a token of type 1 to 3. -/
def tokenSigner (t : Token) (s : Dev) : Bool :=
  t.sigOk &&
    (if t.kind = 1 && (List.range 4).all (fun k => !(sealEntry s k).programmed) then
      t.arg % 4 = 0 && (t.arg / 2 ^ 8).testBit 0 && keyHash t.signer = t.value
    else (matchEntry s t.signer 0).isSome)

/-- Index of the entry that signed, for a record's subject. -/
def signerIndex (t : Token) (s : Dev) : Nat := (matchEntry s t.signer 0).getD 0

/-- TOKEN (R374, R383): a PARAM_SET block goes into the older parameter copy before its record. -/
def cabTokenCmd (mailbox : Bool) (s : Dev) : Dev :=
  match cabCheck true false s with
  | 0 =>
    let t := tokenOf s
    let entry := t.arg % 4
    let x := sealEntry s entry
    let fail := fun c => cabRefuse 0x12 c 0 mailbox s
    let start := fun ch s => updCab s fun c => { c with
      run := some { opcode := 0x12, change := ch, event := 3, mailbox }, record := 0 }
    if !t.headOk || t.kind < 1 || 3 < t.kind then fail cabToken
    else if t.counter ≠ s.cab.c then fail cabToken
    else if !tokenSigner t s then fail cabSignature
    else if t.kind = 1 then
      if x.programmed then fail cabEntry else start (.keyAdd entry (t.arg / 2 ^ 8 % 4) t.value) s
    else if t.kind = 2 then
      if !x.programmed || x.revoked || x.hash ≠ t.value then fail cabEntry
      else if !((List.range 4).any fun k => k ≠ entry &&
          (let y := sealEntry s k; y.programmed && !y.revoked && y.role.testBit 0)) then fail cabLastKey
      else start (.keyRevoke entry t.value (signerIndex t s)) s
    else if ofLe (sha384 t.block) ≠ t.value then fail cabToken
    else
      let copy := s.cab.audit.older
      start (.paramSet copy) (updCab s fun c => { c with
        audit := { c.audit with params := tSet (fun _ => []) c.audit.params copy t.block } })
  | e => cabRefuseLog 0x12 e mailbox s

/-- The records of counters E + 1 to `n` as the on-die copy holds them. -/
def exportedBytes (s : Dev) (n : Nat) : List Nat :=
  (List.range (n - s.cab.e)).flatMap fun i => wordBytes (tGet (fun _ => []) s.cab.onDie ((s.cab.e + i) % 1024))

/-- EXPORT_ACK (R374, R381). -/
def cabExportAck (mailbox : Bool) (s : Dev) : Dev :=
  match cabCheck false true s with
  | 0 =>
    let t := tokenOf s
    let fail := fun c => cabRefuse 0x13 c 0 mailbox s
    if !t.headOk || t.kind ≠ 4 then fail cabToken
    else if !t.sigOk || (matchEntry s t.signer 1).isNone then fail cabSignature
    else if t.counter ≤ s.cab.e || s.cab.c < t.counter || ofLe (sha384 (exportedBytes s t.counter)) ≠ t.value then fail cabExport
    else
      cabResult 0x13 cabOk 0 0 mailbox (updCab s fun c => { c with
        e := t.counter, fullRaised := false
        audit := { c.audit with marks := tSet (fun _ => none) (tSet (fun _ => none) c.audit.marks 0 (some t.counter)) 1 (some t.counter) } })
  | e => cabRefuse 0x13 e 0 mailbox s

/-- A word written to CMD (R392). -/
def cabCommand (w : Word) (mailbox : Bool) (s : Dev) : Dev :=
  let op := fld w 63 56
  if s.cab.run.isSome || s.cab.state = .start then cabRefuse op cabBusy 0 mailbox s
  else if op < 0x10 || 0x13 < op || fld w 55 3 ≠ 0 then cabRefuse op cabOpcode 0 mailbox s
  else if op = 0x10 then sealedLoad (fld w 1 1) (fld w 0 0) (bit w 2) mailbox s
  else if op = 0x11 then cabRollback mailbox s
  else if op = 0x12 then cabTokenCmd mailbox s
  else cabExportAck mailbox s

/-! ## The record counts (R379, R383, R384) -/

/-- Event, subject, old and new prefix of the record of a change (R377). -/
def changeRecord (ch : CabChange) (s : Dev) : Nat × Nat × Nat × Nat :=
  let o := nth {} s.cab.leaves (otherLeaf s 64)
  match ch with
  | .load slot copy => (0x01, copy + 2 * slot + o.signer * 2 ^ 16, prefix6 (activeDigest s), prefix6 o.digest)
  | .rollback => (0x02, o.signer * 2 ^ 16, prefix6 (activeDigest s), prefix6 o.digest)
  | .paramSet copy =>
    (0x03, copy, prefix6 s.cab.paramDigest, prefix6 (ofLe (sha384 (tGet (fun _ => []) s.cab.audit.params copy))))
  | .keyAdd e role hash => (0x04, e + role * 2 ^ 8, 0, prefix6 hash)
  | .keyRevoke e hash signer => (0x05, e + signer * 2 ^ 16, prefix6 hash, 0)

/-- A burn of entry `e` does not verify: its revoked bit is burned, and the command ends with CAB_ERR_ENTRY; its record stands
(R383). -/
def burnFailed (e : Nat) (b : SealBurn) (s : Dev) : Dev :=
  let s := updCab s fun c => { c with otp := tUpd sealDflt c.otp e fun x =>
    { hash := x.hash ||| b.hash.toNat, role := x.role ||| b.role.toNat, programmed := x.programmed || b.programmed, revoked := true } }
  cabEnd cabEntry (raiseC s 7 (2 ^ 8 + e))

/-- A change whose record has counted is carried out (R384); a load or rollback goes on to its quiet window. -/
def carryOut (ch : CabChange) (burn : Option SealBurn) (s : Dev) : Dev :=
  match ch with
  | .load _ _ => cabEvent 4 s
  | .rollback => cabEvent 4 s
  | .paramSet copy =>
    let b := tGet (fun _ => []) s.cab.audit.params copy
    cabDone (updCab s fun c => { c with
      paramBlock := b, paramDigest := ofLe (sha384 b), audit := { c.audit with older := 1 - copy } })
  | .keyAdd e role hash =>
    match burn with
    | some b => burnFailed e b s
    | none => cabDone (updCab s fun c => { c with
        otp := tUpd sealDflt c.otp e fun _ => { hash, role, programmed := true, revoked := false } })
  | .keyRevoke e _ _ =>
    match burn with
    | some b => burnFailed e b s
    | none => cabDone (updCab s fun c => { c with otp := tUpd sealDflt c.otp e fun x => { x with revoked := true } })

/-- The record of the running change is written to ring A and read back (R383 event 4). -/
def recordCounted (verifies : Bool) (burn : Option SealBurn) (s : Dev) : Dev :=
  match s.cab.run with
  | none => s
  | some r =>
    if r.event ≠ 3 then s
    else if logIsFull s then cabFail cabLogFull 0 (noteFull s)
    else if logWorn s then cabFail cabLogWrite 0 (noteWear s)
    else if !verifies then cabFail cabLogWrite 0 (spoilRecord s)
    else
      let x := changeRecord r.change s
      let s := putRecord x.1 x.2.1 x.2.2.1 x.2.2.2 s
      carryOut r.change burn (updCab s fun c => { c with record := c.c })

/-- The copy of the oldest due record goes to ring B (R378, R383 event 8). -/
def ringBWrite (verifies : Bool) (s : Dev) : Dev :=
  match s.cab.ringBDue with
  | [] => s
  | n :: rest =>
    if !mainUp s || !cabUp s then s
    else
      let p := (n - 1) % 1024
      if verifies then
        updCab s fun c => { c with
          ringBDue := rest
          audit := { c.audit with ringB := tSet (fun _ => []) c.audit.ringB p (tGet (fun _ => []) c.onDie p) } }
      else
        raiseC (updCab s fun c => { c with
          ringBDue := rest, ringBFail := c.ringBFail ++ [n], logCopy := true
          audit := { c.audit with ringB := tSet (fun _ => []) c.audit.ringB p [] } }) 4 (n % 2 ^ 32)

/-- The running command stands at event `n`. -/
def cabAt (n : Nat) (s : Dev) : Bool := match s.cab.run with | some r => r.event = n | none => false

/-- Event 5: the Cabinet's fabric clocks have stopped. -/
def cabQuietBegin (s : Dev) : Dev := if cabAt 4 s then updCab (cabEvent 5 s) fun c => { c with quiet := true } else s

/-- Event 6. -/
def cabStrobe (s : Dev) : Dev := if cabAt 5 s then cabEvent 6 (cabCommit s) else s

/-- Event 7: the new image runs, and the domain climbs to its start target where it has not reached one yet (R365). -/
def cabQuietEnd (s : Dev) : Dev := if cabAt 6 s then cabClimb (cabDone (updCab s fun c => { c with quiet := false })) else s

/-- The main side stops being up (R384): before event 4 a command ends with CAB_ERR_STORE. -/
def cabMainLost (s : Dev) : Dev := match s.cab.run with
  | some r => if r.event < 4 then cabFail cabStore 0 (cabAbortLeaf s) else s
  | none => s

/-! ## Resets and start-up (R362, R386, R407) -/

/-- The Cabinet is held in reset: what is left is its one-time memory, the store's audit area and log_fault. A command that a
mailbox command issued ends with an undefined code. -/
def cabReset (s : Dev) : Dev :=
  let before := tileMask s
  let s := match s.cab.run with
    | some r => if r.mailbox then
        let (w, s) := takeWord s
        mbxEndOp (cabMbxOp r.opcode) famCab (w.toNat % 256) [] s
      else s
    | none => s
  let s := updCab s fun c => { id := c.id, powered := c.powered, rstN := c.rstN, otp := c.otp, audit := c.audit, logFault := c.logFault }
  let mine := fun k => k / 4096 == 64
  let s := updCfg s fun c => { c with
    leaves := tDrop (fun k => k / 2 == 64) c.leaves
    active := tDrop (fun k => k == 64) c.active
    frames := tDrop mine c.frames
    ledger := tDrop mine c.ledger
    ledgerBase := tDrop (fun k => k / 2 == 64) c.ledgerBase
    repair := tDrop (fun k => k / 2 == 64) c.repair, index := tDrop mine c.index
    scrub := { c.scrub with
      pos := tDrop (fun k => k == 4) c.scrub.pos, inPos := tDrop (fun k => k == 4) c.scrub.inPos
      ratio := tDrop (fun k => k == 4) c.scrub.ratio, second := notCab c.scrub.second, third := notCab c.scrub.third
      unrestored := c.scrub.unrestored.filter fun k => !mine k
      scheduled := c.scrub.scheduled.filter fun k => !mine k
      waiting := c.scrub.waiting.filter fun k => !mine k } }
  tilesChanged before { s with sectors := tDrop (fun k => k == 64) s.sectors }
where notCab (x : ScrubCopy) : ScrubCopy :=
  let drop := tDrop fun k => k == 4
  { x with pos := drop x.pos, inPos := drop x.inPos, ratio := drop x.ratio }

/-- Cause of a failed step (R409). -/
def calCause : CalStep → Nat
  | .adcOffset => 2
  | .adcGain => 3
  | .loop => 4
  | .linearity => 5

/-- A tile leaves service for the cause found (R410). -/
def tileLeaves (t : Nat) (s : Dev) : Dev :=
  match (getTile s t).failed with
  | none => s
  | some cause =>
    let before := tileMask s
    tilesChanged before <| updTile s t fun x => { x with
      out := true, cause, failed := none, waiting := [], data := 0, valid := false, ovr := false, red := false, wrap := false, cal := .idle }

/-- A cause is found for which a tile leaves service, from the next slot on: its record is written and its fault raised (R409, R410). -/
def tileFails (t cause : Nat) (logOk : Bool) (s : Dev) : Dev :=
  let x := getTile s t
  if x.out || x.failed.isSome then s
  else raiseC (observed 0x11 (t + cause * 2 ^ 8) 0 logOk (updTile s t fun x => { x with failed := some cause })) 1 (cause * 2 ^ 8 + t)

/-- A tile fails the self-test, before its first slot. -/
def tileOut (t cause : Nat) (logOk : Bool) (s : Dev) : Dev := tileLeaves t (tileFails t cause logOk s)

/-- Every tile fails the self-test with CREF_RANGE (R407). -/
def crefOut (logOk : Bool) (s : Dev) : Dev := (List.range 24).foldl (fun s t => tileOut t 1 logOk s) s

/-- Events 1 and 2 of R386: decoders and tiles run their self-test. -/
def cabStart (byRst : Bool) (x : CabTest) (s : Dev) : Dev :=
  let s := bumpMap (updCab s fun c => { c with byRst })
  let s := { s with units := { s.units with gatewayDec := decide (x.decoder ≠ 0) } }
  let s := if x.decoder = 0 then s else raise s fltDecoder (uGateway * 2 ^ 57 + x.decoder.val) (unitScope uGateway)
  if x.cref then x.fails.foldl (fun s e => tileOut e.1.val (calCause e.2) false s) s else crefOut false s

/-- The Cabinet supplies come within their limits (R526). -/
def cabPowerOn (x : CabTest) (s : Dev) : Dev :=
  if s.cab.powered then s
  else
    let s := updCab s fun c => { c with powered := true }
    if s.cab.rstN then cabStart false x s else s

/-- CAB_RST_N is asserted. -/
def cabRstLow (s : Dev) : Dev := if s.cab.rstN then cabReset (updCab s fun c => { c with rstN := false }) else s

/-- CAB_RST_N rises. -/
def cabRstHigh (x : CabTest) (s : Dev) : Dev :=
  if s.cab.rstN then s
  else
    let s := updCab s fun c => { c with rstN := true }
    if s.cab.powered then cabStart true x s else s

/-- A Cabinet rail leaves its range. -/
def cabSupplyLoss (s : Dev) : Dev := if s.cab.powered then cabReset (updCab s fun c => { c with powered := false }) else s

/-- Prefixes that the log names last: of a load or rollback, and of a parameter block (R386). -/
def lastNamed (events : List Nat) (s : Dev) : Option Nat :=
  let rs := s.cab.onDie.filterMap fun e =>
    match recordCounter e.1 e.2 with
    | some c => if events.contains (fld (nth 0 e.2 0) 39 32) then some (c, fld (nth 0 e.2 3) 47 0) else none
    | none => none
  (rs.foldl (fun best x => match best with
    | some b => if b.1 < x.1 then some x else best
    | none => some x) none).map (·.2)

/-- The audit area is read: C, E, the on-die copy, the parameter block (R378, R386). -/
def auditRead (s : Dev) : Dev :=
  let pick := fun p =>
    let a := tGet (fun _ => []) s.cab.audit.ringA p
    let b := tGet (fun _ => []) s.cab.audit.ringB p
    match recordCounter p a, recordCounter p b with
    | some x, some y => if x < y then b else a
    | some _, none => a
    | none, some _ => b
    | none, none => []
  let onDie := (List.range 1024).foldl (fun t p => tSet (fun _ => []) t p (pick p)) []
  let c := onDie.foldl (fun m x => max m ((recordCounter x.1 x.2).getD 0)) 0
  let mark := fun n => (tGet (fun _ => none) s.cab.audit.marks n).getD 0
  let s := updCab s fun x => { x with onDie, c, e := max (mark 0) (mark 1) }
  match lastNamed [0x03] s with
  | none => s
  | some p =>
    match (List.range 2).find? fun n =>
        let b := tGet (fun _ => []) s.cab.audit.params n
        !b.isEmpty && prefix6 (ofLe (sha384 b)) = p with
    | none => s
    | some n =>
      let b := tGet (fun _ => []) s.cab.audit.params n
      updCab s fun x => { x with
        paramBlock := b, paramDigest := ofLe (sha384 b), audit := { x.audit with older := 1 - n } }

/-- The Cabinet is in NO_IMAGE (R386). -/
def cabNoImage (why : Nat) (s : Dev) : Dev := raiseC (updCab s fun c => { c with state := .noImage }) 5 why

/-- The image that the log names is loaded and committed, or NO_IMAGE follows (R386 event 4). -/
def cabLoadNamed (items : List (List Setting)) (verifyFails : Bool) (s : Dev) : Dev :=
  match lastNamed [0x01, 0x02] s with
  | none => cabNoImage 0 s
  | some p =>
    let ks := ((List.range 4).map (copyKey 2 0 0 + ·)).filter fun k =>
      let c := getCopy s k
      c.valid && digestPrefix (imgWords c.image) = p
    let ok := fun k =>
      let img := copyImage (getCopy s k)
      sealedError s img verifyFails = 0 && (sealedSigner s img).isSome
    match ks.find? ok with
    | none => cabNoImage (if ks.isEmpty then 1 else 2) s
    | some k =>
      let img := (getCopy s k).image
      let s := cabOpenLeaf img s
      let s := match sealedFrames img with
        | .ok l => cabWriteFrames l items s
        | .error _ => s
      cabCommit (cabSeal img ((sealedSigner s img).getD 0) (some k) s)

/-- POWER_UP record, judging of the CXO, climb (R386 event 5). -/
def cabStarted (logOk : Bool) (s : Dev) : Dev :=
  let s := observed 0x10 s.cab.byRst.toNat (prefix6 (activeDigest s)) logOk s
  cabClimb (updCab s fun c => { c with cxo := judgeStart })

/-- Events 3 to 5 of R386, once the main side is up. -/
def cabAuditRead (items : List (List Setting)) (verifyFails logOk : Bool) (s : Dev) : Dev :=
  if cabUp s && s.cab.state = .start && mainUp s then cabStarted logOk (cabLoadNamed items verifyFails (auditRead s)) else s

/-- In NO_IMAGE the start-up load is tried again. -/
def cabRetry (items : List (List Setting)) (verifyFails : Bool) (s : Dev) : Dev :=
  if cabUp s && s.cab.state = .noImage && s.cab.run.isNone && mainUp s then cabClimb (cabLoadNamed items verifyFails s) else s

end Sys2Proof.Machine
end

