-- ==== Sys2Proof/Machine/Tiles.lean ====
section
/-! DEFINITION. Converter tiles, the sample port and the source port (chapter 17). -/

namespace Sys2Proof.Machine

/-! ## Configuration (R401) -/

/-- The fields of a tile in the active leaf. -/
def tileCfg (s : Dev) (t : Nat) : TileCfg :=
  ((items s 64).findSome? fun x => match x with
    | .tile u g => if u.val = t then some g else none
    | _ => none).getD {}

/-- The divisor in force for a tile: 0 is 1, and reduced precision has a least one (R401, R406). -/
def effDiv (reduced : Bool) (least d : Nat) : Nat :=
  let d := max d 1
  if reduced then max d least else d

/-- The interface clock of a tile gives an edge (R402). -/
def tileEdge (s : Dev) (t : Nat) : Bool := edgeAt s 64 (tileCfg s t).ifClk

/-! ## Sample slots (R403 to R406) -/

/-- Slots in a second. -/
def slotsPerSecond : Nat := 5000000

/-- A code of 20 bits for an input: clamped, and with over-range marked; [3:0] zero in reduced precision (R399). -/
def sampleCode (x : Int) (reduced : Bool) : BitVec 20 × Bool :=
  let c := if x < -524288 then -524288 else if 524287 < x then 524287 else x
  let v := wrap 20 c
  (BitVec.ofNat 20 (if reduced then v / 16 * 16 else v), decide (x < -524288 ∨ 524287 < x))

/-- The Cabinet time and slot number at the start of the next slot. -/
def nextSlot (c : Cabinet) : Nat × Nat × Nat :=
  let x := c.time * slotsPerSecond + c.timeRem
  let x' := if c.mode = .free then x + 2 ^ 32 else (x / 2 ^ 32 + 1) * 2 ^ 32
  let n := if c.mode = .free then c.slot else x' / 2 ^ 32 % slotsPerSecond
  (x' / slotsPerSecond % 2 ^ 80, x' % slotsPerSecond, n)

/-- One tile at the start of slot `n`. -/
def tileSlot (n : Nat) (logOk : Bool) (inputs : List SampleIn) (s : Dev) (t : Nat) : Dev :=
  let g := tileCfg s t
  let red := s.cab.reduced
  let d := effDiv red 20 g.adcDiv.toNat
  let x := getTile s t
  if x.failed.isSome then tileLeaves t s
  else if x.out then s
  else if x.cal = .waiting then updTile s t fun x => { x with cal := .running, waiting := [], valid := false }
  else if x.cal = .running then s
  else
    let s := updTile s t fun x => { x with
      valid := false
      wrapDue := x.wrapDue || (decide (n = 0) && x.sampled && decide (slotsPerSecond % d ≠ 0)) }
    if g.measEn && n % d = g.adcPhase.toNat % d && cabClocks s then
      let i := (inputs.find? fun i => i.tile.val = t).getD { tile := 0, code := 0 }
      let (c, ovr) := sampleCode i.code red
      let fails := if i.checkOk then 0 else x.adcFails + 1
      let s := updTile s t fun x => { x with
        waiting := x.waiting ++ [{ code := c, ovr, red, wrap := x.wrapDue }], wrapDue := false, sampled := true, adcFails := fails }
      if fails = 3 then tileFails t 6 logOk s else s
    else s

/-- A sample slot begins: the class of precision follows the domain, the time moves on, tiles sample. -/
def sampleSlot (inputs : List SampleIn) (logOk : Bool) (s : Dev) : Dev :=
  if !cabUp s then s
  else
    let x := nextSlot s.cab
    let s := updCab s fun c => { c with
      time := x.1, timeRem := x.2.1, slot := (x.2.2 + 1) % slotsPerSecond, reduced := decide (c.sw.cur = 2) }
    (List.range 24).foldl (tileSlot x.2.2 logOk inputs) s

/-- An interface edge: a sample is presented on M_DATA (R404), and M_VALID is 0 without one (R402). -/
def sampleDelivery (t : Nat) (s : Dev) : Dev :=
  let x := getTile s t
  if !tileEdge s t || x.out || x.cal = .running then s
  else match x.waiting with
    | [] => updTile s t fun x => { x with valid := false }
    | m :: rest => updTile s t fun x => { x with waiting := rest, data := m.code, valid := true, ovr := m.ovr, red := m.red, wrap := m.wrap }

/-- S_LOAD (R405). -/
def sourceLoad (t : Nat) (code : BitVec 20) (s : Dev) : Dev :=
  if tileEdge s t && !(getTile s t).out then updTile s t fun x => { x with code } else s

/-- The start of a slot is an update instant of every tile whose divisor selects it (R405, R406, R400). During a quiet window the
outputs hold (R383), and during a calibration the DAC waits for its end (R408). -/
def dacUpdate (s : Dev) : Dev :=
  if !cabUp s || s.cab.quiet then s
  else
    let n := (s.cab.slot + slotsPerSecond - 1) % slotsPerSecond
    (List.range 24).foldl (fun s t =>
      let x := getTile s t
      let e := effDiv s.cab.reduced 10 (tileCfg s t).dacDiv.toNat
      if x.out || x.cal = .running || n % (2 * e) ≠ 0 then s
      else updTile s t fun x => { x with dac := x.code }) s

/-- The current limit of an output acts or ends (R411). -/
def currentLimit (t : Nat) (on : Bool) (s : Dev) : Dev := if cabUp s then updTile s t fun x => { x with limit := on } else s

/-! ## Calibration and faults (R398, R407 to R410) -/

/-- CAL_REQ with CAL_BUSY 0. -/
def calRequest (t : Nat) (s : Dev) : Dev :=
  if tileEdge s t && !(getTile s t).out && (getTile s t).cal = .idle then updTile s t fun x => { x with cal := .waiting } else s

/-- A calibration ends; a failed step takes the tile out. -/
def calComplete (t : Nat) (fails : Option CalStep) (logOk : Bool) (s : Dev) : Dev :=
  if (getTile s t).cal ≠ .running then s
  else
    let s := updTile s t fun x => { x with cal := .idle }
    match fails with
    | some c => tileFails t (calCause c) logOk s
    | none => s

/-- CREF has been out of range for 100 µs. -/
def crefTimeout (logOk : Bool) (s : Dev) : Dev := 
  if cabUp s then (List.range 24).foldl (fun s t => tileFails t 1 logOk s) s else s

/-- A source output has differed from its code for 100 µs. -/
def srcFault (t : Nat) (logOk : Bool) (s : Dev) : Dev :=
  if cabUp s && (tileCfg s t).srcEn && !(getTile s t).limit then tileFails t 7 logOk s else s

/-- What a tile drives: nothing while it is out or src_en is 0 (0 V differential), otherwise its code, of which reduced precision
ignores [3:0] (R400, R401, R410). -/
def tileOutput (s : Dev) (t : Nat) : BitVec 20 :=
  let x := getTile s t
  if x.out || !(tileCfg s t).srcEn then 0 else if s.cab.reduced then x.dac &&& 0xFFFF0 else x.dac

/-! ## Port queues (R412, R413) -/

/-- The writing side sees up to `n` more removals. -/
def queueSeesFreed (n : Nat) (q : PortQueue α) : PortQueue α := { q with freed := q.freed - min n q.freed }

/-- The reading side sees up to `n` more words. -/
def queueSeesWords (n : Nat) (q : PortQueue α) : PortQueue α := { q with unseen := q.unseen - min n q.unseen }

/-- Full as the writing side sees it (R115). -/
def portFull (q : PortQueue α) : Bool := 64 ≤ q.words.length + q.freed

/-- The reading side sees a head word. -/
def portHead (q : PortQueue α) : Option α := if q.unseen < q.words.length then q.words.head? else none

def portPush (x : α) (q : PortQueue α) : PortQueue α := { q with words := q.words ++ [x], unseen := q.unseen + 1 }

def portPop (q : PortQueue α) : PortQueue α := { q with words := q.words.drop 1, freed := q.freed + 1 }

/-- S12 operates the ports: ACTIVE or FENCED (R414). -/
def s12Up (s : Dev) : Bool := !sectorDown s 12

/-- The clock of a port on the side of S12. -/
def cabPortClk (l : List Setting) (source : Bool) : ClkSel :=
  (l.findSome? fun x => match x with
    | .cabPort src c => if src == source then some c else none
    | _ => none).getD {}

/-- Words dropped on the Cabinet side. -/
def spDrop (n : Nat) (s : Dev) : Dev := updCab s fun c => { c with spDrops := satAdd 24 c.spDrops n }

/-- The Cabinet fabric pushes a word; by this edge its side has seen `freed` more removals. -/
def samplePush (word : Word) (poison : Bool) (freed : Nat) (s : Dev) : Dev :=
  if !cabClocks s then s
  else if !s12Up s then spDrop 1 s
  else
    let s := updCab s fun c => { c with sampleQ := queueSeesFreed freed c.sampleQ }
    if portFull s.cab.sampleQ then spDrop 1 s else updCab s fun c => { c with sampleQ := portPush (encodeWord word poison) c.sampleQ }

/-- The S12 side presents the head word that it sees: decoded once, counted in the ECC_CNT of S12 and in the transit log (R35, R39,
R42; a port has no source router, so that field is 0: DESIGN CHOICE, assumption 135). -/
def spPresent (s : Dev) : Dev :=
  match s.cab.spOut, portHead s.cab.sampleQ with
  | none, some w => let x := consume s (uSector 12) 0 w; updCab x.2 fun c => { c with spOut := some x.1 }
  | _, _ => s

/-- An S12 edge with SP_TAKE; by this edge its side has seen `seen` more words. The word presented leaves the queue, and the next
one that this side sees is presented. -/
def spTake (seen : Nat) (s : Dev) : Dev :=
  if !s12Up s || !edgeAt s 12 (cabPortClk (items s 12) false) then s
  else
    let s := spPresent (updCab s fun c => { c with sampleQ := queueSeesWords seen c.sampleQ })
    match s.cab.spOut with
    | some _ => spPresent (updCab s fun c => { c with sampleQ := portPop c.sampleQ, spOut := none })
    | none => s

/-- An S12 edge with SRC_VALID 1; the word is taken where SRC_READY is 1. -/
def sourceOffer (w : SourceWord) (freed : Nat) (s : Dev) : Dev :=
  if !s12Up s || !edgeAt s 12 (cabPortClk (items s 12) true) then s
  else
    let s := updCab s fun c => { c with sourceQ := queueSeesFreed freed c.sourceQ }
    if portFull s.cab.sourceQ then s else updCab s fun c => { c with sourceQ := portPush w c.sourceQ }

/-- The Cabinet side takes a word and decodes it, counted in the gateway's ECC_CNT (R42): each valid sample is admitted or
refused. -/
def sourceAdmit (seen : Nat) (s : Dev) : Dev :=
  if !cabUp s || s.cab.quiet then s
  else
    let s := updCab s fun c => { c with sourceQ := queueSeesWords seen c.sourceQ }
    match portHead s.cab.sourceQ with
    | none => s
    | some w =>
      let (x, s) := consume (updCab s fun c => { c with sourceQ := portPop c.sourceQ }) uGateway 0 w.word
      let valid := (List.range 3).filter fun i => x.1.getLsbD (60 + i)
      let refuse := fun s => updCab s fun c => { c with srcRefused := satAdd 24 c.srcRefused 1 }
      if x.2 then raiseD (valid.foldl (fun s _ => refuse s) s) fltPoisonRefused (3 * 2 ^ 60)
      else
        valid.foldl (fun s i =>
          let t := nth 24 w.tiles i
          if t < 24 && (activeDecl s).srcTiles.testBit t then
            updCab s fun c => { c with
              inVal := tSet (fun _ => 0) c.inVal t (fld x.1 (20 * i + 19) (20 * i))
              inCnt := tUpd (fun _ => 0) c.inCnt t fun n => (n + 1) % 65536 }
          else refuse s) s

end Sys2Proof.Machine
end

