-- ==== Sys2Proof/Machine/Gateway.lean ====
section
/-! DEFINITION. The gateway of the Cabinet (R387 to R394): reads, the filter of writes, commands, the ring engine, the result
port, the identification block. -/

namespace Sys2Proof.Machine

/-- The gateway's endpoint and the base of its window (R387). -/
def gwKey : Nat := 4 * gatewayAddr
def gwBase : Nat := windowBase gatewayAddr 0

/-! ## Results (R393) -/

def pairDflt : Nat → PWord := fun _ => 0

/-- Status word of a result written now. -/
def resultStatus (s : Dev) (seq : Nat) : Word :=
  let mode := match s.cab.mode with
    | .stream => 0
    | .aligned => 1
    | .free => 2
  let src := s.cab.sw.cur
  BitVec.ofNat 64 (seq % 2 ^ 16 * 2 ^ 48 + tileMask s * 2 ^ 24 + 2 ^ 11 + (cabDamaged s).toNat * 2 ^ 10 + s.cab.logFault.toNat * 2 ^ 9 +
    mode * 2 ^ 7 + (decide (src = 2)).toNat * 2 ^ 6 + src * 2 ^ 4)

/-- The Cabinet fabric writes result `k`: value and status go into both copies. -/
def resultWrite (k : Nat) (value : Word) (poison : Bool) (s : Dev) : Dev :=
  if !cabClocks s then s
  else
    let seq := fld (decodeWord (tGet pairDflt s.cab.status0 k)).data 63 48
    let v := encodeWord value poison
    let st := encodeWord (resultStatus s (seq + 1)) false
    updCab s fun c => { c with
      value0 := tSet pairDflt c.value0 k v, value1 := tSet pairDflt c.value1 k v
      status0 := tSet pairDflt c.status0 k st, status1 := tSet pairDflt c.status1 k st }

/-- A stored word can be served: CLEAN or corrected. -/
def servable (w : PWord) : Bool := decide ((decodeWord w).outcome ≠ .uncorrectable)

/-- Renew a copy found UNCORRECTABLE from the other. -/
def renewResult (k : Nat) (s : Dev) : Dev :=
  let c := s.cab
  let good0 := servable (tGet pairDflt c.value0 k) && servable (tGet pairDflt c.status0 k)
  let good1 := servable (tGet pairDflt c.value1 k) && servable (tGet pairDflt c.status1 k)
  if !good0 && good1 then
    updCab s fun c => { c with
      value0 := tSet pairDflt c.value0 k (renewWord (tGet pairDflt c.value1 k))
      status0 := tSet pairDflt c.status0 k (renewWord (tGet pairDflt c.status1 k)) }
  else if good0 && !good1 then
    updCab s fun c => { c with
      value1 := tSet pairDflt c.value1 k (renewWord (tGet pairDflt c.value0 k))
      status1 := tSet pairDflt c.status1 k (renewWord (tGet pairDflt c.status0 k)) }
  else s

/-- Word `n` (0 value, 1 status) of result `k` as read: the first servable copy, or poisoned. -/
def resultWord (s : Dev) (k n : Nat) : PWord :=
  let c := s.cab
  let pair := fun (v st : Tbl PWord) => (tGet pairDflt v k, tGet pairDflt st k)
  let p0 := pair c.value0 c.status0
  let p1 := pair c.value1 c.status1
  let pick := fun (p : PWord × PWord) => if n = 0 then p.1 else p.2
  if servable p0.1 && servable p0.2 then renewWord (pick p0)
  else if servable p1.1 && servable p1.2 then renewWord (pick p1)
  else encodeWord (decodeWord (pick p0)).data true

/-! ## Identification (R394) -/

/-- Bits of CMD_STATUS (R392). -/
def cmdStatus (s : Dev) : Word :=
  let c := s.cab
  BitVec.ofNat 64 (c.run.isSome.toNat * 2 ^ 63 + c.result * 2 ^ 48 + c.detail * 2 ^ 40 + c.lastOpcode * 2 ^ 32 + c.record % 2 ^ 32)

/-- Word `n` of the identification block. -/
def identWord (s : Dev) (n : Nat) : Word :=
  let c := s.cab
  let w := fun v => BitVec.ofNat 64 v
  let mode := match c.mode with
    | .stream => 0
    | .aligned => 1
    | .free => 2
  let state := if c.run.isSome then 3 else match c.state with
    | .start => 0
    | .noImage => 1
    | .running => 2
  if n < 6 then w (activeDigest s >>> (64 * n))
  else if n = 6 then
    let v := match c.active with
      | some l => (nth {} c.leaves l).version
      | none => 0
    w (c.c % 2 ^ 32 * 2 ^ 32 + v)
  else if n = 7 then c.id
  else if n = 8 then w (c.lostObserved * 2 ^ 48 + (c.c - c.e) % 2 ^ 11 * 2 ^ 32 + c.e % 2 ^ 32)
  else if n = 9 then
    w (state * 2 ^ 61 + c.sw.cur * 2 ^ 59 + (decide (c.sw.cur = 2)).toNat * 2 ^ 58 + c.logFault.toNat * 2 ^ 57 +
      c.logCopy.toNat * 2 ^ 56 + (cabDamaged s).toNat * 2 ^ 55 + mode * 2 ^ 53 + tileMask s * 2 ^ 24 + (activeDecl s).srcTiles)
  else if n < 16 then w (c.paramDigest >>> (64 * (n - 10)))
  else if n < 44 then
    let e := sealEntry s ((n - 16) / 7)
    let j := (n - 16) % 7
    if j < 6 then w (e.hash >>> (64 * j)) else w (e.programmed.toNat * 2 ^ 63 + e.revoked.toNat * 2 ^ 62 + e.role % 4)
  else if n = 44 then w (c.ringRun.toNat * 2 ^ 63 + c.ringErr % 2 ^ 8 * 2 ^ 48 + c.ringOff % 2 ^ 40)
  else if n = 45 then w (c.setpointRefused * 2 ^ 32 + c.drops)
  else 0

/-! ## Reads -/

/-- The 64-bit word at window offset `off`, a multiple of 8, outside the results. -/
def gwWord (s : Dev) (off : Nat) : Word :=
  let c := s.cab
  if 0x10000 ≤ off && off < 0x10400 then identWord s ((off - 0x10000) / 8)
  else if 0x20000 ≤ off && off < 0x28000 then nth 0 (tGet (fun _ => []) c.onDie ((off - 0x20000) / 32)) (off % 32 / 8)
  else if off = 0x30008 then cmdStatus s
  else if 0x32000 ≤ off && off < 0x34000 then tGet (fun _ => 0) c.staging ((off - 0x32000) / 8)
  else if 0x40000 ≤ off && off < 0x41000 then tGet (fun _ => 0) c.nonLegal ((off - 0x40000) / 8)
  else if 0x50000 ≤ off && off < 0x500C0 then BitVec.ofNat 64 (tGet (fun _ => 0) c.setpoints ((off - 0x50000) / 8))
  else 0

/-- A word as a read transaction carries it. -/
def gwRead (s : Dev) (off : Nat) : PWord :=
  if off < 0x8000 then resultWord s (off / 16) (off % 16 / 8) else encodeWord (gwWord s off) false

/-- Renew the result pairs that a read touches. -/
def gwRenew (q : MemReq) (s : Dev) : Dev :=
  (reqWords q).foldl (fun s a => if a - gwBase < 0x8000 then renewResult ((a - gwBase) / 16) s else s) s

/-! ## Writes: the filter (R388 to R391) -/

/-- Areas that a write can be admitted to. -/
inductive GwArea where
  | cmd
  | staging
  | nonLegal
  | setpoints
  | timeAlign
  deriving DecidableEq, Repr

/-- First offset of an area and one past its last. -/
def areaRange : GwArea → Nat × Nat
  | .cmd => (0x30000, 0x30008)
  | .staging => (0x32000, 0x34000)
  | .nonLegal => (0x40000, 0x41000)
  | .setpoints => (0x50000, 0x500C0)
  | .timeAlign => (0x60000, 0x60010)

/-- The area that holds every byte a write enables. -/
def areaOf (q : MemReq) : Option GwArea :=
  let r := reqRange q.addr q.len q.first q.last
  [GwArea.cmd, .staging, .nonLegal, .setpoints, .timeAlign].find? fun a =>
    decide (gwBase + (areaRange a).1 ≤ r.1 ∧ r.2 ≤ gwBase + (areaRange a).2)

/-- Data and mask of the words that a write enables, by window offset. -/
def gwWrites (q : MemReq) : List (Nat × Nat × Word) :=
  (reqWords q).map fun a => (a - gwBase, wordMask q a, (decodeWord (carriedWord q a)).data)

/-- Merge a write into a table of words that starts at `base`. -/
def mergeWords (base : Nat) (t : Tbl Word) (l : List (Nat × Nat × Word)) : Tbl Word :=
  l.foldl (fun t x =>
    let i := (x.1 - base) / 8
    tSet (fun _ => 0) t i (mergeBytes ((List.range 8).map fun b => x.2.1.testBit b) (tGet (fun _ => 0) t i) x.2.2)) t

/-- The filter admits a write to an area. -/
def gwAdmits (a : GwArea) (q : MemReq) (s : Dev) : Bool :=
  match a with
  | .setpoints => (gwWrites q).all fun x => (activeDecl s).srcTiles.testBit ((x.1 - 0x50000) / 8)
  | .timeAlign =>
    let l := gwWrites q
    s.cab.mode ≠ .stream && l.map (fun x => (x.1, x.2.1)) = [(0x60000, 255), (0x60008, 255)] && fld (nth 0 (l.map (·.2.2)) 1) 63 16 = 0
  | _ => true

/-- Fields of the ring engine (R390). -/
def ringEn (s : Dev) : Bool := bit (tGet (fun _ => 0) s.cab.nonLegal 0) 63
def ringBase (s : Dev) : Nat := fld (tGet (fun _ => 0) s.cab.nonLegal 0) 47 0
def gwRingSize (s : Dev) : Nat := fld (tGet (fun _ => 0) s.cab.nonLegal 1) 39 0
def ringRd (s : Dev) : Nat := fld (tGet (fun _ => 0) s.cab.nonLegal 2) 39 0

/-- The engine follows a write to its words: it runs from offset 0 once en becomes 1, and stops with en 0 (DEDUCED, assumption 81). -/
def ringFollow (was : Bool) (s : Dev) : Dev :=
  if ringEn s && !was then updCab s fun c => { c with ringRun := true, ringOff := 0, ringErr := 0 }
  else if !ringEn s then updCab s fun c => { c with ringRun := false }
  else s

/-- Apply an admitted write. -/
def gwApply (a : GwArea) (q : MemReq) (s : Dev) : Dev :=
  let l := gwWrites q
  match a with
  | .cmd =>
    cabCommand (l.foldl (fun (w : Word) (x : Nat × Nat × Word) => mergeBytes ((List.range 8).map fun b => x.2.1.testBit b) w x.2.2) 0) false s
  | .staging => updCab s fun c => { c with staging := mergeWords 0x32000 c.staging l }
  | .nonLegal =>
    let was := ringEn s
    ringFollow was (updCab s fun c => { c with nonLegal := mergeWords 0x40000 c.nonLegal l, blockCount := c.blockCount + 1 })
  | .setpoints =>
    l.foldl (fun s x =>
      let t := (x.1 - 0x50000) / 8
      updCab s fun c =>
        let old := BitVec.ofNat 64 (tGet (fun _ => 0) c.setpoints t)
        let v := mergeBytes ((List.range 8).map fun b => x.2.1.testBit b) old x.2.2
        { c with setpoints := tSet (fun _ => 0) c.setpoints t (fld v 19 0)
                 setpointCounts := tUpd (fun _ => 0) c.setpointCounts t (· + 1) }) s
  | .timeAlign =>
    let ws : List Word := l.map fun x => x.2.2
    moveTime ((nth 0 ws 0).toNat + fld (nth 0 ws 1) 15 0 * 2 ^ 64) .aligned s

/-- A write at the filter: refused with DENIED, refused for poison (R39, R50), or applied. One that enables no byte performs nothing
(R543). -/
def gwWrite (q : MemReq) (s : Dev) : Dev :=
  let deny := fun s => respond gwKey q rspDenied [] s
  if enablesNone q.len q.first q.last then respond gwKey q rspOk [] s
  else match areaOf q with
  | none => deny s
  | some a =>
    if !gwAdmits a q s then
      deny (if a = .setpoints then updCab s fun c => { c with setpointRefused := satAdd 32 c.setpointRefused 1 } else s)
    else
      let ws := (reqWords q).map (carriedWord q)
      let s := ws.foldl (fun s w => eccTransit s uGateway q.src w) s
      let bad := ws.any fun w => let d := decodeWord w; d.poison || d.outcome = .uncorrectable
      if bad || s.units.gatewayDec then
        respond gwKey q rspPoisonRefused []
          (raiseD s fltPoisonRefused (2 * 2 ^ 60 + q.port * 2 ^ 58 + q.src * 2 ^ 49 + q.addr % 2 ^ 48))
      else respond gwKey q rspOk [] (gwApply a q s)

/-! ## Requests -/

/-- Kinds of gateway requests that have a row of their own in the table of commands. -/
inductive GwKind where
  | read
  | area (a : GwArea)
  | command (op : Nat)
  | other
  deriving DecidableEq, Repr

/-- The kind of a request. -/
def gwKindOf (q : MemReq) : GwKind :=
  if isAtomic q.op || (q.op ≠ .rd && enablesNone q.len q.first q.last) then .other
  else if q.op = .rd then .read
  else match areaOf q with
    | none => .other
    | some .cmd =>
      .command (fld ((gwWrites q).foldl (fun w x => mergeBytes ((List.range 8).map fun b => x.2.1.testBit b) w x.2.2) 0) 63 56)
    | some a => .area a

/-- The request that the gateway holds under a source and tag, once it is whole. -/
def gwHeld (s : Dev) (src port tag : Nat) : Option MemReq :=
  match held s gwKey src port tag with
  | some r => if complete r && !r.refused then r.req.map (memReq r) else none
  | none => none

/-- Setpoint and parameter writes wait during the quiet window (R383). -/
def gwWaits (q : MemReq) (s : Dev) : Bool :=
  s.cab.quiet && (gwKindOf q = .area .setpoints || gwKindOf q = .area .nonLegal)

/-- Perform a request at the gateway. -/
def gwPerform (src port tag : Nat) (s : Dev) : Dev :=
  if !cabUp s then
    match held s gwKey src port tag with
    | none => s
    | some r => match r.req with
      | none => s
      | some p => if complete r then respond gwKey (memReq r p) rspDomainOff [] (unhold gwKey src port tag s) else s
  else
    match takeRequest gwKey src port tag none s with
    | (.perform q, s) =>
      if isAtomic q.op then respond gwKey q rspBadRequest [] s
      else if q.op = .rd then
        let s := gwRenew q s
        respond gwKey q rspOk (readParcels q ((reqWords q).map fun a => (a, gwRead s (a - gwBase)))) s
      else gwWrite q s
    | (_, s) => s

/-- A request of some kind reaches the gateway; `any` for TARGET_REQUEST. -/
def gwRequest (kind : Option GwKind) (src port tag : Nat) (s : Dev) : Dev :=
  let s' := gather gwKey s
  match gwHeld s' src port tag with
  | some q =>
    if gwWaits q s' then s
    else match kind with
      | none => gwPerform src port tag s'
      | some k => if gwKindOf q = k then gwPerform src port tag s' else s
  | none => if kind.isNone then gwPerform src port tag s' else s

/-! ## Ring engine (R390) -/

/-- Bytes of the ring that hold data not yet consumed. -/
def ringUsed (s : Dev) : Nat :=
  if gwRingSize s = 0 then 0 else (s.cab.ringOff + gwRingSize s - ringRd s % gwRingSize s) % gwRingSize s

/-- The engine writes a block of 256 words, or drops it. One block stays free, so that a full ring is not taken for an empty one
(DEDUCED, assumption 81). -/
def ringBlock (words : List (Word × Bool)) (s : Dev) : Dev :=
  if !cabClocks s || !s.cab.ringRun then s
  else if !mainUp s || !netRuns s || gwRingSize s < ringUsed s + 2 * 2048 then
    updCab s fun c => { c with drops := satAdd 32 c.drops 1 }
  else
    let enc := encodeAll ((words ++ List.replicate 256 (0, false)).take 256)
    let x : Issue :=
      { op := .wr, addr := ringBase s + s.cab.ringOff, len := 63, first := 2 ^ 32 - 1, last := 2 ^ 32 - 1, data := chunks 4 enc }
    match edgeRequest gwKey .ring none false x s with
    | (some c, s) => updCab s fun g => { g with ringRun := false, ringErr := c }
    | (none, s) => updCab s fun g => { g with ringOff := (g.ringOff + 2048) % gwRingSize s }

/-- A response to a block of the ring engine arrives. -/
def ringDone (code : Nat) (s : Dev) : Dev :=
  if code = 0 then s else updCab s fun c => { c with ringRun := false, ringErr := code }

end Sys2Proof.Machine
end

