-- ==== Sys2Proof/Machine/Sram.lean ====
section
/-! DEFINITION. The SRAM dies (R305 to R312, R545): requests, port cycles, table ports, command parity. -/

namespace Sys2Proof.Machine

/-- Endpoint of die `n`. -/
def dieKey (n : Nat) : Nat := 4 * sramAddr n

/-- Data parcel of an atomic (R284): the old value in word address [4:3]. -/
def atomicParcel (q : MemReq) (got : List (Nat × PWord)) : List (List PWord) :=
  [(List.range 4).map fun w => if w = q.addr % 32 / 8 then alGet (clean 0) got (q.addr / 8 * 8) else clean 0]

/-- Who asks, as the engine sees it. -/
def askerOf (q : MemReq) (k : Nat) : Asker := { src := q.src, port := q.port, tag := q.tag, key := q.key, hdr := q.hdr k }

/-- Step of the units in which a memory reads or writes under a key: a word, an AES block, a line. -/
def unitBytes (m : KeyMode) : Nat :=
  match m with
  | .plaintext => 8
  | .xts => 16
  | .gcm => 64

/-- The units that a request touches, by the device address of their first word. -/
def reqUnits (ctx : KeyCtx) (q : MemReq) : List Nat :=
  ((reqWords q).map fun a => a / unitBytes ctx.mode * unitBytes ctx.mode).eraseDups

/-- What a request that enables no byte is answered with (R543). -/
def answerNone (k : Nat) (q : MemReq) (s : Dev) : Dev :=
  if isAtomic q.op then respond k q rspBadRequest [] s else respond k q rspOk [zeroPayload] s

/-- The die accepts a request (R307, R310, R338). -/
def sramAccept (n : Nat) (q : MemReq) (s : Dev) : Dev :=
  let k := dieKey n
  if isAtomic q.op && !atomicOk q && !enablesNone q.len q.first q.last then respond k q rspBadRequest [] s
  else
    match engineCheck s (8 + n) 1 (askerOf q k) q.op q.addr q.len q.first q.last with
    | ((some c, _), s) => respond k q c [] s
    | ((none, ctx), s) =>
      if enablesNone q.len q.first q.last then answerNone k q s
      else updDie s n fun d => { d with accs := d.accs ++ [{ req := q, ctx, left := reqUnits ctx q }] }

/-- A die performs a request of the network (R47, R312, R545). A die out of service answers nothing. -/
def sramRequest (n src port tag : Nat) (s : Dev) : Dev :=
  let k := dieKey n
  let s := gather k s
  if sramOut s n || s.power.warm.isSome then s
  else match takeRequest k src port tag (if (getDie s n).filled then none else some rspNotInit) s with
    | (.perform q, s) => sramAccept n q s
    | (_, s) => s

/-! ## Table ports (R308 to R311) -/

/-- An edge of the table port's user clock occurs. -/
def tpEdge (s : Dev) (q : Nat) : Bool := edgeAt s (tpOwner q) (tpCfgOf (items s (tpOwner q))).1

/-- A read command is taken (R308). -/
def tpRead (q ra : Nat) (s : Dev) : Dev :=
  if tpEdge s q && (getDie s q).tpReads.length < 16 then updDie s q fun d => { d with tpReads := d.tpReads ++ [ra] } else s

/-- A write command is taken. -/
def tpWrite (q : Nat) (w : TpWrite) (s : Dev) : Dev :=
  if tpEdge s q && (getDie s q).tpWrites.length < 16 then updDie s q fun d => { d with tpWrites := d.tpWrites ++ [w] } else s

/-- Waiting read data is presented on TP_DATA (R309); no result: TP_DV is 0. -/
def tpReadData (q : Nat) (s : Dev) : Dev :=
  if tpEdge s q then updDie s q fun d => { d with tpOut := d.tpResp.head?, tpResp := d.tpResp.tail } else s

/-- The header under which the engine records a table port access (R339, R360). -/
def tpHdr (q : Nat) (op : ReqOp) : BitVec 64 := ({ op := opcodeOf op, src := sramAddr q, srcPort := 3, dst := sramAddr q } : Hdr).bits

/-- The verdict on a table port access (R310): 0 admitted, 1 refused by rights or metadata or as not initialised, 2 refused
for integrity mode. A refusal by rights or metadata is also one of the engine (R338, R339). -/
def tpVerdict (s : Dev) (q : Nat) (addr : Nat) (op : ReqOp) : Nat × KeyCtx × Dev :=
  let sel := selectSlot s 1 addr 0
  let sl := getSlot s (8 + q) sel.1
  let ctx : KeyCtx := { mode := sl.mode, key := sl.key }
  let lost : Bool := match sel.2 with
    | some k => let g := getRange s k; g.state = .initialising || g.state = .lost
    | none => false
  let integrity := sl.mode = .gcm || (match sel.2 with
    | some k => (getRange s k).integrity
    | none => false)
  if integrity then (2, ctx, s)
  else if inMetadata s 1 addr (addr + 16) then (1, ctx, denyRequest s (8 + q) 2 3 addr (tpHdr q op))
  else match rightsEntry s (sramAddr q) 3 0 with
    | none => (1, ctx, denyRequest s (8 + q) 3 3 addr (tpHdr q op))
    | some n =>
      let s := incR s (rRights n 3) 31 0 1
      if rightsPermit s n sel.1 op then ((if lost then 1 else 0), ctx, s)
      else (1, ctx, denyRequest s (8 + q) 3 3 addr (tpHdr q op))

/-- FLT_TP_REFUSED, once per 1 ms per table port. -/
def tpRefuse (q : Nat) (write integrity : Bool) (addr : Nat) (s : Dev) : Dev :=
  if dueAgain (getDie s q).refusedAt (timeNs s) then
    let now := timeNs s
    raiseS (updDie s q fun d => { d with refusedAt := some now }) fltTpRefused
      (q * 2 ^ 62 + write.toNat * 2 ^ 61 + integrity.toNat * 2 ^ 60 + addr % 2 ^ 48) (tpOwner q)
  else s

/-- A refused read: TP_DERR 1, data 0, poison 0. -/
def tpError : TpResult := { d0 := 0, d1 := 0, p0 := false, p1 := false, err := true }

/-- A result goes on its way for `n` port cycles. -/
def tpSend (q n : Nat) (r : TpResult) (s : Dev) : Dev := updDie s q fun d => { d with tpPipe := d.tpPipe ++ [(n, r)] }

/-- The die accepts the table port's read command at its head. -/
def tpReadAccept (q : Nat) (s : Dev) : Dev :=
  match (getDie s q).tpReads with
  | [] => s
  | ra :: rest =>
    let s := updDie s q fun d => { d with tpReads := rest }
    let addr := sramBase q + 16 * ra
    if sramOut s q then tpSend q 18 tpError s
    else match tpVerdict s q addr .rd with
      | (0, ctx, s) =>
        let w := addr % 64 / 8
        let r := readLine s (8 + q) ctx addr [w, w + 1] 0
        let get := fun i => decodeWord (alGet (clean 0) r.1.2 i)
        let a := get w
        let b := get (w + 1)
        tpSend q 18 { d0 := a.data, d1 := b.data, p0 := a.poison, p1 := b.poison, err := false } r.2
      | (v, _, s) => tpSend q 18 tpError (tpRefuse q false (v = 2) addr s)

/-- The die accepts and applies the table port's write command at its head. -/
def tpWriteAccept (q : Nat) (s : Dev) : Dev :=
  match (getDie s q).tpWrites with
  | [] => s
  | c :: rest =>
    let s := updDie s q fun d => { d with tpWrites := rest }
    let addr := sramBase q + 16 * c.wa
    if sramOut s q then s
    else match tpVerdict s q addr .wr with
      | (0, ctx, s) =>
        let w := addr % 64 / 8
        let ws : List WordWrite :=
          (if c.we.testBit 0 then [{ w, mask := 255, val := encodeWord c.wd.1 c.wp.1 }] else []) ++
          (if c.we.testBit 1 then [{ w := w + 1, mask := 255, val := encodeWord c.wd.2 c.wp.2 }] else [])
        if ws.isEmpty then s
        else
          let r := sealLine s (8 + q) ctx addr (sramAddr q) ws 0
          memSets r.2 r.1.2
      | (v, _, s) => tpRefuse q true (v = 2) addr s

/-! ## Port cycles (R306, R307) -/

/-- Word slots that unit `u` of an access takes of the read and the write port: its words are read by a read, a merge or an atomic,
and written by a write, a merge or an atomic. -/
def unitCost (a : SramAcc) (u : Nat) : Nat × Nat :=
  let n := unitBytes a.ctx.mode / 8
  let whole := (List.range n).all fun i => wordMask a.req (u + 8 * i) = 255
  if a.req.op = .rd then (n, 0) else if !isAtomic a.req.op && whole then (0, n) else (n, n)

/-- What a port cycle does for an access: how many of its units act, and the slots its next unit has had. -/
structure AccPlan where
  acts : Nat := 0
  paid : Nat × Nat := (0, 0)
  deriving DecidableEq, Repr

/-- Give slots of both ports to the units of an access, in order. A unit that finds too few, or that an earlier access still has to
reach, ends it; it keeps the rest of the port it wanted from the accesses behind. A line of eight words collects its slots over
several cycles; a merge or an atomic of a word has both of its slots in one (R307). Answers the plan and the slots left. -/
def planUnits (a : SramAcc) (held : List Nat) : List Nat → Nat × Nat → Nat × Nat → Nat → AccPlan × Nat × Nat
  | [], free, _, n => ({ acts := n }, free)
  | u :: us, free, paid, n =>
    let c := unitCost a u
    let need := (c.1 - paid.1, c.2 - paid.2)
    if held.contains u then ({ acts := n, paid }, (if c.1 = 0 then free.1 else 0), (if c.2 = 0 then free.2 else 0))
    else if need.1 ≤ free.1 && need.2 ≤ free.2 then planUnits a held us (free.1 - need.1, free.2 - need.2) (0, 0) (n + 1)
    else if a.ctx.mode = .gcm then
      let p := (min need.1 free.1, min need.2 free.2)
      ({ acts := n, paid := (paid.1 + p.1, paid.2 + p.2) }, free.1 - p.1, free.2 - p.2)
    else ({ acts := n, paid }, (if c.1 = 0 then free.1 else 0), (if c.2 = 0 then free.2 else 0))

/-- Share out a port cycle's slots in acceptance order (R306). -/
def shareSlots : Nat × Nat → List Nat → List SramAcc → List AccPlan
  | _, _, [] => []
  | free, held, a :: rest =>
    let p := planUnits a held a.left free a.paid 0
    p.1 :: shareSlots p.2 (held ++ a.left.drop p.1.acts) rest

/-- Apply `f` to the access at index `i` of die `n`. -/
def updAcc (n i : Nat) (f : SramAcc → SramAcc) (s : Dev) : Dev := updDie s n fun d => { d with accs := updNth d.accs i f }

/-- Read one unit of a read. -/
def sramReadUnit (n i : Nat) (a : SramAcc) (u : Nat) (s : Dev) : Dev :=
  let want := ((reqWords a.req).filter fun x => x / unitBytes a.ctx.mode * unitBytes a.ctx.mode = u).map fun x => x % 64 / 8
  let r := readLine s (8 + n) a.ctx u want (a.req.hdr (dieKey n))
  updAcc n i (fun x => { x with
    got := x.got ++ (r.1.2.map fun y => (u / 64 * 64 + 8 * y.1, y.2))
    code := if x.code = 0 then r.1.1 else x.code }) r.2

/-- Write, merge or act atomically on one unit. -/
def sramWriteUnit (n i : Nat) (a : SramAcc) (u : Nat) (s : Dev) : Dev :=
  let hdr := a.req.hdr (dieKey n)
  if isAtomic a.req.op then
    let w := a.req.addr % 64 / 8
    let op := fun j => (decodeWord (nth 0 a.req.operands j)).data
    let r := atomicLine s (8 + n) a.ctx u w a.req.op (op 0) (op 1) hdr
    updAcc n i (fun x => { x with got := [(a.req.addr / 8 * 8, r.1.2.1)], code := r.1.1 }) (memSets r.2 r.1.2.2)
  else
    let ws := ((reqWords a.req).filter fun x => x / unitBytes a.ctx.mode * unitBytes a.ctx.mode = u).map fun x =>
      ({ w := x % 64 / 8, mask := wordMask a.req x, val := carriedWord a.req x } : WordWrite)
    let r := sealLine s (8 + n) a.ctx u a.req.src ws hdr
    updAcc n i (fun x => { x with code := if x.code = 0 then r.1.1 else x.code }) (memSets r.2 r.1.2)

/-- Perform the units of this cycle that `f` acts on, of the accesses that `p` picks, in acceptance order. -/
def sramUnits (n : Nat) (p : SramAcc → Bool) (f : Nat → Nat → SramAcc → Nat → Dev → Dev) (plan : List AccPlan)
    (accs : List SramAcc) (s : Dev) : Dev :=
  (accs.zipIdx).foldl (fun s x =>
    if p x.1 then (x.1.left.take (nth {} plan x.2).acts).foldl (fun s u => f n x.2 x.1 u s) s else s) s

/-- Accesses that have ended send their responses: writes at once, reads and atomics 18 port cycles after their last unit. -/
def sramFinish (n : Nat) (s : Dev) : Dev :=
  let ended := fun (a : SramAcc) => a.left.isEmpty && (isWrite a.req.op || 18 ≤ a.age)
  let accs := (getDie s n).accs
  let s := updDie s n fun d => { d with accs := d.accs.filter fun a => !ended a }
  (accs.filter ended).foldl (fun s a =>
    let data := if isAtomic a.req.op then atomicParcel a.req a.got else readParcels a.req a.got
    respond (dieKey n) a.req a.code data s) s

/-- Table port results advance one port cycle; one that has left the die waits in the response queue, or is discarded after a
strobe or reset of the owner (R309, R311). -/
def tpAdvance (n : Nat) (s : Dev) : Dev :=
  updDie s n fun d =>
    let pipe := d.tpPipe.map fun x => (x.1 - 1, x.2)
    let out := (pipe.takeWhile fun x => x.1 = 0).map (·.2)
    { d with tpPipe := pipe.dropWhile fun x => x.1 = 0, tpResp := d.tpResp ++ out.drop d.tpDiscard
             tpDiscard := d.tpDiscard - out.length }

/-- A cycle in which a command is performed ends its run of parity failures (R312): the table port's, and those of the network units
that act. -/
def parityPass (n : Nat) (rd wr : Bool) (plan : List AccPlan) (s : Dev) : Dev :=
  let d := getDie s n
  let tp := (if rd then (d.tpReads.take 1).map fun ra => sramBase n + 16 * ra else []) ++
    (if wr then (d.tpWrites.take 1).map fun c => sramBase n + 16 * c.wa else [])
  let acted := fun (a : Nat) => d.accs.zipIdx.any fun x =>
    (x.1.left.take (nth {} plan x.2).acts).any fun u => u ≤ a && a < u + unitBytes x.1.ctx.mode
  if d.parityRuns.isEmpty then s
  else updDie s n fun d => { d with parityRuns := d.parityRuns.filter fun r => !(if r.1.1 then tp.contains r.1.2 else acted r.1.2) }

/-- One port cycle of a die: reads see the array before the cycle's writes; the table port's write is applied before those of
the network (R307). A merge or atomic reads the word at its turn among the writes, so that nothing comes between its read and
write (DEDUCED, assumption 18). -/
def sramCycle (n : Nat) (s : Dev) : Dev :=
  if !pllRuns s (27 + n) then s
  else if sramOut s n then tpWriteAccept n (tpReadAccept n (tpAdvance n s))
  else if !(getDie s n).filled then s
  else
    let s := tpAdvance n s
    let d := getDie s n
    let rdCmd := !d.tpReads.isEmpty && decide (d.tpPipe.length + d.tpResp.length < 48)
    let wrCmd := !d.tpWrites.isEmpty
    let plan := shareSlots (if rdCmd then 2 else 4, if wrCmd then 2 else 4) [] d.accs
    let s := parityPass n rdCmd wrCmd plan s
    let s := if rdCmd then tpReadAccept n s else s
    let s := sramUnits n (fun a => a.req.op = .rd) sramReadUnit plan d.accs s
    let s := if wrCmd then tpWriteAccept n s else s
    let s := sramUnits n (fun a => a.req.op ≠ .rd) sramWriteUnit plan d.accs s
    let s := updDie s n fun d => { d with accs := (d.accs.zipIdx).map fun x =>
      let k := nth {} plan x.2
      { x.1 with left := x.1.left.drop k.acts, paid := k.paid, age := if k.acts = 0 then x.1.age + 1 else 0 } }
    sramFinish n s

/-- Parity failures in a row of a command. -/
def parityRun (d : SramDie) (fromTp : Bool) (addr : Nat) : Nat :=
  ((d.parityRuns.find? fun r => r.1 = (fromTp, addr)).map (·.2)).getD 0

/-- A command fails parity on its in-package path (R312): it is repeated at the next port cycle; its 16th failure in a row takes
the die out of service. -/
def sramParity (n : Nat) (fromTp : Bool) (addr : Nat) (s : Dev) : Dev :=
  if sramOut s n then s
  else
    let run := parityRun (getDie s n) fromTp addr + 1
    if run < 16 then updDie s n fun d =>
      { d with parityRuns := ((fromTp, addr), run) :: d.parityRuns.filter fun r => r.1 ≠ (fromTp, addr) }
    else
      let s := updDie s n fun d => { d with parityRuns := [], accs := [] }
      let s := { s with units := { s.units with sram := n :: s.units.sram, generation := (s.units.generation + 1) % 65536 } }
      let s := loseRanges 1 1 n s
      raiseU s fltSramLink (n * 2 ^ 62 + fromTp.toNat * 2 ^ 61 + addr % 2 ^ 48) n

/-- The accesses that `p` picks are completed at once, in acceptance order. -/
def sramComplete (n : Nat) (p : SramAcc → Bool) (s : Dev) : Dev :=
  let s := ((getDie s n).accs.zipIdx).foldl (fun s x =>
    if p x.1 then x.1.left.foldl (fun s u => if x.1.req.op = .rd then sramReadUnit n x.2 x.1 u s else sramWriteUnit n x.2 x.1 u s) s
    else s) s
  updDie s n fun d => { d with accs := d.accs.map fun a => if p a then { a with left := [], paid := (0, 0) } else a }

/-- At a warm reset a die completes every access that it has accepted; the responses go with the network's contents and the
table port's results are discarded (R545). -/
def sramWarm (n : Nat) (s : Dev) : Dev :=
  let s := sramComplete n (fun _ => true) s
  updDie s n fun d => { d with accs := [], tpReads := [], tpWrites := [], tpPipe := [], tpResp := [], tpOut := none, tpDiscard := 0 }

/-- The fill of a die ends (R47, R48). -/
def sramFilled (n : Nat) (s : Dev) : Dev :=
  if sramOut s n || (getDie s n).filled then s
  else setR (updDie s n fun d => { d with filled := true }) rFill (8 + n) (8 + n) 1

end Sys2Proof.Machine
end

