-- ==== Sys2Proof/Machine/Ddr.lean ====
section
/-! DEFINITION. The DDR5 channels (R313 to R332): requests, scheduler, read-ahead, refresh and power, freeze, reset, training,
remap. -/

namespace Sys2Proof.Machine

/-- Endpoint of channel `n`. -/
def chKey (n : Nat) : Nat := 4 * ddrAddr n

/-- Code of a DDR state in DDR_CH_STATUS_n (R332). -/
def ddrStateCode : DdrState → Nat
  | .training => 0
  | .filling => 1
  | .ready => 2
  | .frozen => 3
  | .resetting => 4
  | .selfRefresh => 5
  | .outOfService => 6

/-- The answer that a channel gives to every request in its state (R327). -/
def ddrEarly (s : Dev) (n : Nat) : Option Nat :=
  match (getCh s n).state with
  | .ready => none
  | .frozen => some (if bitR s rFill (16 + n) then rspNotInit else rspChannelFrozen)
  | _ => some rspNotInit

/-- Device address of a line number. -/
def lineBase (l : Nat) : Nat := 64 * l

/-- The BL16 burst of a line on a 40-bit sub-channel (R38): DQ[31:0] and CB[7:0] of beats 0 to 15. -/
def lineBurst (words : List PWord) : List (BitVec 32 × BitVec 8) :=
  words.flatMap fun w => [(w.extractLsb' 0 32, w.extractLsb' 32 8), (w.extractLsb' 40 32, w.extractLsb' 72 8)]

/-- The words that a burst carries (R38). -/
def burstLine : List (BitVec 32 × BitVec 8) → List PWord
  | a :: b :: rest => (b.2 ++ b.1 ++ a.2 ++ a.1) :: burstLine rest
  | _ => []

/-- The eight stored words of line `l`, as a burst brings them. -/
def burstRead (s : Dev) (l : Nat) : List PWord :=
  burstLine (lineBurst ((List.range 8).map fun w => memGet s (lineBase l + 8 * w)))

/-! ## Acceptance (R321, R323, R326) -/

/-- The lines that a request touches. -/
def reqLines (q : MemReq) : List Nat := ((reqWords q).map fun a => plainAddr a / 64).eraseDups

/-- Words of line `l` that a request enables. -/
def lineWords (q : MemReq) (l : Nat) : List Nat := ((reqWords q).filter fun a => plainAddr a / 64 = l).map fun a => a % 64 / 8

/-- Every byte of line `l` is enabled. -/
def wholeLine (q : MemReq) (l : Nat) : Bool :=
  let ws := (reqWords q).filter fun a => plainAddr a / 64 = l
  ws.length = 8 && ws.all fun a => wordMask q a = 255

/-- The writes of a request to line `l`. -/
def lineWrites (q : MemReq) (l : Nat) : List WordWrite :=
  ((reqWords q).filter fun a => plainAddr a / 64 = l).map fun a => { w := a % 64 / 8, mask := wordMask q a, val := carriedWord q a }

/-- The part of a request from line `l` on, as the channel forwards it (R321). -/
def forwardPart (q : MemReq) (l : Nat) : Issue :=
  let base := q.addr / 32 * 32
  let k := (lineBase l - plainAddr base) / 32
  { op := q.op, addr := base + 32 * k, len := q.len - k, first := 2 ^ 32 - 1, last := q.last, data := q.data.drop k
    operands := q.operands, bulk := q.bulk, prio := q.prio, key := q.key }

/-- The words of line `l` as they were read ahead, in memory: what an access to the buffered line sees. -/
def withBuffered (n l : Nat) (s : Dev) : Dev :=
  match (getCh s n).buffer.find? fun b => b.1 = l with
  | none => s
  | some b => memSets s (b.2.zipIdx.map fun x => (lineBase l + 8 * x.2, x.1))

/-- A line of the buffer has an UNCORRECTABLE or poisoned word, or fails its tag (R326); nothing of the examination stays. -/
def lineIsBad (s : Dev) (n l : Nat) : Bool :=
  let s := withBuffered n l s
  let words := (List.range 8).map fun w => decodeWord (memGet s (lineBase l + 8 * w))
  if words.any fun d => d.poison || d.outcome = .uncorrectable then true
  else match rangeAt s 0 (lineBase l) with
    | none => false
    | some k =>
      let r := getRange s k
      if !r.integrity then false
      else
        let ctx : KeyCtx := { mode := .gcm, key := (getSlot s n r.slot).key, rng := some k }
        (openWords s n ctx (lineBase l) [0] 0 true).1.1 = rspBusError

/-- A buffered line leaves unused (R326). -/
def dropBuffered (n l : Nat) (s : Dev) : Dev :=
  if (getCh s n).buffer.any fun b => b.1 = l then
    let s := if lineIsBad s n l then incR s (rDdrStatus n) 31 16 1 else s
    updCh s n fun c => { c with buffer := c.buffer.filter fun b => b.1 ≠ l }
  else s

/-- A line has a merge or atomic under way (R323). -/
def pendingMerge (c : DdrChan) (l : Nat) : Bool :=
  let p := fun (x : DdrEntry) => x.line = l && (x.kind = .mergeRead || x.kind = .mergeWrite)
  c.sub0.reads.any p || c.sub1.reads.any p || c.sub0.writes.any p || c.sub1.writes.any p

/-- Key of a stream tracker. -/
def trackerKey (q : MemReq) : Nat := q.src * 32 + q.port * 8 + q.raStream

/-- A line is to be read ahead: it waits for an entry of its sub-channel, unless it is buffered or on its way. -/
def readAheadLine (n l : Nat) (s : Dev) : Dev :=
  let c := getCh s n
  let going := fun (x : SubChannel) => x.reads.any fun e => e.kind = .ahead && e.line = l
  if c.buffer.any (fun b => b.1 = l) || c.ahead.contains l || going c.sub0 || going c.sub1 then s
  else updCh s n fun c => { c with ahead := c.ahead ++ [l] }

/-- A line has been read ahead into the buffer: corrected outcomes are counted and logged now; a full buffer evicts its least
recently used line (R326). -/
def bufferLine (n l : Nat) (s : Dev) : Dev :=
  let words := burstRead s l
  let s := words.zipIdx.foldl (fun s x =>
    if (decodeWord x.1).outcome = .uncorrectable then s else eccNote s n (lineBase l + 8 * x.2) x.1) s
  let s := match (getCh s n).buffer.getLast? with
    | some b => if 128 ≤ (getCh s n).buffer.length then dropBuffered n b.1 s else s
    | none => s
  updCh s n fun c => { c with buffer := (l, words) :: c.buffer }

/-- A hinted read trains its tracker and may start a read-ahead (R326). -/
def trainTracker (n : Nat) (q : MemReq) (lines : List Nat) (s : Dev) : Dev :=
  let first := lineBase (lines.headD 0)
  let last := lineBase (lines.getLastD 0)
  let key := trackerKey q
  let c := getCh s n
  let old := c.trackers.find? fun t => t.key = key
  let hit : Bool := match old with
    | some t => t.nextLine = localLine s first
    | none => false
  let hits := if hit then (old.map (·.hits)).getD 0 + 1 else 0
  let t : Tracker := { key, nextLine := localLine s last + 1, hits }
  let s := updCh s n fun c => { c with trackers := (t :: c.trackers.filter fun x => x.key ≠ key).take 16 }
  let depth := min 64 (fldR s (rDdrCtrl n) 55 48)
  if hits < 2 then s
  else (List.range depth).foldl (fun s k => match lineAfter s last (k + 1) with
    | some o => readAheadLine n (o / 64) s
    | none => s) s

/-- Serve a buffered line: corrected words were counted when it was read, the others are counted now. -/
def serveBuffered (n : Nat) (ctx : KeyCtx) (l : Nat) (want : List Nat) (hdr : BitVec 64) (s : Dev) :
    (Nat × List (Nat × PWord)) × Dev :=
  let as := (List.range 8).map fun w => lineBase l + 8 * w
  let raw := as.map fun a => (a, memGet s a)
  let s := withBuffered n l s
  let fixed := as.map fun a =>
    let v := memGet s a
    let d := decodeWord v
    (a, if d.outcome = .uncorrectable then v else encodeWord d.data d.poison)
  let r := readLine (memSets s fixed) n ctx (lineBase l) want hdr
  (r.1, updCh (memSets r.2 raw) n fun c => { c with buffer := c.buffer.filter fun b => b.1 ≠ l })

/-- Apply `f` to the transaction `id` of channel `n`. -/
def updTxn (n id : Nat) (f : DdrTxn → DdrTxn) (s : Dev) : Dev :=
  updCh s n fun c => { c with txns := mapIf (fun t => t.id = id) f c.txns }

/-- A line's words have been read. -/
def gotLine (n id l : Nat) (code : Nat) (ws : List (Nat × PWord)) (s : Dev) : Dev :=
  updTxn n id (fun t => { t with
    lines := t.lines.filter (· ≠ l), got := t.got ++ ws.map fun x => (lineBase l + 8 * x.1, x.2)
    code := if t.code = 0 then code else t.code }) s

/-- Data of a transaction's words, keyed by the addresses the request used. -/
def DdrTxn.words (t : DdrTxn) : List (Nat × PWord) := t.got.map fun x => (x.1 + t.req.addr / 2 ^ 42 * 2 ^ 42, x.2)

/-- Transactions that have ended are answered: every line of a write accepted into the write entries, every line of a read
read, and a forwarded part completed; the code is that of the first part that failed (R321, R323). -/
def ddrFinish (n : Nat) (s : Dev) : Dev :=
  let ended := fun (t : DdrTxn) => t.lines.isEmpty && (t.part = .none || t.part = .done)
  let done := (getCh s n).txns.filter ended
  let s := updCh s n fun c => { c with txns := c.txns.filter fun t => !ended t }
  done.foldl (fun s t =>
    let data := if isAtomic t.req.op then atomicParcel t.req t.words else readParcels t.req t.words
    respond (chKey n) t.req (if t.code = 0 then t.partCode else t.code) data s) s

/-- Sub-channel of a line. -/
def subOf (s : Dev) (l : Nat) : Nat := ((ddrPlace s (lineBase l)).map (·.sub)).getD 0

def getSub (c : DdrChan) (k : Nat) : SubChannel := if k = 0 then c.sub0 else c.sub1

def updSub (n k : Nat) (f : SubChannel → SubChannel) (s : Dev) : Dev :=
  updCh s n fun c => if k = 0 then { c with sub0 := f c.sub0 } else { c with sub1 := f c.sub1 }

/-- A sub-channel has room for a read entry, of its 64 (R322). -/
def SubChannel.readRoom (x : SubChannel) : Bool := x.reads.length < 64

/-- It has room for a write entry, of its 32 (R322). A write whose CRC is not yet known to be good keeps its entry (R328). -/
def SubChannel.writeRoom (x : SubChannel) : Bool := x.writes.length + x.last.toList.length < 32

/-- The entries of sub-channel `k` are full: nothing more for it is taken out of the ejection buffer (R322). -/
def subFull (s : Dev) (n k : Nat) : Bool :=
  let c := getCh s n
  let x := getSub c k
  !x.readRoom || !x.writeRoom || c.txns.any fun t => t.waiting.any fun l => subOf s l = k

/-- The channel's own lines among `lines` that belong to a full sub-channel. -/
def meetsFull (s : Dev) (n : Nat) (lines : List Nat) : Bool :=
  lines.any fun l => ddrChannel s (lineBase l) = n && subFull s n (subOf s l)

/-- The lines that a parcel is for: those of its request, or the one of a WDATA parcel whose request is held. -/
def parcelLines (l : List Reasm) (p : Parcel) : List Nat :=
  let h := pHdr p
  if h.op = 7 then
    match l.find? fun r => r.src = h.src && r.port = h.srcPort && r.tag = h.tag with
    | some { req := some q, .. } => [plainAddr ((reqFields q).addr / 32 * 32 + 32 * h.seq) / 64]
    | _ => []
  else
    let f := reqFields p
    let q : MemReq := { src := h.src, port := h.srcPort, tag := h.tag, epoch := 0, bulk := h.bulk, prio := 0, key := 0, op := .rd
                        addr := f.addr, len := f.len, first := f.first, last := f.last, data := [], operands := [] }
    reqLines q

/-- The channel takes a parcel out of its ejection buffer: not one for a sub-channel whose entries are full (R322). -/
def ddrTakes (s : Dev) (n : Nat) (l : List Reasm) (p : Parcel) : Bool :=
  (getCh s n).state ≠ .ready || !meetsFull s n (parcelLines l p)

/-- A held transaction waits for the entries of a sub-channel. -/
def heldWaits (s : Dev) (n src port tag : Nat) : Bool :=
  match held s (chKey n) src port tag with
  | some r => !r.refused && r.req.any fun p => !ddrTakes s n [] p
  | none => false

/-- A line of a transaction is taken into the entries of its sub-channel where there is room and no merge or atomic holds it; a
whole-line write is sealed as it is accepted. -/
def enterLine (n id l : Nat) (s : Dev) : Dev :=
  let c := getCh s n
  match c.txns.find? fun t => t.id = id with
  | none => s
  | some t =>
    let k := subOf s l
    let sub := getSub c k
    let hdr := t.req.hdr (chKey n)
    let entered := fun s => updTxn n id (fun t => { t with waiting := t.waiting.filter (· ≠ l) }) s
    let entry : DdrEntry := { seq := c.nextSeq, txn := id, line := l, kind := .read }
    let next := fun s => updCh s n fun c => { c with nextSeq := c.nextSeq + 1 }
    if pendingMerge c l then s
    else if t.req.op = .rd then
      if c.buffer.any fun b => b.1 = l then
        let r := serveBuffered n t.ctx l (lineWords t.req l) hdr s
        gotLine n id l r.1.1 r.1.2 (entered r.2)
      else if sub.readRoom then
        entered (next (updSub n k (fun x => { x with reads := x.reads ++ [entry] }) s))
      else s
    else
      let s := dropBuffered n l s
      if isWrite t.req.op && wholeLine t.req l then
        if sub.writeRoom then
          let r := sealLine s n t.ctx (lineBase l) t.req.src (lineWrites t.req l) hdr
          let s := entered r.2
          let s := updTxn n id (fun t => { t with lines := t.lines.filter (· ≠ l), code := if t.code = 0 then r.1.1 else t.code }) s
          if r.1.1 ≠ 0 then s
          else next (updSub n k (fun x => { x with writes := x.writes ++ [{ entry with kind := .write, data := r.1.2 }] }) s)
        else s
      else if sub.readRoom then
        entered (next (updSub n k (fun x => { x with reads := x.reads ++ [{ entry with kind := .mergeRead }] }) s))
      else s

/-- A line to be read ahead is taken into the entries, behind the requests (R326). -/
def enterAhead (n l : Nat) (s : Dev) : Dev :=
  let c := getCh s n
  let k := subOf s l
  if pendingMerge c l || !(getSub c k).readRoom then s
  else
    let e : DdrEntry := { seq := c.nextSeq, txn := 0, line := l, kind := .ahead }
    updCh (updSub n k (fun x => { x with reads := x.reads ++ [e] }) s) n fun c =>
      { c with nextSeq := c.nextSeq + 1, ahead := c.ahead.filter (· ≠ l) }

/-- Lines that wait are taken into the entries in the order of acceptance. -/
def fillEntries (n : Nat) (s : Dev) : Dev :=
  let s := (getCh s n).txns.foldl (fun s t => t.waiting.foldl (fun s l => enterLine n t.id l s) s) s
  (getCh s n).ahead.foldl (fun s l => enterAhead n l s) s

/-- Send the parts that other channels serve (R321). -/
def sendParts (n : Nat) (s : Dev) : Dev :=
  (getCh s n).txns.foldl (fun s t =>
    if t.part = .toSend then
      match edgeRequest (chKey n) (.ddrPart n t.id) none false (forwardPart t.req t.partFrom) s with
      | (some c, s) => updTxn n t.id (fun t => { t with part := .done, partCode := c }) s
      | (none, s) => if t.req.op = .wrp then updTxn n t.id (fun t => { t with part := .done }) s
          else updTxn n t.id (fun t => { t with part := .sent }) s
    else s) s

/-- Take the completions of forwarded parts. -/
def takeParts (n : Nat) (s : Dev) : Dev :=
  let k := chKey n
  let mine := (getEp s k).completions
  let s := updEp s k fun e => { e with completions := [] }
  mine.foldl (fun s c => match c.user with
    | .ddrPart _ id => updTxn n id (fun t =>
        let base := lineBase t.partFrom
        let ws := c.data.zipIdx.flatMap fun p => p.1.zipIdx.map fun w => (base + 32 * p.2 + 8 * w.2, w.1)
        { t with part := .done, partCode := c.code, got := t.got ++ ws }) s
    | _ => s) s

/-- The channel accepts a request (R321, R333, R338). -/
def ddrAccept (n : Nat) (q : MemReq) (s : Dev) : Dev :=
  let k := chKey n
  if isAtomic q.op && !atomicOk q && !enablesNone q.len q.first q.last then respond k q rspBadRequest [] s
  else
    match engineCheck s n 0 (askerOf q k) q.op q.addr q.len q.first q.last with
    | ((some c, _), s) => respond k q c [] s
    | ((none, ctx), s) =>
      if enablesNone q.len q.first q.last then answerNone k q s
      else
        let lines := reqLines q
        let own := lines.filter fun l => ddrChannel s (lineBase l) = n
        let far := lines.filter fun l => ddrChannel s (lineBase l) ≠ n
        let id := (getCh s n).nextId
        let t : DdrTxn := { id, req := q, ctx, lines := own, waiting := own, part := if far.isEmpty then .none else .toSend
                            partFrom := far.headD 0 }
        let s := updCh s n fun c => { c with txns := c.txns ++ [t], nextId := id + 1 }
        let s := if q.op = .rd && q.raHint then trainTracker n q own s else s
        ddrFinish n (fillEntries n (sendParts n s))

/-- A channel performs a request of the network (R47, R327). -/
def ddrRequest (n src port tag : Nat) (s : Dev) : Dev :=
  let k := chKey n
  let s := gatherWhile k (ddrTakes s n) s
  if (getCh s n).state = .selfRefresh || heldWaits s n src port tag then s
  else match takeRequest k src port tag (ddrEarly s n) s with
    | (.perform q, s) => ddrAccept n q s
    | (_, s) => s

/-! ## Scheduler (R322 to R324) -/

/-- Bank of a line within its sub-channel: 32·rank + 4·group + bank. -/
def bankOf (s : Dev) (l : Nat) : Nat :=
  match ddrPlace s (lineBase l) with
  | some p => 32 * p.rank + 4 * p.bg + p.bank
  | none => 0

def rowOf (s : Dev) (l : Nat) : Nat := ((ddrPlace s (lineBase l)).map (·.row)).getD 0

/-- The open row of a bank. -/
def openRow (x : SubChannel) (b : Nat) : Option Nat := tGet (fun _ => none) x.openRows b

def setRow (x : SubChannel) (b : Nat) (r : Option Nat) : SubChannel :=
  { x with openRows := tSet (fun _ => none) x.openRows b r }

/-- A read, merge or atomic waits for an accepted write of its line (R323). -/
def mustWait (x : SubChannel) (e : DdrEntry) : Bool := x.writes.any fun w => w.line = e.line

/-- The entries that may be issued: of writes all, of reads those that R323 does not hold back; none of a rank whose write timing is
being retrained (R316). -/
def candidates (s : Dev) (c : DdrChan) (k : Nat) (x : SubChannel) (write : Bool) : List DdrEntry :=
  let merging := fun (e : DdrEntry) => e.kind = .ahead && x.reads.any fun r => r.kind = .mergeRead && r.line = e.line
  let l := if write then x.writes else x.reads.filter fun e => !mustWait x e && !merging e
  l.filter fun e => !c.retrain.contains (4 * k + bankOf s e.line / 32)

/-- An access that is not in the entries yet waits for the write of a merge or atomic (R323). -/
def mergeAwaited (txns : List DdrTxn) (x : SubChannel) : Bool :=
  x.writes.any fun w => w.kind = .mergeWrite && txns.any fun t => t.waiting.contains w.line

/-- Whether the scheduler is in write mode in this cycle. -/
def schedMode (txns : List DdrTxn) (x : SubChannel) : Bool :=
  if 24 ≤ x.writes.length || x.reads.any (mustWait x) || mergeAwaited txns x then true
  else if x.writes.length ≤ 8 then false
  else x.writeMode

/-- A write's column command: the entry is kept, with the words that it replaced, until its CRC is known to be good (R328). -/
def issueWrite (n k : Nat) (e : DdrEntry) (s : Dev) : Dev :=
  let old := e.data.map fun x => (x.1, memGet s x.1)
  memSets (updSub n k (fun x => { x with last := some (e, old) }) s) e.data

/-- No alert came for the write issued last: it has passed (R328). -/
def writePassed (x : SubChannel) : SubChannel := if x.last.isSome then { x with last := none, wcrcRun := 0 } else x

/-- Perform the column command of an entry, which leaves its queue. -/
def columnCommand (n k : Nat) (e : DdrEntry) (s : Dev) : Dev :=
  let out := fun s => updSub n k (fun x => { x with
    reads := x.reads.filter fun y => y.seq ≠ e.seq, writes := x.writes.filter fun y => y.seq ≠ e.seq }) s
  match (getCh s n).txns.find? fun t => t.id = e.txn, e.kind with
  | some t, .read =>
    let r := readLine s n t.ctx (lineBase e.line) (lineWords t.req e.line) (t.req.hdr (chKey n))
    gotLine n t.id e.line r.1.1 r.1.2 (out r.2)
  | some t, .mergeRead =>
    let hdr := t.req.hdr (chKey n)
    let put := fun (code : Nat) (got : List (Nat × PWord)) (stores : List (Nat × PWord)) s =>
      let s := gotLine n t.id e.line code got (out s)
      if stores.isEmpty then s
      else updSub n k (fun x => { x with writes := x.writes ++ [{ e with kind := .mergeWrite, data := stores }] }) s
    if isAtomic t.req.op then
      let op := fun j => (decodeWord (nth 0 t.req.operands j)).data
      let w := t.req.addr % 64 / 8
      let r := atomicLine s n t.ctx (lineBase e.line) w t.req.op (op 0) (op 1) hdr
      put r.1.1 [(w, r.1.2.1)] r.1.2.2 r.2
    else
      let r := sealLine s n t.ctx (lineBase e.line) t.req.src (lineWrites t.req e.line) hdr
      put r.1.1 [] r.1.2 r.2
  | _, .write => issueWrite n k e (out s)
  | _, .mergeWrite => issueWrite n k e (out s)
  | _, .ahead => bufferLine n e.line (out s)
  | none, _ => out s

/-- The activate count of a bank has reached the threshold at which its device requires an RFM (R324). -/
def rfmDue (c : DdrChan) (key : Nat) : Bool := 0 < c.rfmAt && c.rfmAt ≤ tGet (fun _ => 0) c.activates key

/-- A bank is given an RFM: it counts on from what is past the threshold (assumption 150). -/
def rfmBank (n key : Nat) (s : Dev) : Dev := updCh s n fun c => { c with activates := tUpd (fun _ => 0) c.activates key (· - c.rfmAt) }

/-- A bank is activated for its oldest entry, or given an RFM instead where it requires one (R324). -/
def activateBank (n k b : Nat) (row : Option Nat) (s : Dev) : Dev :=
  let key := 128 * k + b
  if rfmDue (getCh s n) key then rfmBank n key s
  else
    let s := updSub n k (fun x => setRow { x with lastBank := b, run := 0 } b row) s
    updCh s n fun c => { c with activates := tUpd (fun _ => 0) c.activates key (· + 1) }

/-- One controller cycle of a sub-channel: the banks that meet the activate and precharge timing come with the cycle. A rank in
power-down or self-refresh with a candidate is woken instead (R325). -/
def subCycle (n k : Nat) (ready : List Nat) (s : Dev) : Dev :=
  let s := updSub n k writePassed s
  let c := getCh s n
  let x := getSub c k
  let mode := schedMode c.txns x
  let s := updSub n k (fun x => { x with writeMode := mode }) s
  let cand := candidates s c k x mode
  let asleep := fun (e : DdrEntry) => tGet (fun _ => 0) c.power (bankOf s e.line / 32) ≠ 0
  match cand.find? asleep with
  | some e => updCh s n fun c => { c with power := tSet (fun _ => 0) c.power (bankOf s e.line / 32) 0 }
  | none =>
    let oldest := fun (b : Nat) => cand.find? fun e => bankOf s e.line = b
    let banks := (cand.map fun e => bankOf s e.line).eraseDups
    let hit := fun (e : DdrEntry) =>
      let b := bankOf s e.line
      (oldest b).any (fun o => o.seq = e.seq) && openRow x b = some (rowOf s e.line) &&
        (x.runBank ≠ b || x.run < 4 || banks.length < 2)
    match cand.find? hit with
    | some e =>
      let b := bankOf s e.line
      columnCommand n k e (updSub n k (fun x => { x with runBank := b, run := if x.runBank = b then x.run + 1 else 1 }) s)
    | none =>
      let order := (List.range 128).map fun i => (x.lastBank + 1 + i) % 128
      match order.find? fun b => banks.contains b && ready.contains b &&
          (match oldest b with
          | some e => openRow x b ≠ some (rowOf s e.line)
          | none => false) with
      | none => s
      | some b =>
        if (openRow x b).isSome then updSub n k (fun x => setRow x b none) s
        else activateBank n k b ((oldest b).map fun e => rowOf s e.line) s

/-- One controller cycle of a channel (R322). -/
def ddrCycle (n : Nat) (ready0 ready1 : List Nat) (s : Dev) : Dev :=
  let s := sendParts n (takeParts n s)
  let s := if (getCh s n).state = .ready && pllRuns s (19 + n) then
      fillEntries n (subCycle n 1 ready1 (subCycle n 0 ready0 (fillEntries n s)))
    else s
  ddrFinish n s

/-- A channel issues commands. -/
def ddrCommands (s : Dev) (n : Nat) : Bool := (getCh s n).state = .ready || (getCh s n).state = .filling

/-- The refresh interval expires (R324): postponed, at most 4 times and only while reads are queued, or issued with those
postponed; the refreshed banks close their rows. The banks of `rfm` that require an RFM are given one with the refresh, and close theirs. -/
def ddrRefresh (n bank : Nat) (rfm : List Nat) (s : Dev) : Dev :=
  let c := getCh s n
  if !ddrCommands s n then s
  else if (!c.sub0.reads.isEmpty || !c.sub1.reads.isEmpty) && c.postponed < 4 then
    updCh s n fun c => { c with postponed := c.postponed + 1 }
  else
    let all := !bitR s (rDdrCtrl n) 0
    let due := rfm.eraseDups.filter (rfmDue c)
    let close := fun (k : Nat) (x : SubChannel) =>
      { x with openRows := x.openRows.filter fun e => !(all || e.1 % 4 = bank || due.contains (128 * k + e.1)) }
    due.foldl (fun s key => rfmBank n key s)
      (updCh s n fun c => { c with postponed := 0, sub0 := close 0 c.sub0, sub1 := close 1 c.sub1 })

/-- A rank has no queued entry. -/
def rankIdle (s : Dev) (n rank : Nat) : Bool :=
  let c := getCh s n
  (c.sub0.reads ++ c.sub0.writes ++ c.sub1.reads ++ c.sub1.writes).all fun e => bankOf s e.line / 32 ≠ rank

/-- Close every row of a rank. -/
def closeRank (rank : Nat) (x : SubChannel) : SubChannel := { x with openRows := x.openRows.filter fun e => e.1 / 32 ≠ rank }

/-- A rank enters power-down (1) or self-refresh (2) (R325). -/
def rankSleep (n rank level : Nat) (s : Dev) : Dev :=
  let on := if level = 1 then fldR s (rDdrCtrl n) 39 24 ≠ 0 else fldR s (rDdrCtrl n) 47 40 ≠ 0
  let c := getCh s n
  if c.state = .ready && on && rank < c.ranks && rankIdle s n rank && tGet (fun _ => 0) c.power rank < level then
    updCh s n fun c => { c with power := tSet (fun _ => 0) c.power rank level
                                sub0 := closeRank rank c.sub0, sub1 := closeRank rank c.sub1 }
  else s

/-- The controller reads the DQS interval oscillators (R316): a sub-channel and rank with a device whose count has drifted by more
than 2 % from its value at training has its write timing retrained, which trains it at the counts just read. -/
def dqsCheck (n : Nat) (counts : List DqsCount) (s : Dev) : Dev :=
  let c := getCh s n
  let place := fun (d : DqsCount) => 4 * d.sub.toNat + d.rank.val
  let key := fun (d : DqsCount) => 16 * place d + d.device.val
  let trained := fun d => (c.dqs.find? fun x => x.1 = key d).map (·.2)
  let drifted := fun (d : DqsCount) => match trained d with
    | some v => v < 50 * (max v d.count.toNat - min v d.count.toNat)
    | none => false
  let places := ((counts.filter fun d => d.rank.val < c.ranks && drifted d).map place).eraseDups
  if !ddrCommands s n || fldR s (rDdrCtrl n) 23 16 = 0 then s
  else updCh s n fun c => { c with
    retrain := (c.retrain ++ places).eraseDups
    dqs := counts.foldl (fun t d => if places.contains (place d) then tSet (fun _ => 0) t (key d) d.count.toNat else t) c.dqs }

/-! ## Freeze, reset, service (R315, R320, R329, R330, R505) -/

/-- Every outstanding request is answered with a code; one whose forwarded part is awaited is answered when that part
completes. -/
def answerAll (n code : Nat) (s : Dev) : Dev :=
  let clear := fun (x : SubChannel) => { x with reads := [], writes := [], last := none, wcrcRun := 0 }
  let s := updCh s n fun c => { c with
    sub0 := clear c.sub0, sub1 := clear c.sub1, retrain := []
    txns := c.txns.map fun t => { t with lines := [], waiting := [], code, part := if t.part = .toSend then .done else t.part } }
  ddrFinish n s

/-- The buffer and trackers are emptied (R326). -/
def emptyAhead (n : Nat) (s : Dev) : Dev :=
  let stop := fun (x : SubChannel) => { x with reads := x.reads.filter fun e => e.kind ≠ .ahead }
  updCh s n fun c => { c with buffer := [], trackers := [], ahead := [], sub0 := stop c.sub0, sub1 := stop c.sub1 }

/-- A channel freezes (R329). -/
def ddrFreeze (n cause : Nat) (at' : DdrCmdAt) (s : Dev) : Dev :=
  let filling := decide ((getCh s n).state = .filling)
  let addr := at'.addr.toNat / 64 * 64
  let s := if filling then setR s rFill (16 + n) (16 + n) 1 else s
  let s := updCh s n fun c => { c with state := .frozen }
  let s := emptyAhead n (answerAll n (if filling then rspNotInit else rspChannelFrozen) s)
  let r := rDdrFreeze n
  let s := if bitR s r 63 then s
    else putR (putR s r (BitVec.ofNat 64 (2 ^ 63 + cause * 2 ^ 60 + at'.sub.toNat * 2 ^ 59 + at'.rank.val * 2 ^ 57 + addr)))
      (r + 8) (BitVec.ofNat 64 at'.command.toNat)
  raiseU s fltDdrFrozen (n * 2 ^ 61 + cause * 2 ^ 58 + filling.toNat * 2 ^ 57 + at'.sub.toNat * 2 ^ 56 + at'.rank.val * 2 ^ 54 +
    addr) (n / 2)

/-- A command/address parity alert (R328, R329); one during training belongs to training (R330). -/
def caParityAlert (n : Nat) (at' : DdrCmdAt) (s : Dev) : Dev := if ddrCommands s n then ddrFreeze n 0 at' s else s

/-- The write issued last failed its CRC: its words are as before, and its entry is the next of its bank again (R328). -/
def repeatWrite (n k run : Nat) (s : Dev) : Dev :=
  let again := fun (x : SubChannel) => { x with writes := (x.last.map (·.1)).toList ++ x.writes, last := none, wcrcRun := run }
  let old := ((getSub (getCh s n) k).last.map (·.2)).getD []
  memSets (updSub n k again s) old

/-- A write CRC alert of a sub-channel: the write is repeated, and after wcrc_retries failures in a row the channel freezes (R328). -/
def writeCrcAlert (n : Nat) (at' : DdrCmdAt) (s : Dev) : Dev :=
  if !ddrCommands s n then s
  else
    let run := (getSub (getCh s n) at'.sub.toNat).wcrcRun + 1
    let s := repeatWrite n at'.sub.toNat run s
    if max 1 (fldR s (rDdrCtrl n) 59 56) ≤ run then ddrFreeze n 1 at' s else s

/-- The contents of a channel or die are lost to a fill. -/
def contentsLost (u : Nat) (s : Dev) : Dev :=
  let s := { s with enc := { s.enc with fills := s.enc.fills.map fun f => { f with gone := u :: f.gone } } }
  if u < 8 then updCh s u fun c => { c with arr := [] } else updDie s (u - 8) fun d => { d with arr := [] }

/-- DDR_MAP_CFG.busy falls once every in-service channel is READY (R320). -/
def mapSettled (s : Dev) : Dev :=
  if (liveChannels s).all fun n => (getCh s n).state = .ready then setR s rDdrMapCfg 61 61 0 else s

/-- Event 1 of a channel reset (R330), and the loss of ranges that goes with it where `cause` says so (R355). -/
def resetChannel (n : Nat) (s : Dev) : Dev :=
  let s := updCh s n fun c => { c with state := .resetting, boot := true, resetAfterWarm := false, power := [], activates := []
                                       postponed := 0 }
  let s := emptyAhead n (answerAll n rspChannelReset s)
  let closed := fun (x : SubChannel) => { x with openRows := [] }
  let s := updCh s n fun c => { c with sub0 := closed c.sub0, sub1 := closed c.sub1 }
  incR (setR (contentsLost n s) rFill n n 0) (rDdrStatus n) 15 0 1

/-- A write of DDR_CH_CTRL_n.reset (R330): ignored for a channel out of service. -/
def channelReset (n : Nat) (s : Dev) : Dev :=
  if ddrOut s n then s else loseRanges 0 0 n (resetChannel n s)

/-- Layout of region 0 for the channels in service. -/
def region0 (s : Dev) : DdrLayout :=
  match ddrRegions s with
  | r :: _ => layoutFor s r (nth 0 r.chans 0)
  | [] => { nc := 0, cb := 7, rb := 0 }

/-- A mapping takes force: every in-service channel but `keep` is reset and refilled (R320). -/
def remapAll (keep : Option Nat) (s : Dev) : Dev :=
  ((liveChannels s).filter fun n => some n ≠ keep).foldl (fun s n => resetChannel n s) s

/-- The interleave is recomputed with the current masks, or with the default ones where those are invalid for it (R320). -/
def recompute (keep : Option Nat) (s : Dev) : Dev :=
  let bad := !s.mem.map.useDefault && ((region0 s).badMask s.mem.map.masks).isSome
  let s := if bad then setR { s with mem := { s.mem with map := { s.mem.map with useDefault := true } } } rDdrMapCfg 62 62 1 else s
  remapAll keep s

/-- The masks as written. -/
def writtenMasks (s : Dev) : List Nat := (List.range 11).map fun m => fldR s (rDdrMask m) 41 0

/-- A write of DDR_MAP_CFG.apply (R320). -/
def mapApply (s : Dev) : Dev :=
  let dflt := bitR s rDdrMapCfg 8
  let bad := if dflt then none else (region0 s).badMask (writtenMasks s)
  if bitR s rDdrMapCfg 61 then setR s rDdrMapCfg 62 62 1
  else match bad with
    | some m => setR (setR s rDdrMapCfg 62 62 1) rDdrMapCfg 3 0 m
    | none =>
      let masks := writtenMasks s
      let s := { s with mem := { s.mem with map := { masks, useDefault := dflt } } }
      mapSettled (loseRanges 0 3 0 (remapAll none (setR s rDdrMapCfg 61 61 1)))

/-- A channel leaves service (R504): outstanding requests are answered, and after its first fill the interleave is recomputed. -/
def ddrLeave (n : Nat) (cause : OutCause) (s : Dev) : Dev :=
  let first := (getCh s n).firstFill
  let already := ddrOut s n
  let s := updCh s n fun c => { c with state := .outOfService, retry := false }
  let s := emptyAhead n (answerAll n rspChannelReset s)
  let s := { s with units := { s.units with
    ddr := (n, cause) :: s.units.ddr.filter fun e => e.1 ≠ n
    generation := if already then s.units.generation else (s.units.generation + 1) % 65536 } }
  if already then s
  else
    let s := loseRanges 0 1 n s
    mapSettled (if first then recompute none s else s)

/-- What R313 does not support of a population: the reason of FLT_DDR_UNSUPPORTED (R488). -/
def spdReason (d : DdrSpd) : Option Nat :=
  if !d.readable then some 7
  else if !d.moduleOk then some 1
  else if d.width ≠ 4 && d.width ≠ 8 then some 2
  else if d.density ≠ 16 && d.density ≠ 32 then some 3
  else if d.banks ≠ 32 then some 4
  else if d.ranks ≠ 1 && d.ranks ≠ 2 && d.ranks ≠ 4 then some 5
  else if d.rate < 32 || 64 < d.rate || d.rate % 4 ≠ 0 then some 6
  else none

/-- Capacity of a logical rank in GiB (R313). -/
def rankGib (d : DdrSpd) : Nat :=
  if d.width = 4 then (if d.density = 16 then 32 else 64) else (if d.density = 16 then 16 else 32)

/-- A channel has read its SPD device and completes boot training (R314, R315): its fill begins. -/
def ddrTrained (n : Nat) (d : DdrSpd) (s : Dev) : Dev :=
  let c := getCh s n
  if !((c.state = .training && c.boot) || c.state = .resetting) || !pllRuns s (19 + n) || s.power.warm.isSome then s
  else match spdReason d with
    | some r => raiseU (ddrLeave n .unsupported s) fltDdrUnsupported (n * 2 ^ 61 + r) (n / 2)
    | none =>
      let cap := rankGib d * d.ranks
      let t := updCh s n fun c => { c with state := .filling, cap, ranks := d.ranks, x8 := d.width = 8, gb32 := d.density = 32
                                           rate := d.rate, rfmAt := d.rfmAt
                                           dqs := d.dqs.foldl (fun t x => tSet (fun _ => 0) t
                                             (16 * (4 * x.sub.toNat + x.rank.val) + x.device.val) x.count.toNat) [] }
      contentsLost n (if populatedGib t = populatedGib s then t else bumpMap t)

/-- A channel does not complete training, or a retraining (R315, R316, R331). -/
def ddrTrainFails (n sub rank step : Nat) (s : Dev) : Dev :=
  let c := getCh s n
  let ok := if step = 7 then ddrCommands s n || (c.state = .training && !c.boot) else c.state = .training || c.state = .resetting
  if !ok then s
  else raiseU (ddrLeave n (if step = 7 then .retraining else .train) s) fltDdrTrain
    (n * 2 ^ 61 + sub * 2 ^ 60 + rank * 2 ^ 58 + step) (n / 2)

/-- The fill of a channel ends (R47, R330, R505). -/
def ddrFilled (n : Nat) (s : Dev) : Dev :=
  if (getCh s n).state ≠ .filling then s
  else
    let back := (getCh s n).retry
    let s := setR (setR s rFill n n 1) rFill (16 + n) (16 + n) 0
    let s := updCh s n fun c => { c with state := .ready, boot := false, firstFill := true, retry := false }
    if back then
      let s := { s with units := { s.units with ddr := s.units.ddr.filter fun e => e.1 ≠ n
                                                generation := (s.units.generation + 1) % 65536 } }
      mapSettled (recompute (some n) (loseRanges 0 2 n s))
    else mapSettled s

/-- A write of UNIT_CTRL.ddr_retry for channel `n` (R505). -/
def ddrRetry (n : Nat) (s : Dev) : Dev :=
  match s.units.ddr.find? fun e => e.1 = n with
  | none => s
  | some e =>
    if e.2 = .decoder || (getCh s n).retry then s
    else updCh (loseRanges 0 0 n (resetChannel n s)) n fun c => { c with retry := true }

/-! ## Warm reset (R331) -/

/-- A READY channel issues every write it has accepted, with the merges and the atomics whose read has been issued, and drops its
reads; its ranks enter self-refresh. -/
def ddrWarmBegin (n : Nat) (s : Dev) : Dev :=
  let c := getCh s n
  match c.state with
  | .ready =>
    let merges := (c.sub0.reads.map (fun e => ((0 : Nat), e)) ++ c.sub1.reads.map (fun e => ((1 : Nat), e))).filter fun x =>
      x.2.kind = .mergeRead && (c.txns.any fun t => t.id = x.2.txn && isWrite t.req.op)
    let drain := fun s => [0, 1].foldl (fun s k => (getSub (getCh s n) k).writes.foldl (fun s e => columnCommand n k e s) s) s
    let s := drain (merges.foldl (fun s x => columnCommand n x.1 x.2 s) (drain s))
    let clear := fun (x : SubChannel) => { x with reads := [], writes := [], openRows := [], last := none, wcrcRun := 0 }
    emptyAhead n (updCh s n fun c => { c with state := .selfRefresh, txns := [], sub0 := clear c.sub0, sub1 := clear c.sub1
                                              power := [], retrain := [] })
  | .training => updCh s n fun c => if c.boot then { c with resetAfterWarm := true } else { c with state := .selfRefresh }
  | .frozen | .filling | .resetting => updCh s n fun c => { c with resetAfterWarm := true }
  | _ => s

/-- When the warm reset ends, a channel retrains with its contents kept, or undergoes a channel reset. -/
def ddrWarmEnd (n : Nat) (s : Dev) : Dev :=
  let c := getCh s n
  if c.resetAfterWarm then
    loseRanges 0 0 n (resetChannel n s)
  else if c.state = .selfRefresh then updCh s n fun c => { c with state := .training, boot := false }
  else s

/-- A retraining has ended: ZQ calibration and read training after a warm reset (R331), or the write timing of ranks (R316). -/
def ddrRetrained (n : Nat) (s : Dev) : Dev :=
  let c := getCh s n
  if c.state = .training && !c.boot && s.power.warm.isNone then mapSettled (updCh s n fun c => { c with state := .ready })
  else if ddrCommands s n then updCh s n fun c => { c with retrain := [] }
  else s

/-! ## Completing what is accepted (R336, R356) -/

/-- The entry of a channel accepted first is performed, with the write of a merge or atomic. -/
def ddrPerformFirst (n : Nat) (s : Dev) : Dev :=
  let c := getCh s n
  let all := (c.sub0.reads ++ c.sub0.writes).map (fun e => (0, e)) ++ (c.sub1.reads ++ c.sub1.writes).map fun e => (1, e)
  match all.foldl (fun (o : Option (Nat × DdrEntry)) x =>
      match o with
      | some y => if x.2.seq < y.2.seq then some x else o
      | none => some x) none with
  | some (k, e) => fillEntries n (updSub n k writePassed (columnCommand n k e s))
  | none => s

/-- A READY channel performs everything that it has accepted: each line takes two commands at most. -/
def ddrDrain (n : Nat) (s : Dev) : Dev :=
  let c := getCh s n
  if c.state ≠ .ready then s
  else
    let left := (c.txns.map fun t => t.waiting.length).sum + c.ahead.length + c.sub0.reads.length + c.sub0.writes.length +
      c.sub1.reads.length + c.sub1.writes.length
    ddrFinish n ((List.range (2 * left)).foldl (fun s _ => ddrPerformFirst n s) (fillEntries n s))

end Sys2Proof.Machine
end

