-- ==== Sys2Proof/Machine/Keys.lean ====
section
/-! DEFINITION. Key commands, ranges and the engine registers (R334 to R336, R341, R342, R344, R355 to R360). -/

namespace Sys2Proof.Machine

/-- Codes of R357. -/
def keyErrBusy : Nat := 1
def keyErrLocked : Nat := 2
def keyErrUnwrap : Nat := 3
def keyErrMode : Nat := 4
def keyErrInUse : Nat := 5
def keyErrSlot : Nat := 6
def keyErrSel : Nat := 7
def keyErrAlign : Nat := 8
def keyErrSize : Nat := 9
def keyErrOverlap : Nat := 10
def keyErrState : Nat := 11
def keyErrFused : Nat := 12
def keyErrEntry : Nat := 13

/-- The first code of a list of checks that applies; 0 for none. -/
def firstCode (l : List (Bool × Nat)) : Nat :=
  match l.find? (·.1) with
  | some x => x.2
  | none => 0

/-! ## Wrapped keys (R335) -/

/-- What a wrapped key holds, or the code that refuses it. A device without a device key unwraps nothing (DEDUCED, assumption
19). -/
def unwrapKey (s : Dev) (wrapped : List Word) : Nat × Nat × List Nat :=
  match s.bureau.keys.devKey with
  | none => (keyErrUnwrap, 0, [])
  | some kek =>
    match kwUnwrap kek (wordBytes (wrapped.take 10)) with
    | none => (keyErrUnwrap, 0, [])
    | some p =>
      let h := ofLe (p.take 8)
      let key := (p.drop 8).take 64
      let mode := nbits h 9 8
      if nbits h 7 0 ≠ 0x4B then (keyErrUnwrap, 0, [])
      else if mode = 0 || mode = 3 || h / 1024 ≠ 0 || (mode = 1 && key.take 32 = key.drop 32) ||
          (mode = 2 && (key.drop 32).any fun b => b ≠ 0) then (keyErrMode, 0, [])
      else (0, mode, key)

/-- The engines of a mask. -/
def maskEngines (mask : Nat) : List Nat := bitsOf 12 mask

/-- Engine `e` has slot `n` bound. -/
def slotBound (s : Dev) (n e : Nat) : Bool := (getSlot s e n).bound.isSome

/-- A key command of the mailbox ends with a code. -/
def keyEnd (op code : Nat) (s : Dev) : Dev := mbxEndOp op famKey code [] s

/-- KEY_LOAD with op LOAD (R336, R357). -/
def keyLoad (mask slot : Nat) (wrapped : List Word) (s : Dev) : Dev :=
  let u := unwrapKey s wrapped
  let code := firstCode [(s.enc.reinit.isSome, keyErrBusy), (u.1 ≠ 0, u.1),
    ((maskEngines mask).any (slotBound s slot), keyErrInUse), ((maskEngines mask).isEmpty, keyErrSlot)]
  if code ≠ 0 then keyEnd 0x0401 code s
  else
    let n := s.enc.loads + 1
    let s := { s with enc := { s.enc with loads := n } }
    keyEnd 0x0401 0 ((maskEngines mask).foldl (fun s e => updSlot s e slot fun _ =>
      { mode := if u.2.1 = 1 then .xts else .gcm, key := u.2.2, load := n }) s)

/-- KEY_LOAD with op CLEAR. -/
def keyClear (mask slot : Nat) (s : Dev) : Dev :=
  let code := firstCode [(s.enc.reinit.isSome, keyErrBusy), ((maskEngines mask).any (slotBound s slot), keyErrInUse),
    ((maskEngines mask).isEmpty, keyErrSlot)]
  if code ≠ 0 then keyEnd 0x0401 code s
  else keyEnd 0x0401 0 ((maskEngines mask).foldl (fun s e => updSlot s e slot fun _ => {}) s)

/-! ## Ranges (R337, R344, R356) -/

/-- In-service engines of memory system `m`. -/
def liveEngines (s : Dev) (m : Nat) : List Nat :=
  if m = 0 then liveChannels s else ((List.range 4).filter fun n => !sramOut s n).map (8 + ·)

/-- One KEY_LOAD has loaded slot `n` in every in-service engine of memory system `m`. -/
def slotLoaded (s : Dev) (m n : Nat) : Bool :=
  match (liveEngines s m).map fun e => (getSlot s e n).load with
  | [] => false
  | l :: ls => l ≠ 0 && ls.all (· = l)

/-- Offset of an address in memory system `m`, where it lies in that system's space with no key field. -/
def memOffset (m a : Nat) : Option Nat :=
  if m = 0 then (if a < 2 ^ 42 then some a else none)
  else if 2 ^ 46 ≤ a && a < 2 ^ 46 + 2 ^ 28 then some (a - 2 ^ 46) else none

/-- The engines of an integrity range (R345), where it lies within one region or die. -/
def rangeEngines (s : Dev) (m off size : Nat) : Option (List Nat) :=
  if m = 0 then
    match regionAt s off with
    | none => none
    | some r => if off + size ≤ r.base + r.chans.length * usableGib s * 2 ^ 30 then some r.chans else none
  else if off / 2 ^ 26 = (off + size - 1) / 2 ^ 26 then some [8 + off / 2 ^ 26] else none

/-- Bytes of a range's metadata region. -/
def metaBytes (g : KeyRange) (m : Nat) : Nat :=
  let geo : TreeGeo := { mem := m, base := g.base, size := g.size, metaBase := g.metaBase, engines := g.engines, share := 0 }
  if g.integrity then geo.ways * geo.sliceSize else 0

/-- Two byte intervals meet. -/
def meets (a n b k : Nat) : Bool := a < b + k && b < a + n && n ≠ 0 && k ≠ 0

/-- The populated bytes of memory system `m`. -/
def memBytes (s : Dev) (m : Nat) : Nat := if m = 0 then populated s else 2 ^ 28

/-- The range that a DEFINE describes, and the first code that refuses it (R357). -/
def defineCheck (s : Dev) (m r slot base size metaBase : Nat) : Nat × KeyRange :=
  let k := 8 * m + r
  let e0 := (liveEngines s m).headD 0
  let integrity := decide ((getSlot s e0 slot).mode = .gcm)
  let off := (memOffset m base).getD 0
  let engines := (rangeEngines s m off (max 1 size)).getD []
  let g : KeyRange := { state := if integrity then .initialising else .ready, integrity, slot, base, size
                        metaBase := if integrity then metaBase else 0, engines := if integrity then engines else [] }
  let p := 12 + log2small engines.length
  let mOff := (memOffset m metaBase).getD 0
  let mSize := metaBytes g m
  let others := ((List.range 8).filter (· ≠ r)).map fun i => getRange s (8 * m + i)
  let live := others.filter fun o => o.state ≠ .undefined
  let misaligned := base % 4096 ≠ 0 || size % 4096 ≠ 0 ||
    (integrity && ((memOffset m base).isNone || engines.isEmpty || metaBase % 4096 ≠ 0 ||
      (m = 0 && (off % 2 ^ p ≠ 0 || size % 2 ^ p ≠ 0))))
  let beyond := (memOffset m base).isNone || memBytes s m < off + size ||
    (integrity && ((memOffset m metaBase).isNone || memBytes s m < mOff + mSize))
  let total := (live.filter (·.integrity)).foldl (fun n o => n + o.size) size
  (firstCode [
    ((getRange s k).state = .initialising || s.enc.reinit.isSome, keyErrBusy),
    (bitR s rEncCfg 63, keyErrLocked),
    ((liveEngines s m).any (slotBound s slot), keyErrInUse),
    (!slotLoaded s m slot, keyErrSlot),
    (keySel s m ≠ .range, keyErrSel),
    (misaligned, keyErrAlign),
    (size = 0 || beyond || (integrity && 2 ^ 38 < total), keyErrSize),
    (live.any (fun o => meets base size o.base o.size || meets base size o.metaBase (metaBytes o m) ||
      meets metaBase mSize o.base o.size || meets metaBase mSize o.metaBase (metaBytes o m)) ||
      meets metaBase mSize base size, keyErrOverlap),
    ((getRange s k).state ≠ .undefined, keyErrState)], g)

/-- Words that a fill covers are no longer listed. -/
def unlist (f : TreeFill) (s : Dev) : Dev :=
  let keep := fun (u base : Nat) (l : Tbl (Option PWord)) => tDrop (fun w => (fillWordAt s f u (base + 8 * w)).isSome) l
  { s with
    enc := { s.enc with fills := f :: s.enc.fills }
    mem := { s.mem with
      ddr := tUpdAll chDflt s.mem.ddr (List.range 8) fun n c => { c with arr := keep n 0 c.arr }
      sram := tUpdAll dieDflt s.mem.sram (List.range 4) fun n d => { d with arr := keep (8 + n) (sramBase n) d.arr } } }

/-- Engine `e` completes the accesses of range `k` that it has accepted (R336): a DDR5 channel everything that it holds (DEDUCED,
assumption 144). -/
def drainEngine (k : Nat) (s : Dev) (e : Nat) : Dev :=
  if e < 8 then ddrDrain e s else sramComplete (e - 8) (fun a => a.ctx.rng = some k) s

/-- An engine writes its share of a new integrity range (R351, R356): counters at hw, then hw one more. Where hw is the value that no
counter takes, nothing is written and the range is exhausted (DESIGN CHOICE, assumption 145). -/
def initShare (k : Nat) (s : Dev) (e : Nat) : Dev :=
  let g := getRange s k
  let geo := shareOf s e k
  let sl := getSlot s e g.slot
  let s := if e < 8 then
      let c := getCh s e
      flushEntries s e ((c.sub0.writes ++ c.sub1.writes).map (·.line))
    else s
  let f : TreeFill := { mem := geo.mem, base := geo.base, size := geo.size, metaBase := geo.metaBase, engines := geo.engines
                        share := geo.share, level := 0, idx := 0, parent := sl.hw, major := sl.hw, key := sl.key }
  if sl.hw = counterLimit then exhaust s e k geo.slice 0
  else
    let s := unlist f s
    let s := updEng s e fun x => { x with
      roots := tSet (fun _ => []) x.roots k (List.replicate (geo.nodes geo.top) sl.hw) }
    updSlot s e g.slot fun x => { x with hw := sl.hw + 1 }

/-- KEY_RANGE DEFINE. -/
def rangeDefine (m r slot base size metaBase : Nat) (s : Dev) : Dev :=
  let c := defineCheck s m r slot base size metaBase
  if c.1 ≠ 0 then keyEnd 0x0402 c.1 s
  else
    let k := 8 * m + r
    let s := updRange s k fun _ => c.2
    let s := if c.2.integrity then
        let s := (liveEngines s m).foldl (fun s e => updSlot s e slot fun x => { x with bound := some k }) s
        c.2.engines.foldl (initShare k) s
      else s
    keyEnd 0x0402 0 s

/-- Every share of an integrity range has been written (R356). -/
def rangeReady (m r : Nat) (s : Dev) : Dev :=
  if (getRange s (8 * m + r)).state = .initialising then updRange s (8 * m + r) fun g => { g with state := .ready } else s

/-- Forget what engine `e` holds of range `k`. -/
def forgetRange (k : Nat) (s : Dev) (e : Nat) : Dev :=
  updEng s e fun g => { g with
    cache := g.cache.filter fun n => n.rng ≠ k, unknown := g.unknown.filter fun u => u.rng ≠ k
    lostShares := g.lostShares.filter fun x => x.1 ≠ k, roots := tSet (fun _ => []) g.roots k [] }

/-- KEY_RANGE DISABLE. -/
def rangeDisable (m r : Nat) (s : Dev) : Dev :=
  let k := 8 * m + r
  let g := getRange s k
  let code := firstCode [(g.state = .initialising || s.enc.reinit.isSome, keyErrBusy), (bitR s rEncCfg 63, keyErrLocked),
    (g.state = .undefined, keyErrState)]
  if code ≠ 0 then keyEnd 0x0402 code s
  else
    let s := (List.range 12).foldl (forgetRange k) (g.engines.foldl (drainEngine k) s)
    let s := (List.range 12).foldl (fun s e =>
      if (getSlot s e g.slot).bound = some k then updSlot s e g.slot fun x => { x with bound := none } else s) s
    keyEnd 0x0402 0 (updRange s k fun _ => {})

/-- KEY_RANGE REINIT: accepted, it runs until REINIT_COMPLETE. `share` is the engine's number in the order of R345 (DEDUCED,
assumption 20). -/
def rangeReinit (m r share level idx : Nat) (s : Dev) : Dev :=
  let k := 8 * m + r
  let g := getRange s k
  let geo := shareOf s (nth 99 g.engines share) k
  let code := firstCode [(g.state = .initialising || s.enc.reinit.isSome, keyErrBusy),
    (g.state ≠ .ready || !g.integrity || g.engines.length ≤ share || level = 0 || geo.top < level || geo.nodes level ≤ idx,
      keyErrState)]
  if code ≠ 0 then keyEnd 0x0402 code s
  else
    let s := drainEngine k s (nth 99 g.engines share)
    { s with enc := { s.enc with reinit := some { rng := k, share, level, idx } } }

/-- The counter of a node in its parent or the root is incremented; none where its parent cannot be verified, or where the counter
would take the value that no counter takes (R351): the range is then exhausted. -/
def bumpCounter (e k h i : Nat) (s : Dev) : Option Nat × Dev :=
  let geo := shareOf s e k
  if geo.top ≤ h then
    let v := rootCounter s e k i + 1
    if v = counterLimit then (none, exhaust s e k (geo.nodeAddr h i) 0) else (some v, raiseHw (setRoot s e k i v) e k v)
  else match ensureNode s e k (h + 1) (i / 8) 0 with
    | (.ok pv, s) =>
      let j := i % 8
      let v := nodeCounter pv j + 1
      if v = counterLimit then (none, exhaust s e k (geo.nodeAddr h i) 0)
      else
        let s := cachePut s e { rng := k, level := h + 1, idx := i / 8, val := putFld pv (56 * j + 55) (56 * j) v, dirty := true }
        (some v, raiseHw s e k v)
    | (_, s) => (none, s)

/-- Every line and node under the named node has been rewritten (R356). -/
def reinitDone (s : Dev) : Dev :=
  match s.enc.reinit with
  | none => s
  | some x =>
    let s := { s with enc := { s.enc with reinit := none } }
    let g := getRange s x.rng
    let e := nth 99 g.engines x.share
    let geo := shareOf s e x.rng
    let hw := (getSlot s e g.slot).hw
    if g.state ≠ .ready then keyEnd 0x0402 keyErrState s
    else match bumpCounter e x.rng x.level x.idx s with
      | (none, s) => keyEnd 0x0402 keyErrState s
      | (some v, s) =>
        let f : TreeFill := { mem := geo.mem, base := geo.base, size := geo.size, metaBase := geo.metaBase
                              engines := geo.engines, share := geo.share, level := x.level, idx := x.idx, parent := v
                              major := hw, key := (getSlot s e g.slot).key }
        let s := unlist f s
        let s := updEng s e fun y => { y with
          cache := y.cache.filter fun n => !(n.rng = x.rng && fillHasNode f n.level n.idx)
          unknown := y.unknown.filter fun u => !(u.rng = x.rng && fillHasNode f u.level u.idx) }
        keyEnd 0x0402 0 (raiseHw s e x.rng hw)

/-! ## Registers (R341, R342, R360) -/

/-- A range of memory system `m` is defined. -/
def anyRange (s : Dev) (m : Nat) : Bool := (List.range 8).any fun r => (getRange s (8 * m + r)).state ≠ .undefined

/-- A write to ENC_CFG under a bit mask (R342). -/
def encCfgWrite (mask data : Nat) (s : Dev) : Dev :=
  let locked := bitR s rEncCfg 63
  let hits := fun hi lo => nbits mask hi lo ≠ 0
  let ignore0 := hits 17 16 && anyRange s 0
  let ignore1 := hits 21 20 && anyRange s 1
  let drop := (if ignore0 then 3 * 2 ^ 16 else 0) ||| (if ignore1 then 3 * 2 ^ 20 else 0)
  let m := mask ^^^ (mask &&& drop)
  let s := putR s rEncCfg (BitVec.ofNat 64 (writeFields locked (regFields rEncCfg) m data (getR s rEncCfg).toNat))
  if ignore0 || ignore1 then setR s rEncCfg 62 62 1 else s

/-- A write of 1 to ENC_CFG.lock. -/
def encLock (s : Dev) : Dev := setR s rEncCfg 63 63 1

/-- A write of 1 to RIGHTS_n.hits_clr (R341). -/
def hitsClr (n : Nat) (s : Dev) : Dev := setR s (rRights n 3) 31 0 0

/-- A write to word `w` of RIGHTS_n under a bit mask. -/
def rightsWrite (n w mask data : Nat) (s : Dev) : Dev :=
  let a := rRights n w
  let s := putR s a (BitVec.ofNat 64 (writeFields (bitR s rEncCfg 63) (regFields a) mask data (getR s a).toNat))
  if w = 3 && (mask &&& data).testBit 63 then hitsClr n s else s

/-- A write of 1 to ENC_STATUS_e.clr; `inc` tells which counts increment in the same cycle (R360). -/
def encStatusClr (e : Nat) (inc : BitVec 6) (s : Dev) : Dev :=
  let a := rEncStatus e 0
  let b := rEncStatus e 1
  let s := clrCount (clrCount (clrCount s a 47 32 (bit inc 0)) a 31 16 (bit inc 1)) a 15 0 (bit inc 2)
  clrCount (clrCount (clrCount s b 63 48 (bit inc 3)) b 47 32 (bit inc 4)) b 31 0 (bit inc 5)

end Sys2Proof.Machine
end

