-- ==== Sys2Proof/Machine/Pcie.lean ====
section
/-! DEFINITION. The PCI Express controllers (R442 to R456): links, host accesses at BAR2 and BAR4, the outbound window, DMA
engines. -/

namespace Sys2Proof.Machine

/-- Endpoint of the edge router of Pq. -/
def pcieKey (q : Nat) : Nat := 4 * pcieAddr q

/-- Pq is in service (R504). -/
def pcieIn (s : Dev) (q : Nat) : Bool := !s.units.pcie.contains q

/-- The device ID and the class code of a function of Pq: the early endpoint has an ID of its own (R445, R452). -/
def functionId (s : Dev) (q : Nat) : Nat × Nat := (if (getPcie s q).full then 0x1260 else 0x12E0, 0x118000)

/-- Link `k` of Pq is up. -/
def linkUp (s : Dev) (q k : Nat) : Bool := (getPcie s q).up.contains k

/-! ## Registers -/

/-- The registers that PCIE_PERST_N[q] resets: status, outbound window, translation, DMA rings; for q = 0 those of BAR2 (R25, R445,
R451, R455). -/
def perstReg (q a : Nat) : Bool :=
  a = rPcieStatus q || a = rOutwin q || (rPcieXlate q 0 ≤ a && a < rPcieXlate q 16) ||
    (rRingBase q 0 ≤ a && a < rRingBase q 4) || (q = 0 && rXlate 0 ≤ a && a < rXlate 16)

/-- The ring registers of Pq. -/
def ringReg (q a : Nat) : Bool := rRingBase q 0 ≤ a && a < rRingBase q 4

/-! ## TLPs to the host -/

/-- Cut the bytes from `lo` to `hi` into parts of at most `lim` that do not cross a multiple of `bound`. -/
def cutRange : Nat → Nat → Nat → Nat → Nat → List (Nat × Nat)
  | 0, _, _, _, _ => []
  | f + 1, lo, hi, lim, bound =>
    if hi ≤ lo then []
    else
      let e := min hi (min (lo + max 1 lim) ((lo / bound + 1) * bound))
      (lo, e - lo) :: cutRange f e hi lim bound

/-- Count a TLP sent with EP (R448). -/
def countTx (q : Nat) (ep : Bool) (s : Dev) : Dev := if ep then incR s (rPcieStatus q) 23 12 1 else s

/-- Count the poisoned TLPs received (R448). -/
def countRx (q n : Nat) (s : Dev) : Dev := incR s (rPcieStatus q) 11 0 n

def poisonedTlps (d : HostData) : Nat := (d.filter (·.2)).length

/-- The bytes of a completion's TLPs, with EP. -/
def hostBytes (d : HostData) : List (BitVec 8 × Bool) := d.flatMap fun t => t.1.map fun b => (b, t.2)

def readLimit (l : TlpLimits) : Nat := 128 * 2 ^ l.read.val
def payloadLimit (l : TlpLimits) : Nat := 128 * 2 ^ l.payload.val

/-- A fresh id of a read of Pq. -/
def freshId (q : Nat) (s : Dev) : Nat × Dev := ((getPcie s q).nextId, updPcie s q fun c => { c with nextId := c.nextId + 1 })

/-- Send reads for the bytes from host address `host + lo` on; answer their ids with offset and length. -/
def sendReads (q host : Nat) (parts : List (Nat × Nat)) (s : Dev) : List (Nat × Nat × Nat) × Dev :=
  parts.foldl (fun (r : List (Nat × Nat × Nat) × Dev) x =>
    let i := freshId q r.2
    (r.1 ++ [(i.1, x.1, x.2)], emit i.2 (.memRead q 0 (host + x.1) x.2 i.1))) ([], s)

/-- Send one write of bytes, some of them disabled. -/
def sendWrite (q addr : Nat) (bytes : List (Option (BitVec 8))) (ep : Bool) (s : Dev) : Dev :=
  countTx q ep (emit s (.memWrite q 0 addr bytes ep false))

/-! ## Lanes of a controller -/

/-- The lanes of link `k` (R442); a link that the bifurcation does not give has none. -/
def linkLanes (s : Dev) (q k : Nat) : List Nat :=
  let w := 16 / max 1 (getPcie s q).links
  if (getPcie s q).links ≤ k then [] else (List.range w).map (32 * q + 16 + w * k + ·)

/-- A controller's lanes wait for a partner: they read DETECT, with the settings of Gen1. `early` is the endpoint of R452, on lane
16 with fallback settings. -/
def pcieDetect (q : Nat) (early : Bool) (s : Dev) : Dev :=
  (pcieLanes q).foldl (fun s n =>
    let s := setStage .detect s n
    if early then
      setR (updLane s n fun l => { l with set0 := fallbackSettings (fldR s (rLaneCfg n) 39 37) 0, set1 := 0 }) (rLaneStatus n) 60 60 0
    else applyClass 0 s n) s

/-! ## Requests of the device that wait for the host -/

/-- Every outbound request under way is answered BAD_REQUEST (R447, R454). -/
def dropOutbound (q : Nat) (s : Dev) : Dev :=
  let l := (getPcie s q).out
  l.foldl (fun s o => respond (pcieKey q) o.req rspBadRequest [] s) (updPcie s q fun c => { c with out := [] })

/-- The links of Pq in `ks` go down. -/
def linksDown (q : Nat) (ks : List Nat) (s : Dev) : Dev :=
  let s := updPcie s q fun c => { c with up := c.up.filter fun k => !ks.contains k, host := c.host.filter fun h => !ks.contains h.link }
  let s := if ks.contains 0 then dropOutbound q (updPcie s q fun c => { c with gen := 0, width := 0 }) else s
  (ks.flatMap (linkLanes s q)).foldl (fun s n => if pcieHolds s n then setStage .detect s n else s) s

/-- Every DMA engine of Pq stops and its registers return to reset. -/
def dmasReset (q : Nat) (s : Dev) : Dev := updPcie (resetR s (ringReg q)) q fun c => { c with dmas := [] }

/-- The controller trains its links (R453 events 2 to 4). -/
def pcieTrain (q : Nat) (st : PcieState) (s : Dev) : Dev :=
  pcieDetect q false (updPcie s q fun c => { c with state := st, full := true })

/-- What a controller does while PCIE_PERST_N is high: P0 is the early endpoint before DONE; the others wait for event 8 (R452). -/
def pcieServe (q : Nat) (s : Dev) : Dev :=
  if !(getPcie s q).perstHigh || s.links.lanes.heldE3 then s
  else if s.cfg.done then pcieTrain q .training s
  else if q = 0 then pcieDetect q true (updPcie s q fun c => { c with state := .early, full := false })
  else (pcieLanes q).foldl laneOff (updPcie s q fun c => { c with state := .off, full := false })

/-- PCIE_PERST_N[q] rises (R442, R443, R452, R454). -/
def perstRise (q : Nat) (s : Dev) : Dev :=
  if (getPcie s q).perstHigh then s
  else if !mainUp s then updPcie s q fun c => { c with perstHigh := true }
  else
    let b := fldR s (rPcieCtrl q) 1 0
    let links := if q = 0 then 1 else if b = 1 then 2 else if b = 2 then 4 else 1
    let s := (pcieLanes q).foldl laneOff s
    let s := evalBundles (updPcie s q fun c => { c with perstHigh := true, links })
    pcieServe q s

/-- PCIE_PERST_N[q] goes low (R454). -/
def perstLow (q : Nat) (s : Dev) : Dev :=
  if !(getPcie s q).perstHigh then s
  else if !mainUp s then updPcie s q fun c => { c with perstHigh := false }
  else
    let s := dmasReset q (linksDown q (List.range 4) s)
    let s := resetR s (perstReg q)
    let s := (pcieLanes q).foldl laneOff (updPcie s q fun c => { perstHigh := false, nextId := c.nextId })
    (pcieLanes q).foldl (fun s n => enterDetect (setRetries s n 0) n) s

/-- R453: P0's link goes down and trains again as the full function. -/
def pcieRetrain (s : Dev) : Dev :=
  if (getPcie s 0).perstHigh && s.cfg.done && !s.links.lanes.heldE3 then
    pcieTrain 0 .retraining (linksDown 0 (List.range 4) s)
  else s

/-- Highest generation that PCIE_CTRL admits. -/
def maxGen (s : Dev) (q : Nat) : Nat := let g := fldR s (rPcieCtrl q) 61 59; if 1 ≤ g && g ≤ 5 then g else 5

/-- Link `k` completes training at Gen1 with `width` lanes (R453 event 3); the early endpoint trains to x1. Pending messages are sent
when P0's link comes up (R517). -/
def pcieLinkUp (q k width : Nat) (s : Dev) : Dev :=
  let c := getPcie s q
  if c.state = .off || c.up.contains k || c.links ≤ k then s
  else
    let early := c.state = .early
    let lanes := if early then [16] else (linkLanes s q k).take width
    if !lanes.all (fun n => quadIn s (n / 4)) || !([1, 2, 4, 8, 16] : List Nat).contains lanes.length then s
    else
      let s := updPcie s q fun c => { c with
        up := c.up ++ [k]
        gen := if k = 0 then 1 else c.gen
        width := if k = 0 then lanes.length else c.width
        state := if early then .early else .up }
      let s := lanes.foldl (fun s n => setStage .active s n) s
      if q = 0 then sendPending s else s

/-- A link is lost (R454). -/
def pcieLinkDown (q k : Nat) (s : Dev) : Dev :=
  if !linkUp s q k then s
  else
    let s := linksDown q [k] s
    updPcie s q fun c => { c with state := if c.state = .early then .early else if c.up.isEmpty then .training else c.state }

/-- A rate change completes: every receiver of the link looks up its settings for the new class (R429, R456). -/
def pcieRate (q k gen : Nat) (s : Dev) : Dev :=
  let c := getPcie s q
  if !c.up.contains k || c.state = .early || gen = 0 || maxGen s q < gen then s
  else
    let s := if k = 0 then updPcie s q fun c => { c with gen } else s
    (linkLanes s q k).foldl (applyClass (genClass gen)) s

/-! ## Issuing requests from byte ranges -/

/-- A word of a byte range: the bytes from device address `a` on, of a list that starts at `lo`. -/
def wordFrom (lo : Nat) (bs : List (Option (BitVec 8 × Bool))) (a : Nat) : Word × Bool :=
  let at' := fun i => if lo ≤ a + i then (bs[a + i - lo]?).getD none else none
  (BitVec.ofNat 64 (leNat ((List.range 8).map fun i => ((at' i).map (·.1)).getD 0)),
   (List.range 8).any fun i => ((at' i).map (·.2)).getD false)

/-- The byte mask of the parcel at `base`. -/
def maskFrom (lo : Nat) (bs : List (Option (BitVec 8 × Bool))) (base : Nat) : Nat :=
  maskOf ((List.range 32).filter fun i => lo ≤ base + i && ((bs[base + i - lo]?).getD none).isSome)

/-- A request for the bytes from device address `lo` on, within one 2 KiB block; disabled bytes are `none`. -/
def rangeIssue (op : ReqOp) (lo : Nat) (bs : List (Option (BitVec 8 × Bool))) (key : Nat) : Issue :=
  let n := max 1 bs.length
  let base := lo / 32 * 32
  let len := (lo + n - 1) / 32 - lo / 32
  { op, addr := lo, len, first := maskFrom lo bs base, last := maskFrom lo bs (base + 32 * len), key
    data := if isWrite op then
        (List.range (len + 1)).map fun k => (List.range 4).map fun w =>
          let x := wordFrom lo bs (base + 32 * k + 8 * w)
          encodeWord x.1 x.2
      else [] }

/-- What became of a request of an agent of a controller: refused with a code, or issued under a name. -/
inductive Issued where
  | refused (code : Nat)
  | issued (id : Nat)
  deriving DecidableEq, Repr

/-- Issue a request of an agent of a controller; it takes one of the agent's tags when it is injected. -/
def agentIssue (q : Nat) (user : ReqUser) (agent : Nat) (x : Issue) (s : Dev) : Issued × Dev :=
  let id := (getEp s (pcieKey q)).nextId
  match edgeRequest (pcieKey q) user (some agent) false x s with
  | (some c, s) => (.refused c, s)
  | (none, s) => (.issued id, s)

/-! ## BAR2 and BAR4 (R24, R28, R445, R446) -/

/-- Completion status of a response code: 0 Successful Completion, 1 Unsupported Request, 4 Completer Abort. -/
def statusOf (code : Nat) : Nat :=
  if code = 0 then 0 else if code = rspUnmapped || code = rspBadRequest || code = rspOversize then 1 else 4

/-- A posted host write fails: counted, the first with its code. -/
def hostFail (q code : Nat) (s : Dev) : Dev :=
  let s := if fldR s (rPcieStatus q) 31 24 = 0 then setR s (rPcieStatus q) 48 41 code else s
  incR s (rPcieStatus q) 31 24 1

/-- One completion TLP of a host read, with the words of device addresses `lo` to `lo + n − 1`: the words that hold a byte asked for
are placed in it, and so consumed (R39); the others read as zero. -/
def completionTlp (q : Nat) (h : HostRead) (words : List (Nat × PWord)) (s : Dev) (part : Nat × Nat) : Dev :=
  let asked := fun a => (List.range 8).any fun i => h.lo ≤ a + i && nth false h.en (a + i - h.lo)
  let at' := (List.range ((part.1 + part.2 + 7) / 8 - part.1 / 8)).map fun i => part.1 / 8 * 8 + 8 * i
  let r := at'.foldl (fun (r : List (Word × Bool) × Dev) a =>
    if asked a then
      let x := consume r.2 (uPcie q) (pcieAddr q) (alGet (clean 0) words a)
      (r.1 ++ [x.1], x.2)
    else (r.1 ++ [(0, false)], r.2)) ([], s)
  let ep := r.1.any (·.2)
  countTx q ep (emit r.2 (.completion q h.link h.id 0 (r.1.map (·.1)) ep))

/-- A host read that is complete is answered: in completion TLPs that end at multiples of 128 bytes, the payload that every link
allows (assumption 143), or in one without data where a part failed. -/
def hostFinish (q : Nat) (h : HostRead) (s : Dev) : Dev :=
  let s := updPcie s q fun c => { c with host := c.host.filter fun x => !(x.id = h.id && x.link = h.link) }
  let parts := h.tags.filterMap fun t => h.done.find? fun d => d.1 = t
  match parts.find? fun d => d.2.1 ≠ 0 with
  | some d => emit s (.completion q h.link h.id (statusOf d.2.1) [] false)
  | none =>
    let words := (parts.flatMap fun d => d.2.2.flatten).zipIdx.map fun w => (h.lo / 32 * 32 + 8 * w.2, w.1)
    let tlps := if h.en.isEmpty then [(h.lo, 1)] else cutRange (h.en.length + 1) h.lo (h.lo + h.en.length) 128 128
    tlps.foldl (completionTlp q h words) s

/-- Issue the parts of a host read, in order; a refusal stands in for that part's response. -/
def hostParts (q link id key base lo : Nat) (bs : List (Option (BitVec 8 × Bool))) (parts : List (Nat × Nat)) (s : Dev) : Dev :=
  let r := parts.foldl (fun (r : HostRead × Dev) x =>
    let iss := rangeIssue .rd (base + x.1) ((bs.drop (x.1 - lo)).take x.2) key
    match agentIssue q (.host q) 4 iss r.2 with
    | (.issued t, s) => ({ r.1 with tags := r.1.tags ++ [t] }, s)
    | (.refused c, s) =>
      let t := (getEp s (pcieKey q)).nextId + 2 ^ 64 + r.1.tags.length
      ({ r.1 with tags := r.1.tags ++ [t], done := r.1.done ++ [(t, c, [])] }, s))
    ({ id, link, tags := [], lo := base + lo, en := bs.map (·.isSome) }, s)
  if r.1.tags.all fun t => r.1.done.any fun d => d.1 = t then hostFinish q r.1 r.2
  else updPcie r.2 q fun c => { c with host := c.host ++ [r.1] }

/-- A host access at device addresses from `dev` on. -/
def hostAccess (q link id key dev : Nat) (a : HostAcc) (s : Dev) : Dev :=
  match a with
  | .rd off en =>
    let lo := off.toNat % 2 ^ 32
    let bs := en.map fun e => if e then some ((0 : BitVec 8), false) else none
    let parts := if bs.isEmpty then [(lo, 0)] else cutRange (bs.length + 1) lo (lo + bs.length) 2048 2048
    hostParts q link id key dev lo bs parts s
  | .wr off bytes ep =>
    let lo := off.toNat % 2 ^ 32
    let bs := bytes.map fun b => b.map fun v => (v, ep)
    let parts := cutRange (bs.length + 1) lo (lo + bs.length) 2048 2048
    parts.foldl (fun s x =>
      match agentIssue q (.host q) 4 (rangeIssue .wrp (dev + x.1) ((bs.drop (x.1 - lo)).take x.2) key) s with
      | (.refused c, s) => hostFail q c s
      | (_, s) => s) (countRx q ep.toNat s)

/-- A host access that no target takes: Unsupported Request. -/
def hostUnsupported (q link id : Nat) (a : HostAcc) (s : Dev) : Dev :=
  match a with
  | .rd _ _ => emit s (.completion q link id 1 [] false)
  | .wr _ _ ep => countRx q ep.toNat s

def accOff : HostAcc → Nat
  | .rd o _ => o.toNat
  | .wr o _ _ => o.toNat

/-- A host access at BAR2 of link `link`. A TLP that fails ECRC is discarded and counted (R448). -/
def bar2Access (q link id : Nat) (ecrcOk : Bool) (a : HostAcc) (s : Dev) : Dev :=
  if !linkUp s q link then s
  else if !ecrcOk then incR s (rPcieStatus q) 40 32 1
  else
    let segs := 16 / max 1 (getPcie s q).links
    let seg := segs * link + accOff a / 2 ^ 32
    let x := if q = 0 then rXlate seg else rPcieXlate q seg
    if !(getPcie s q).full || !pcieIn s q || segs * 2 ^ 32 ≤ accOff a || !bitR s x 63 then hostUnsupported q link id a s
    else hostAccess q link id (fldR s x 5 0) (fldR s x 47 32 * 2 ^ 32) a s

/-- A host access at BAR4. -/
def bar4Access (id : Nat) (ecrcOk : Bool) (a : HostAcc) (s : Dev) : Dev :=
  let size := fldR s rBar4 21 16
  if !linkUp s 0 0 then s
  else if !ecrcOk then incR s (rPcieStatus 0) 40 32 1
  else if !(getPcie s 0).full || !pcieIn s 0 || size < 20 || !bitR s rBar4 63 || 2 ^ size ≤ accOff a then hostUnsupported 0 0 id a s
  else
    let off := accOff a
    hostAccess 0 0 id 0 (windowBase (fldR s rBar4 8 0) (fldR s rBar4 10 9) + off / 2 ^ 32 * 2 ^ 32) a s

/-- A response to a host access arrives. -/
def hostDone (q : Nat) (c : Completion) (s : Dev) : Dev :=
  match (getPcie s q).host.find? fun h => h.tags.contains c.id && !h.done.any (fun d => d.1 = c.id) with
  | none => s
  | some h =>
    let h' := { h with done := h.done ++ [(c.id, c.code, c.data)] }
    if h'.tags.all fun t => h'.done.any fun d => d.1 = t then hostFinish q h' s
    else updPcie s q fun p => { p with host := mapIf (fun x => x = h) (fun _ => h') p.host }

/-! ## Outbound window (R447) -/

/-- The window is open and link 0 is up. -/
def outOpen (s : Dev) (q : Nat) : Bool := pcieIn s q && (getPcie s q).perstHigh && linkUp s q 0 && bitR s (rOutwin q) 63

/-- Consume the words of a write in one TLP: its bytes, and EP. -/
def tlpBytes (q : Nat) (r : MemReq) (x : Nat × Nat) (s : Dev) : List (Option (BitVec 8)) × Bool × Dev :=
  let base := r.addr / 32 * 32
  let ws := (reqWords r).filter fun a => decide (a < x.1 + x.2) && decide (x.1 < a + 8)
  let c := ws.foldl (fun (c : List (Nat × Word) × Bool × Dev) a =>
    let y := consume c.2.2 (uPcie q) r.src (carriedWord r a)
    (c.1 ++ [(a, y.1.1)], c.2.1 || y.1.2, y.2)) ([], false, s)
  let byte := fun i =>
    let a := x.1 + i
    let m := parcelMask r.len r.first r.last ((a - base) / 32)
    if m.testBit ((a - base) % 32) then some (BitVec.ofNat 8 ((alGet 0 c.1 (a / 8 * 8)).toNat >>> (8 * (a % 8)))) else none
  ((List.range x.2).map byte, c.2.1, c.2.2)

/-- Reads of the outbound window that link 0 may have outstanding (R444). -/
def maxReads : Nat := 256

/-- A request at the outbound window of Pq. A read for which link 0 has no tag free waits. -/
def outboundRequest (q src port tag : Nat) (lim : TlpLimits) (s : Dev) : Dev :=
  let k := pcieKey q
  let s0 := gather k s
  match takeRequest k src port tag none s0 with
  | (.perform r, s) =>
    if !outOpen s q || isAtomic r.op then respond k r rspBadRequest [] s
    else if enablesNone r.len r.first r.last then respond k r rspOk [zeroPayload] s
    else
      let host := fldR s (rOutwin q) 28 0 * 2 ^ 35
      let g := reqRange r.addr r.len r.first r.last
      let win := r.addr / 2 ^ 35 * 2 ^ 35
      if r.op = .rd then
        let parts := (cutRange 64 g.1 g.2 (readLimit lim) 4096).map fun x => (x.1 - win, x.2)
        if maxReads < ((getPcie s q).out.map fun o => o.left.length).sum + parts.length then s0
        else
        let x := sendReads q host parts s
        updPcie x.2 q fun c => { c with out := c.out ++ [{ req := r, left := x.1 }] }
      else
        let parts := cutRange 64 g.1 g.2 (payloadLimit lim) 4096
        let s := parts.foldl (fun s x =>
          let b := tlpBytes q r x s
          sendWrite q (host + (x.1 - win)) b.1 b.2.1 b.2.2) s
        respond k r rspOk [] s
  | (_, s) => s

/-- The word of an outbound read at window offset `a`. -/
def outWord (o : Outbound) (a : Nat) : PWord :=
  let bs := (List.range 8).map fun i => (o.got.find? fun g => g.1 = a + i).map (·.2)
  encodeWord (BitVec.ofNat 64 (leNat (bs.map fun b => (b.map (·.1)).getD 0))) (bs.any fun b => (b.map (·.2)).getD false)

/-- The host answers read `id` of an outbound request. -/
def hostCompletion (q id : Nat) (ecrcOk : Bool) (st : HostStatus) (s : Dev) : Dev :=
  if !linkUp s q 0 then s
  else if !ecrcOk then incR s (rPcieStatus q) 40 32 1
  else match (getPcie s q).out.find? fun o => o.left.any fun x => x.1 = id with
    | none => s
    | some o =>
      let drop := fun s => updPcie s q fun c => { c with out := c.out.filter fun x => x ≠ o }
      match st with
      | .sc d =>
        let s := countRx q (poisonedTlps d) s
        let part := (o.left.find? fun x => x.1 = id).getD (0, 0, 0)
        let bytes := ((hostBytes d).take part.2.2).zipIdx.map fun b => (part.2.1 + b.2, b.1)
        let o' : Outbound := { o with left := o.left.filter fun x => x.1 ≠ id, got := o.got ++ bytes }
        if o'.left.isEmpty then
          let win := o.req.addr / 2 ^ 35 * 2 ^ 35
          let got := (reqWords o.req).map fun a => (a, outWord o' (a - win))
          respond (pcieKey q) o.req rspOk (readParcels o.req got) (drop s)
        else updPcie s q fun c => { c with out := mapIf (fun x => x = o) (fun _ => o') c.out }
      | _ => respond (pcieKey q) o.req rspBadRequest [] (drop s)

/-! ## DMA engines (R449 to R451) -/

def dmaDflt : Nat → Dma := fun _ => {}

def getDma (s : Dev) (q d : Nat) : Dma := tGet dmaDflt (getPcie s q).dmas d

def updDma (s : Dev) (q d : Nat) (f : Dma → Dma) : Dev := updPcie s q fun c => { c with dmas := tUpd dmaDflt c.dmas d f }

/-- Entries of the ring. -/
def ringSize (s : Dev) (q d : Nat) : Nat := 2 ^ (fldR s (rRingCfg q d) 3 0 + 4)

def ringHead (s : Dev) (q d : Nat) : Nat := fldR s (rRingStatus q d) 19 0
def ringTail (s : Dev) (q d : Nat) : Nat := fldR s (rRingCfg q d + 8) 19 0 % ringSize s q d

/-- An enabled engine runs while head differs from tail. -/
def dmaWake (q d : Nat) (s : Dev) : Dev :=
  if bitR s (rRingCfg q d) 63 && (getDma s q d).state = .idle && ringHead s q d ≠ ringTail s q d then
    updDma s q d fun x => { x with state := .running }
  else s

/-- A write of RING_CFG: en 0 stops the engine where it is; en going to 1 starts it from head. -/
def dmaEnable (q d : Nat) (v : Word) (s : Dev) : Dev :=
  let was := bitR s (rRingCfg q d) 63
  let s := putR s (rRingCfg q d) (BitVec.ofNat 64 (fld v 63 63 * 2 ^ 63 + fld v 3 0))
  if bit v 63 then (if was then s else dmaWake q d (updDma s q d fun _ => {}))
  else updDma s q d fun _ => {}

/-- A write of 1 to RING_CFG.stop. -/
def dmaStop (q d : Nat) (s : Dev) : Dev :=
  let x := getDma s q d
  if x.state = .error then s
  else if x.run.isSome then updDma s q d fun x => { x with stopping := true }
  else updDma s q d fun x => { x with state := .stopped }

/-- A write to RING_TAIL. -/
def ringTailWrite (q d tail : Nat) (s : Dev) : Dev := dmaWake q d (setR s (rRingTail q d) 19 0 tail)

/-- The engine issues the parts of its descriptor. A refusal ends the descriptor with its code. -/
def dmaPump (q d : Nat) : Nat → Dev → Dev
  | 0, s => s
  | f + 1, s =>
    match (getDma s q d).run with
    | none => s
    | some r =>
      match r.todo with
      | [] => s
      | (off, n) :: rest =>
        let set := fun (r : DmaRun) s => updDma s q d fun x => { x with run := some r }
        let bs := if r.toHost then List.replicate n (some ((0 : BitVec 8), false)) else ((r.data.drop off).take n).map some
        let x := rangeIssue (if r.toHost then .rd else .wr) ((r.dev + off) % 2 ^ 48) bs 0
        match agentIssue q (.dma q d) d x s with
        | (.refused c, s) => set { r with todo := [], code := c } s
        | (.issued t, s) => dmaPump q d f (set { r with todo := rest, tags := r.tags ++ [(t, off, n)] } s)

/-- The code of a host status that is not SC (R449). -/
def hostCode : HostStatus → Nat
  | .sc _ => 0
  | .ur => 0x40
  | .ca => 0x41
  | .timeout => 0x42

/-- The engine reads the descriptor at head and starts to move its data (R450). `desc` is the host's answer to the descriptor read;
`src` its answer to the reads of the data, for a descriptor from host to device. -/
def dmaDescriptor (q d : Nat) (desc src : HostStatus) (lim : TlpLimits) (s : Dev) : Dev :=
  let x := getDma s q d
  if x.state ≠ .running || x.run.isSome || x.stopping || !linkUp s q 0 then s
  else
    let at' := fldR s (rRingBase q d) 63 6 * 64 + 32 * ringHead s q d
    let s := (sendReads q at' [(0, 32)] s).2
    match desc with
    | .sc tlps =>
      let bytes := (hostBytes tlps).map (·.1)
      let w := fun i => leNat ((bytes.drop (8 * i)).take 8)
      let s := countRx q (poisonedTlps tlps) s
      let len := if nbits (w 2) 23 0 = 0 then 2 ^ 24 else nbits (w 2) 23 0
      let dev := nbits (w 1) 47 0
      let run : DmaRun := { host := w 0 % 2 ^ 64, toHost := (w 1).testBit 63, irq := (w 1).testBit 62, dev, length := len }
      let parts := (cutRange (len / 2048 + 2) dev (dev + len) 2048 2048).map fun p => (p.1 - dev, p.2)
      if !pcieIn s q then updDma s q d fun x => { x with run := some { run with code := rspBadRequest } }
      else if run.toHost then dmaPump q d (parts.length + 1) (updDma s q d fun x => { x with run := some { run with todo := parts } })
      else
        let reads := (cutRange (len / 128 + 4) run.host (run.host + len) (readLimit lim) 4096).map fun p => (p.1 - run.host, p.2)
        let s := (sendReads q run.host reads s).2
        match src with
        | .sc t =>
          let data := (hostBytes t ++ List.replicate len (0, false)).take len
          let s := countRx q (poisonedTlps t) s
          dmaPump q d (parts.length + 1)
            (updDma s q d fun x => { x with run := some { run with todo := parts, data, poisoned := poisonedTlps t ≠ 0 } })
        | st => updDma s q d fun x => { x with run := some { run with code := hostCode st } }
    | st => updDma s q d fun x => { x with run := some { host := 0, toHost := false, irq := false, dev := 0, length := 0, code := hostCode st } }

/-- The bytes of words from device address `a` on. -/
def bytesOfWords (ws : List (Word × Bool)) : List (BitVec 8 × Bool) :=
  ws.flatMap fun w => (leBytes 8 w.1.toNat).map fun b => (b, w.2)

/-- A response to a DMA transaction arrives: read data is sent to the host; the first code other than OK ends the descriptor. -/
def dmaDone (q d : Nat) (c : Completion) (s : Dev) : Dev :=
  match (getDma s q d).run with
  | none => s
  | some r =>
    match r.tags.find? fun t => t.1 = c.id with
    | none => s
    | some (_, off, n) =>
      let r := { r with tags := r.tags.filter fun t => t.1 ≠ c.id }
      let put := fun (r : DmaRun) s => updDma s q d fun x => { x with run := some r }
      if c.code ≠ 0 then put { r with todo := [], code := if r.code = 0 then c.code else r.code } s
      else
        let r := { r with moved := r.moved + n }
        if r.toHost then
          let y := c.data.flatten.foldl (fun (y : List (Word × Bool) × Dev) w =>
            let z := consume y.2 (uPcie q) (pcieAddr q) w
            (y.1 ++ [z.1], z.2)) ([], s)
          let bytes := ((bytesOfWords y.1).drop ((r.dev + off) % 32)).take n
          let first := r.host + off
          let s := (cutRange 32 first (first + bytes.length) 128 4096).foldl (fun s p =>
            let b := (bytes.drop (p.1 - first)).take p.2
            sendWrite q p.1 (b.map fun x => some x.1) (b.any (·.2)) s) y.2
          dmaPump q d (r.todo.length + 1) (put { r with poisoned := r.poisoned || bytes.any (·.2) } s)
        else dmaPump q d (r.todo.length + 1) (put r s)

/-- The last response of a descriptor has arrived: word 3 is written, without relaxed ordering, then head advances or the engine
enters ERROR; the engine's message is sent where irq is set. -/
def dmaComplete (q d : Nat) (s : Dev) : Dev :=
  let x := getDma s q d
  match x.run with
  | none => s
  | some r =>
    if !r.todo.isEmpty || !r.tags.isEmpty || !linkUp s q 0 then s
    else
      let w3 := 2 ^ 63 + r.poisoned.toNat * 2 ^ 62 + r.code * 2 ^ 48 + r.moved % 2 ^ 32
      let at' := fldR s (rRingBase q d) 63 6 * 64 + 32 * ringHead s q d + 24
      let s := sendWrite q at' ((leBytes 8 w3).map some) false s
      let s := if r.poisoned then setR s (rRingStatus q d) 60 60 1 else s
      let s := if r.irq then sendVector s (12 + 4 * q + d) else s
      if r.code ≠ 0 then
        updDma (setR s (rRingStatus q d) 55 48 r.code) q d fun x => { x with state := .error, run := none, stopping := false }
      else
        let s := setR s (rRingStatus q d) 19 0 ((ringHead s q d + 1) % ringSize s q d)
        let st := if x.stopping then DmaState.stopped else if ringHead s q d = ringTail s q d then .idle else .running
        updDma s q d fun x => { x with state := st, run := none, stopping := false }

/-- A read of the controller times out at the host side: an outbound request is answered BAD_REQUEST. -/
def pcieTimeout (q id : Nat) (s : Dev) : Dev :=
  match (getPcie s q).out.find? fun o => o.left.any fun x => x.1 = id with
  | none => s
  | some o => respond (pcieKey q) o.req rspBadRequest [] (updPcie s q fun c => { c with out := c.out.filter fun x => x ≠ o })

/-! ## Resets and escalation (R454) -/

/-- Every link goes down: warm reset, RST_N, E4, RECONFIGURE. P0 serves early; the others wait for event 8. -/
def pcieReset (s : Dev) : Dev :=
  (List.range 4).foldl (fun s q =>
    if (getPcie s q).perstHigh then
      pcieServe q (updPcie (linksDown q (List.range 4) s) q fun c => { c with state := .off, full := false })
    else s) s

/-- E3 takes every link down. -/
def pcieHold (s : Dev) : Dev :=
  (List.range 4).foldl (fun s q => updPcie (linksDown q (List.range 4) s) q fun c => { c with state := .off }) s

/-- The safe state is released. -/
def pcieRelease (s : Dev) : Dev := (List.range 4).foldl (fun s q => pcieServe q s) s

/-- Event 8 of start-up: P0 retrains where auto_retrain is 1, the others train (R452, R453). -/
def pcieStartup (s : Dev) : Dev :=
  let s := if bitR s (rPcieCtrl 0) 62 then pcieRetrain s else s
  ([1, 2, 3] : List Nat).foldl (fun s q => if (getPcie s q).state = .off then pcieServe q s else s) s

end Sys2Proof.Machine
end

