-- ==== Sys2Proof/Machine/Bundles.lean ====
section
/-! DEFINITION. Eovar Link bundles (R457 to R467): frames, credits, bring-up blocks and forwarding. -/

namespace Sys2Proof.Machine

/-! ## Frames (R459, R460, R466) -/

/-- The link key; before any is loaded, 32 zero bytes (DESIGN CHOICE, assumption 21). -/
def linkKey (x : Bundle) : List Nat := if x.key = [] then List.replicate 32 0 else x.key

def linkEnc (s : Dev) (b : Nat) : Bool := bitR s (rLinkCfg b) 61
def linkRole (s : Dev) (b : Nat) : Bool := bitR s (rLinkCfg b) 62

/-- A control block: sync 0b10, type and content. -/
def ctlBlock (type content : Nat) : BitVec 66 := BitVec.ofNat 66 (2 * 2 ^ 64 + content % 2 ^ 56 * 2 ^ 8 + type)

/-- A data block with sync 0b01. -/
def dataBlock (w : Nat) : BitVec 66 := BitVec.ofNat 66 (2 ^ 64 + w % 2 ^ 64)

def blockSync (b : BitVec 66) : Nat := fld b 65 64
def blockType (b : BitVec 66) : Nat := fld b 7 0

/-- The 49 bytes of a parcel in the link layout of R257. -/
def linkBytes (p : Parcel) : List Nat :=
  leB 40 (p.pay.zipIdx.foldl (fun n x => n + x.1.toNat * 2 ^ (80 * x.2)) 0) ++ leB 8 p.hdr.toNat ++ [p.par.toNat]

/-- The parcel of 49 bytes. -/
def parcelOfBytes (l : List Nat) : Parcel :=
  let n := ofLe (l.take 40)
  { hdr := BitVec.ofNat 64 (ofLe ((l.drop 40).take 8)), par := BitVec.ofNat 8 (nth 0 l 48)
    pay := (List.range 4).map fun w => BitVec.ofNat 80 (n / 2 ^ (80 * w)) }

/-- The IV of a frame (R466). -/
def frameIv (role : Bool) (counter : Nat) : List Nat := leB 4 role.toNat ++ leB 8 counter

/-- The PARCEL block of a frame. -/
def parcelBlock (seq : Nat) (enc : Bool) : BitVec 66 := ctlBlock 0xE1 (seq % 4096 + enc.toNat * 2 ^ 12)

/-- The blocks of a frame that carries `p` with frame counter `c`. -/
def frameBlocks (enc role : Bool) (key : List Nat) (c : Nat) (p : Parcel) : List (BitVec 66) :=
  let head := parcelBlock c enc
  let hb := leB 8 head.toNat
  let clear := linkBytes p
  let bytes := if enc then gcmCtr key (frameIv role c) (clear.take 40) ++ clear.drop 40 else clear
  let crc := crc32c (hb.drop 1 ++ bytes)
  let data := chunks 8 (bytes ++ leB 4 crc ++ [0, 0, 0])
  let tag := gcmTag key (frameIv role c) (hb ++ bytes.drop 40) (bytes.take 40)
  head :: (data.map fun d => dataBlock (ofLe d)) ++ (if enc then [dataBlock (ofLe (tag.take 8))] else [])

/-- Frames that may still be sent (R463). -/
def frameRoom (x : Bundle) : Nat := 256 - (x.sent + 65536 - x.freedGot) % 65536

/-- Send a parcel over bundle `b`. -/
def sendFrame (b : Nat) (s : Dev) (p : Parcel) : Dev :=
  let x := getBundle s b
  let s := emit s (.frame b (frameBlocks (linkEnc s b) (linkRole s b) (linkKey x) x.counter p))
  updBundle s b fun x => { x with sent := (x.sent + 1) % 65536, counter := (x.counter + 1) % 2 ^ 64 }

def bundleUp (s : Dev) (b : Nat) : Bool := (getBundle s b).state = .up

/-- The bridge of bundle `b` takes the place of the user ports of its attachment (R458): the other bundle of the sector is not the
one in force. -/
def serves (s : Dev) (b : Nat) : Bool :=
  let o := b ^^^ 1
  bridgeOn s b && !(bundleEn s o && !bitR s (rLinkStatus o) 60)

/-- The user ports of attachment `k` are replaced by a bridge (R458). -/
def bridgedAtt (s : Dev) (k : Nat) : Bool :=
  (List.range 32).any fun b => bridgeKey b = k && bridgeOn s b

/-! ## From the network (R464) -/

/-- The engine takes the head of the attachment's inbound queue: a response counts as presented to the requester, its class
and priority go with the answer; another parcel enters reassembly. -/
def bridgeTake (b : Nat) (s : Dev) : Dev :=
  let k := bridgeKey b
  let e := getEp s k
  match e.inq with
  | [] => s
  | p :: rest =>
    let h := pHdr p
    let s := updEp s k fun e => { e with inq := rest, lag := addLag e.lag }
    if isResponse h.op then
      match e.txns.find? fun t => t.tag = h.tag && !t.quarantined with
      | none => s
      | some t =>
        let id := match t.user with
          | .bundle _ i => i
          | _ => 0
        let s := updBundle s b fun x =>
          { x with fwd := mapIf (fun f => f.id = id) (fun f => { f with bulk := h.bulk, prio := h.prio }) x.fwd }
        let t' := { t with shown := t.shown + 1 }
        let s := updEp s k fun e => { e with txns := mapIf (fun x => x.tag = t.tag && !x.quarantined) (fun _ => t') e.txns }
        if t'.shown < t'.need then s
        else updEp s k fun e => endTxn t'.code (if t'.code = 0 then inOrder t'.got else []) t' e
    else updEp s k fun e => { e with reasm := hold p e.reasm }

/-- The request parcel as it crosses: word 0 renewed with the remote address (R37, R464). -/
def translate (base : Nat) (p : Parcel) : Parcel :=
  let d := decodeWord (pWord p 0)
  let w := putFld d.data 47 0 (base * 2 ^ 31 + fld d.data 30 0)
  { p with pay := encodeWord w (d.poison || d.outcome = .uncorrectable) :: p.pay.drop 1 }

/-- Send a complete transaction that the bridge holds, refuse it, or let it wait for room at the receiver. -/
def forwardHeld (b : Nat) (s : Dev) : Dev :=
  let k := bridgeKey b
  let e := getEp s k
  match e.reasm.find? fun r => r.req.isSome && (complete r || r.refused || (match r.req with
      | some p => isWrite (memReq r p).op && decide (reasmSize s k < (memReq r p).len + 1)
      | none => false)) with
  | none => s
  | some r =>
    if r.refused then (if complete r then unhold k r.src r.port r.tag s else s)
    else match r.req with
      | none => s
      | some p =>
        let q := memReq r p
        if isWrite q.op && reasmSize s k < q.len + 1 then oversize k r p s
        else
          let x := rLinkXlate b (nbits q.addr 34 31)
          if !bundleUp s b || !bitR s x 63 then
            respond k q rspBadRequest [] (unhold k r.src r.port r.tag s)
          else
            let data := if isWrite q.op then (List.range (q.len + 1)).map fun i =>
                mkParcel { pHdr p with op := 7, seq := i, last := i = q.len, age := 0 } (four (alGet [] r.data i)) else []
            if frameRoom (getBundle s b) < data.length + 1 then s
            else
              let s := eccTransit (unhold k r.src r.port r.tag s) (targetUnit k) q.src (pWord p 0)
              (translate (fldR s x 16 0) p :: data).foldl (sendFrame b) s

/-- Response parcels over the bundle with the requester's identity beyond it. -/
def answerParcels (k : Nat) (f : Forwarded) (code : Nat) (data : List (List PWord)) : List Parcel :=
  let h : Hdr := { epoch := f.epoch, tag := f.tag, bulk := f.bulk, prio := f.prio, src := k / 4, srcPort := k % 4, dst := f.src
                   dstPort := f.port, op := 10, key := code }
  if code ≠ 0 then [mkParcel h [clean f.addr, clean 0, clean 0, clean 0]]
  else if f.op = .wr then [mkParcel { h with op := 9 } zeroPayload]
  else data.zipIdx.map fun x => mkParcel { h with op := 8, seq := x.2, last := x.2 + 1 = data.length } (four x.1)

/-- The bundle's completion that the attachment holds first. -/
def bundleDone (e : Endpoint) : Option Completion :=
  e.completions.find? fun c => match c.user with
    | .bundle _ _ => true
    | _ => false

/-- An answer crosses the bundle; one that timed out here does not, nor one whose request the bundle has forgotten. -/
def sendAnswer (b : Nat) (s : Dev) : Dev :=
  let k := bridgeKey b
  match bundleDone (getEp s k) with
  | none => s
  | some c =>
    let drop := fun s => updEp s k fun e => { e with completions := e.completions.filter (· ≠ c) }
    match (getBundle s b).fwd.find? fun f => c.user = .bundle b f.id with
    | none => drop s
    | some f =>
      let forget := fun s => updBundle s b fun x => { x with fwd := x.fwd.filter fun g => g.id ≠ f.id || g.left ≠ 0 }
      if c.code = rspTimeout || !bundleUp s b then forget (drop s)
      else
        let ps := answerParcels k f c.code c.data
        if frameRoom (getBundle s b) < ps.length then s else ps.foldl (sendFrame b) (forget (drop s))

/-! ## From the bundle (R464) -/

/-- A parcel leaves the buffer and counts as freed. -/
def bufferPop (b : Nat) (s : Dev) : Dev :=
  updBundle s b fun x => { x with buffer := x.buffer.tail, freed := (x.freed + 1) % 65536 }

/-- A request that the attachment itself refuses is answered over the bundle; a posted write is not. It waits for room there. -/
def refuseOver (b code : Nat) (p : Parcel) (s : Dev) : Option Dev :=
  let h := pHdr p
  if h.op = 2 then some (bufferPop b s)
  else if frameRoom (getBundle s b) = 0 then none
  else
    let a := bridgeKey b / 4
    some (sendFrame b (bufferPop b s) (rspErr a 1 code (reqFields p).addr h h.bulk h.prio))

/-- Issue a request of the bundle from the attachment (R288, R289, R291); none where it waits. -/
def issueOver (b dr dp : Nat) (p : Parcel) (s : Dev) : Option Dev :=
  let k := bridgeKey b
  let e := getEp s k
  let x := getBundle s b
  let h := pHdr p
  let f := reqFields p
  match reqOf h.op with
  | none => none
  | some op =>
    let g := groupOfRouter dr
    let c := creditsOf (attFields s k) g
    let entry : Forwarded := { id := x.nextId, src := h.src, port := h.srcPort, tag := h.tag, epoch := h.epoch, bulk := h.bulk
                               prio := h.prio, op, addr := f.addr, dstR := dr, dstP := dp
                               left := if isWrite op then f.len + 1 else 0 }
    let record := fun (en : Forwarded) s => updBundle s b fun x => { x with fwd := x.fwd ++ [en], nextId := x.nextId + 1 }
    let count := fun s => eccTransit (eccTransit s (targetUnit k) h.src (pWord p 0)) (targetUnit k) h.src (pWord p 1)
    let user : ReqUser := .bundle b x.nextId
    if op ≠ .wrp && c = 0 then refuseOver b rspUnmapped p s
    else if op = .rd && c < f.len + 1 then
      let sp : Split := { id := e.nextSplit, dstR := dr, dstP := dp, step := c, issued := 0, total := (f.len + c) / c, done := [], user
                          req := { op, addr := BitVec.ofNat 48 f.addr, len := BitVec.ofNat 6 f.len
                                   firstMask := BitVec.ofNat 32 f.first, lastMask := BitVec.ofNat 32 f.last, bulk := h.bulk
                                   prio := BitVec.ofNat 2 h.prio, key := BitVec.ofNat 6 h.key, raHint := f.raHint
                                   raStream := BitVec.ofNat 3 f.raStream } }
      some (subRead k (updEp (record entry (bufferPop b (count s))) k fun e =>
        { e with splits := e.splits ++ [sp], nextSplit := e.nextSplit + 1 }))
    else if !portReady e || (op ≠ .wrp && !creditsAllow s k dr (respParcels op f.len)) then none
    else
      let q := mkParcel { h with epoch := e.epoch, tag := e.nextId % 4096, age := 0, src := k / 4, srcPort := k % 4, dst := dr, dstPort := dp } p.pay
      let entry := { entry with own := e.nextId % 4096 }
      let queued : Queued := { id := e.nextId, op, addr := f.addr, len := f.len, dstR := dr, dstP := dp, need := respParcels op f.len, user }
      some (updEp (record entry (bufferPop b (count s))) k fun e =>
        { e with nextId := e.nextId + 1, outq := e.outq ++ [q], requests := e.requests ++ [queued] })

/-- A WDATA parcel follows its request under the request's name in the queue; without one it is dropped. -/
def dataOver (b : Nat) (p : Parcel) (s : Dev) : Dev :=
  let k := bridgeKey b
  let h := pHdr p
  match (getBundle s b).fwd.find? fun f => f.src = h.src && f.port = h.srcPort && f.tag = h.tag && f.left ≠ 0 with
  | none => bufferPop b s
  | some f =>
    let e := getEp s k
    let q := mkParcel { h with epoch := e.epoch, tag := f.own, age := 0, src := k / 4, srcPort := k % 4, dst := f.dstR, dstPort := f.dstP }
      p.pay
    let s := updEp s k fun e => { e with outq := e.outq ++ [q] }
    bufferPop b (updBundle s b fun x =>
      { x with fwd := (mapIf (fun g => g.id = f.id) (fun g => { g with left := g.left - 1 }) x.fwd).filter fun g =>
          !(g.id = f.id && g.op = .wrp && g.left = 0) })

/-- The first parcel of the buffer goes on; none where it waits. -/
def drainOne (b : Nat) (s : Dev) : Option Dev :=
  let k := bridgeKey b
  let st := epState s k
  match (getBundle s b).buffer with
  | [] => none
  | p :: _ =>
    let h := pHdr p
    if !(st = .active || st = .fenced) || !serves s b then none
    else if p.par ≠ hdrParity p.hdr then
      let (i0, s) := takeBit s
      let (i1, s) := takeBit s
      some (toFaultPort (k / 4) (i0.toNat + 2 * i1.toNat) 0 p (bufferPop b s))
    else if isResponse h.op then
      if !portReady (getEp s k) then none
      else
        let q := mkParcel { h with src := k / 4, srcPort := k % 4, age := 0 } p.pay
        some (updEp (bufferPop b s) k fun e => { e with outq := e.outq ++ [q] })
    else if h.op = 7 then (if portReady (getEp s k) then some (dataOver b p s) else none)
    else if isRequest h.op then
      let f := reqFields p
      match decodeAddr s false f.addr f.len f.first f.last with
      | .refused c => refuseOver b c p s
      | .to dr dp =>
        if st = .fenced then refuseOver b rspFenced p (if h.op = 2 then countDrop s k dropPosted p else s)
        else issueOver b dr dp p s
    else some (bufferPop b s)

/-- The buffer goes on as far as it can. -/
def drainN (b : Nat) : Nat → Dev → Dev
  | 0, s => s
  | n + 1, s => match drainOne b s with
    | none => s
    | some s => drainN b n s

def drain (b : Nat) (s : Dev) : Dev := drainN b (getBundle s b).buffer.length s

/-- An answer that waits for room goes over the bundle. -/
def sendOwed (b : Nat) (s : Dev) : Dev :=
  let x := getBundle s b
  match x.owed with
  | p :: ps => if frameRoom x = 0 || !bundleUp s b then s else sendFrame b (updBundle s b fun x => { x with owed := ps }) p
  | [] => s

/-- Requests forgotten by the attachment (R230) are forgotten by the bundle. -/
def pruneFwd (b : Nat) (s : Dev) : Dev :=
  let e := getEp s (bridgeKey b)
  let live := fun (f : Forwarded) => f.left ≠ 0 || e.txns.any (fun t => t.user = .bundle b f.id) ||
    e.requests.any (fun t => t.user = .bundle b f.id) ||
    e.splits.any (fun t => t.user = .bundle b f.id) || e.completions.any (fun t => t.user = .bundle b f.id)
  updBundle s b fun x => { x with fwd := x.fwd.filter live }

/-- The bridge engine acts once: it takes a parcel from the network, forwards a transaction, sends an answer, goes on with its
buffer and with a read that it has split (R291). It runs on the network clock, and so do the parcels that it enters (R458; DEDUCED,
assumption 155). -/
def bundleForward (b : Nat) (s : Dev) : Dev :=
  if !serves s b || !netRuns s then s
  else
    let k := bridgeKey b
    pruneFwd b (enterOne k (subRead k (drain b (sendAnswer b (sendOwed b (forwardHeld b (bridgeTake b (enterOne k s))))))))

/-! ## Frames that arrive (R463, R465, R466) -/

/-- What a frame's blocks hold: whether its syncs and CRC are good, and its bytes with the tag. -/
def frameBytes (enc : Bool) (blocks : List (BitVec 66)) : Option (List Nat × List Nat) :=
  match blocks with
  | [] => none
  | head :: rest =>
    let n := if enc then 8 else 7
    let bytes := (rest.take 7).flatMap fun x => leB 8 (fld x 63 0)
    if rest.length ≠ n || bit head 20 ≠ enc || rest.any (fun x => decide (blockSync x ≠ 1)) then none
    else if ofLe ((bytes.drop 49).take 4) ≠ crc32c ((leB 8 (fld head 63 0)).drop 1 ++ bytes.take 49) then none
    else some (bytes.take 49, leB 8 (fld (nth 0 rest 7) 63 0))

/-- The gap of R463: missed frames are counted as freed and lost. -/
def acceptGap (b g : Nat) (s : Dev) : Dev :=
  incR (updBundle s b fun x => { x with freed := (x.freed + g) % 65536, expect := (x.expect + g) % 2 ^ 64 }) (rLinkStatus b) 15 0 g

/-- A frame's tag fails (R466). -/
def tagFailed (b seq : Nat) (p : Parcel) (s : Dev) : Dev :=
  let k := bridgeKey b
  let h := pHdr p
  let s := incR (updBundle s b fun x => { x with freed := (x.freed + 1) % 65536 }) (rLinkErr b) 47 32 1
  let kind := if isResponse h.op then 1 else if isRequest h.op && h.op ≠ 2 then 0 else 2
  let s := raiseS s fltLinkAuth (b * 2 ^ 59 + kind * 2 ^ 57 + seq) (quadSector b)
  if kind = 0 then
    sendOwed b (updBundle s b fun x =>
      { x with owed := x.owed ++ [rspErr (k / 4) 1 rspBusError (reqFields p).addr h h.bulk h.prio] })
  else if kind = 1 then
    let ans := mkParcel { h with op := 10, key := rspBusError, seq := 0, last := true, src := k / 4, srcPort := k % 4, age := 0 } zeroPayload
    updEp s k (offerParcels k [ans])
  else s

/-- A PARCEL frame arrives; `lost` where a data block lies in an uncorrectable codeword. -/
def parcelFrame (b : Nat) (blocks : List (BitVec 66)) (lost : Bool) (s : Dev) : Dev :=
  let bad := incR s (rLinkErr b) 31 16 1
  if !bundleUp s b then s
  else match blocks with
    | [] => s
    | head :: _ =>
      let type := blockType head
      if blockSync head ≠ 2 || ([0x1E, 0xE2, 0xE3, 0xE4, 0xE5] : List Nat).contains type then s
      else if type ≠ 0xE1 then bad
      else
        let enc := linkEnc s b
        match if lost then none else frameBytes enc blocks with
        | none => bad
        | some (bytes, tag) =>
          let x := getBundle s b
          let seq := fld head 19 8
          let g := (seq + 4096 - x.expect % 4096) % 4096
          if 256 ≤ g then
            incR (updBundle s b fun x => { x with freed := (x.freed + 1) % 65536 }) (rLinkErr b) 15 0 1
          else
            let s := acceptGap b g s
            let c := (getBundle s b).expect
            let s := updBundle s b fun x => { x with expect := (x.expect + 1) % 2 ^ 64 }
            let iv := frameIv (!linkRole s b) c
            let aad := leB 8 (fld head 63 0) ++ bytes.drop 40
            let clear := if enc then gcmCtr (linkKey x) iv (bytes.take 40) ++ bytes.drop 40 else bytes
            let p := parcelOfBytes clear
            if enc && (gcmTag (linkKey x) iv aad (bytes.take 40)).take 8 ≠ tag then tagFailed b seq p s
            else drain b (updBundle s b fun x => { x with buffer := x.buffer ++ [p] })

/-- A CREDIT block arrives: the freed value, and losses at the end of the stream. -/
def creditBlock (b : Nat) (block : BitVec 66) (s : Dev) : Dev :=
  if !bundleUp s b || blockSync block ≠ 2 || blockType block ≠ 0xE2 then s
  else
    let s := updBundle s b fun x => { x with freedGot := fld block 35 20 }
    let g := (fld block 19 8 + 4096 - (getBundle s b).expect % 4096) % 4096
    if g < 256 then acceptGap b g s else s

/-- A CREDIT block is sent. -/
def creditSend (b : Nat) (s : Dev) : Dev :=
  if !bundleUp s b then s
  else
    let s := drain b s
    let x := getBundle s b
    emit (updBundle s b fun x => { x with freedSent := x.freed }) (.credit b (ctlBlock 0xE2 (x.counter % 4096 + x.freed * 2 ^ 12)))

/-! ## Bring-up (R461, R462) -/

/-- The lanes of a bundle that were brought up return to DETECT. -/
def relane (l : List Nat) (s : Dev) : Dev :=
  l.foldl (fun s n =>
    let st := (getLane s n).stage
    if laneMode s n = 4 && (st = .train || st = .lock || st = .exchange || st = .active) then enterDetect s n else s) s

/-- An ALIGN round: every lane index found, at the expected position. -/
def alignBlock (b : Nat) (found inPlace : Bool) (s : Dev) : Dev :=
  match (getBundle s b).state with
  | .aligning =>
    if found then
      updBundle s b fun x =>
        { x with state := .up, sent := 0, freedGot := 0, freed := 0, freedSent := 0, expect := x.peer, buffer := [], fwd := [], owed := [] }
    else s
  | .up => if inPlace then s else bundleEval (relane (bundleLanes s b) (leaveUp b .bringup s)) b
  | _ => s

/-- The key check of a CAP set. -/
def keyCheck (s : Dev) (b : Nat) : Nat :=
  if linkEnc s b then ofLe ((aesEnc (linkKey (getBundle s b)) (List.replicate 16 0)).take 4) else 0

/-- Capability words 0 to 3 that lane `n` of bundle `b` sends. -/
def capWords (s : Dev) (b n : Nat) : List Nat :=
  let c := (getBundle s b).counter
  let w0 := 1 + fldR s (rLinkCfg b) 2 0 * 2 ^ 8 + (n - 4 * b) * 2 ^ 11 + (linkEnc s b).toNat * 2 ^ 16 + (linkRole s b).toNat * 2 ^ 17
  let w1 := c % 2 ^ 48
  let w2 := c / 2 ^ 48 + keyCheck s b * 2 ^ 16
  [w0, w1, w2, crc16 (leB 6 w0 ++ leB 6 w1 ++ leB 6 w2)]

/-- The first mismatch of a received set with the lane's own, in the coding of LINK_STATUS.mismatch; 0 where it matches. -/
def capMismatch (s : Dev) (b n : Nat) (words : List Nat) : Nat :=
  let own := capWords s b n
  let o0 := nth 0 own 0
  let r0 := nth 0 words 0
  let r2 := nth 0 words 2
  let crc := crc16 ((words.take 3).flatMap (leB 6))
  firstCode [
    (nbits r0 7 0 ≠ 1, 1), (nbits r0 10 8 ≠ nbits o0 10 8, 2), (nbits r0 15 11 ≠ nbits o0 15 11, 3),
    (nbits r0 16 16 ≠ nbits o0 16 16, 4), (nbits r0 17 17 = nbits o0 17 17, 5),
    (linkEnc s b && nbits r2 47 16 ≠ keyCheck s b, 6), (nbits (nth 0 words 3) 15 0 ≠ crc, 7)]

/-- A set of CAP blocks is received on lane `n`. -/
def capBlock (n : Nat) (words : List Nat) (s : Dev) : Dev :=
  match bundleOfLane s n with
  | none => s
  | some b =>
    if (getLane s n).stage ≠ .exchange || laneMode s n ≠ 4 then s
    else
      let m := capMismatch s b n words
      if m ≠ 0 then emit (setR s (rLinkStatus b) 58 56 m) (.capAck n false)
      else
        let peer := nbits (nth 0 words 1) 47 0 + nbits (nth 0 words 2) 15 0 * 2 ^ 48
        emit (updLane (updBundle s b fun x => { x with peer }) n fun l => { l with ackSent := true }) (.capAck n true)

/-! ## Registers and key (R467, R466) -/

/-- A write of LINK_CFG_b takes the bundle down. -/
def linkCfgWrite (b : Nat) (v : Word) (s : Dev) : Dev :=
  let old := bundleLanes s b
  let was := bundleEn s b
  let s := leaveUp b .off s
  let s := putR s (rLinkCfg b) (BitVec.ofNat 64 (fld v 63 61 * 2 ^ 61 + fld v 2 0))
  let touched := (if was then old else []) ++ (if bundleEn s b then bundleLanes s b else [])
  let s := relane touched.eraseDups s
  evalBundles (bundleEval s b)

/-- A write of 1 to LINK_ERR_b.clr; `inc` tells which counts increment in that cycle. -/
def linkErrClr (b : Nat) (inc : BitVec 3) (s : Dev) : Dev :=
  clrCount (clrCount (clrCount s (rLinkErr b) 47 32 (bit inc 2)) (rLinkErr b) 31 16 (bit inc 1)) (rLinkErr b) 15 0 (bit inc 0)

/-- LINK_KEY_LOAD: a wrapped key of mode 2; the frame counter returns to 0. -/
def linkKeyLoad (b : Nat) (wrapped : List Word) (s : Dev) : Dev :=
  let u := unwrapKey s wrapped
  let code := firstCode [(u.1 ≠ 0, u.1), (u.2.1 ≠ 2, keyErrMode)]
  if code ≠ 0 then keyEnd 0x0403 code s
  else keyEnd 0x0403 0 (updBundle s b fun x => { x with key := u.2.2.take 32, counter := 0 })

end Sys2Proof.Machine
end

