-- ==== Sys2Proof/Machine/IoRows.lean ====
section
/-! DEFINITION. Edges of I/O cells, bank supplies, delay calibration (R472, R474, R475, R477). -/

namespace Sys2Proof.Machine

/-- One step of a delay tap (R475). -/
def tapStep (inc dec : Bool) (t : Nat) : Nat :=
  if inc = dec then t else if inc then min (t + 1) 255 else t - 1

/-- What the registers and taps of a cell take at an edge of its clock. -/
def cellEdge (g : IoCfg) (e : IoEdge) (pad : Bool) (x : IoCell) : IoCell :=
  if e.rising then
    let y := if g.inMode = 1 then { x with q1 := pad }
      else if g.inMode = 2 then { x with q1 := x.c1, q2 := x.c2, c1 := pad } else x
    let y := if g.outMode = 1 then { y with d1 := e.d1 } else if g.outMode = 2 then { y with d1 := e.d1, d2 := e.d2 } else y
    let y := if g.oeMode then { y with oe := e.oe } else y
    if g.dlyDyn then { y with itap := tapStep e.inInc e.inDec y.itap, otap := tapStep e.outInc e.outDec y.otap } else y
  else if g.inMode = 2 then { x with c2 := pad } else x

/-- An edge of the clock of I/O cell `c`, where its owner's clock runs. -/
def ioEdge (c : Nat) (e : IoEdge) (s : Dev) : Dev :=
  match ioOwner s c with
  | none => s
  | some i =>
    let g := cellFields (items s i) c
    if edgeAt s i g.clk then
      let pad := e.pad && knownStd c g.std.toNat && !stdMismatch s c g.std.toNat
      updCell s c (cellEdge g e pad)
    else s

/-- The sectors that faults of bank `b` name: those of its die's quadrant, or all for the banks of the management die. -/
def bankScope (b : Nat) : Nat := if b < 8 then quadSectors (b / 2) else allSectors

/-- Check the standards of a list of cells against their supplies; a cell whose standard no longer fits raises
FLT_IO_STANDARD (R472). -/
def stdCheck (cells : List Nat) (s : Dev) : Dev :=
  cells.foldl (fun s c =>
    match ioOwner s c with
    | none => s
    | some i =>
      let g := cellFields (items s i) c
      let bad := stdMismatch s c g.std.toNat && governing (items s i) c = c
      let was := (getCell s c).stdErr
      let s := if bad = was then s else updCell s c fun x => { x with stdErr := bad }
      if bad && !was then
        raiseS (setR s (rBank (c / 48)) 60 60 1) fltIoStandard
          (c / 48 * 2 ^ 60 + c % 48 * 2 ^ 54 + i * 2 ^ 48 + g.std.toNat * 2 ^ 16 + fldR s (rBank (c / 48)) 15 0) i
      else s) s

/-- The cells of bank `b`. -/
def bankCells (b : Nat) : List Nat := (List.range 48).map (48 * b + ·)

/-- A bank's supply leaves its limits: high impedance, FLT_IO_SUPPLY (R477). -/
def bankLoss (b : Nat) (above : Bool) (mv : Nat) (s : Dev) : Dev :=
  if !mainUp s then s
  else
    let s := setR (setR s (rBank b) 63 63 0) (rBank b) 15 0 mv
    let s := { s with io := { s.io with bankHiZ := tSet (fun _ => false) s.io.bankHiZ b true } }
    raise s fltIoSupply (b * 2 ^ 60 + above.toNat * 2 ^ 59 + mv % 2 ^ 16) (bankScope b)

/-- A bank measures its supply within limits: latches are reloaded from the active leaves, the cells leave high impedance. -/
def bankReturn (b mv : Nat) (s : Dev) : Dev :=
  if !mainUp s then s
  else
    let s := setR (setR s (rBank b) 63 63 1) (rBank b) 15 0 mv
    let s := (bankCells b).foldl (fun s c => match ioOwner s c with
      | none => s
      | some i => if (activeDesc s i).state = .active then
          updCell s c fun x => { x with latch := latchOf (cellFields (items s i) c) } else s) s
    let s := { s with io := { s.io with bankHiZ := tSet (fun _ => false) s.io.bankHiZ b false } }
    if s.power.pinsHeld then s else stdCheck (bankCells b) s

/-- The calibration engine of a bank has measured t_tap: trimmed, or failed (R475). -/
def delayCal (b tapFs : Nat) (ok : Bool) (s : Dev) : Dev :=
  if !mainUp s then s
  else
    let s := setR (setR s (rBank b) 62 62 ok.toNat) (rBank b) 47 32 tapFs
    if ok then s
    else raise (setR s (rBank b) 61 61 1) fltIoCal (b * 2 ^ 60 + tapFs % 2 ^ 16 * 2 ^ 32) (bankScope b)

end Sys2Proof.Machine
end

