-- ==== Sys2Proof/Machine/LaneTable.lean ====
section
/-! DEFINITION. The lane settings table (R424, R428, R440), and the events of start-up that reach beyond the configuration. -/

namespace Sys2Proof.Machine

/-- The entries of an image of the lane settings table, word pairs. -/
def tableEntries : ImageWords → List (Word × Word)
  | a :: b :: l => (a.1, b.1) :: tableEntries l
  | _ => []

/-- Keys rise strictly. -/
def keysRise : List (Word × Word) → Bool
  | a :: b :: l => decide (fld a.1 63 48 < fld b.1 63 48) && keysRise (b :: l)
  | _ => true

/-- The header that the store keeps with a copy of the table (R424). STORE_WRITE delivers the entries, and the Bureau writes the header
(DEDUCED, assumption 22). -/
def tableHeader (c : StoreCopy) : List Word :=
  let w := [BitVec.ofNat 64 (c.seq * 2 ^ 32 + 0x53544C46), BitVec.ofNat 64 (c.length / 16), BitVec.ofNat 64 c.crc, 0, 0, 0, 0]
  w ++ [BitVec.ofNat 64 (crc32c (wordBytes w))]

/-- A copy of the table that qualifies: its header is valid, its entries are as many as the header says and match its CRC, and their keys
rise strictly (R424). -/
def tableCopy (c : StoreCopy) : Option (List (Word × Word)) :=
  let es := tableEntries c.image
  if c.valid && c.length % 16 = 0 && decide (c.length ≤ 16 * 32768) && copyFits c && c.image.all (fun w => !w.2) && keysRise es then some es
  else none

/-- The Bureau caches the table (R428). Without a copy that qualifies every lane falls back and FLT_LANE_TABLE is raised once. -/
def cacheTable (s : Dev) : Dev :=
  let a := getCopy s (copyKey 3 0 0)
  let b := getCopy s (copyKey 3 0 1)
  let pick : Option LaneTable := match tableCopy a, tableCopy b with
    | some x, some y => if a.seq < b.seq then some ⟨1, b.seq, y⟩ else some ⟨0, a.seq, x⟩
    | some x, none => some ⟨0, a.seq, x⟩
    | none, some y => some ⟨1, b.seq, y⟩
    | none, none => none
  let put := fun (s : Dev) (r : Bool) =>
    { s with links := { s.links with lanes := { s.links.lanes with table := pick, noTableRaised := r } } }
  match pick with
  | some _ => put s false
  | none => if s.links.lanes.noTableRaised then put s true else raiseD (put s true) fltLaneTable 0

/-- STORE_WRITE; one of the lane settings table is cached when it completes. -/
def storeWriteOp (area slot : Nat) (overwrite single : Bool) (img : ImageWords) (res : StoreOutcome) (s : Dev) : Dev :=
  let t := storeWrite area slot overwrite single img res s
  if area = 3 && res = .ok && t.cfg.store ≠ s.cfg.store then cacheTable t else t

/-- Event 7 of start-up: output enables are released; the standards of the cells meet their supplies (R472). -/
def startupOutputRelease (s : Dev) : Dev :=
  let held := s.power.pinsHeld
  let s := startupOutputs s
  if held && !s.power.pinsHeld then stdCheck (List.range 480) s else s

/-- Event 8: DONE, with FAULT_N released after E4 (R496); the lane settings table is cached, lanes start, P0 retrains where auto_retrain is 1 (R213, R428, R432,
R453). -/
def startupDone (s : Dev) : Dev :=
  let was := s.cfg.done
  let s := startupDoneCore s
  if !was && s.cfg.done then
    pcieStartup (lanesEnter (cacheTable { s with power := { s.power with e4FaultN := false } }))
  else s

end Sys2Proof.Machine
end

