-- ==== Sys2Proof/Machine/Escalate.lean ====
section
/-! DEFINITION. Escalation timers and acknowledgement, levels E1 to E3, temperature, the fault registers' commands (R490 to R502). -/

namespace Sys2Proof.Machine

/-! ## Levels (R494) -/

/-- Levels E1 to E3 of group `g` take hold of `affected`. -/
def holdLevel (g level affected : Nat) (s : Dev) : Dev :=
  match level with
  | 1 => updGroup s g fun r => { r with pinHold := r.pinHold ||| affected }
  | 2 =>
    fenceSectors (bitsOf 64 affected)
      (updGroup s g fun r => { r with pinHold := r.pinHold ||| affected, secHold := r.secHold ||| affected })
  | 3 =>
    let s := updGroup s g fun r => { r with pinHold := allSectors, secHold := allSectors, e3 := true }
    pcieHold (lanesHold (fenceSectors (List.range 64) s))
  | _ => s

/-- Any group holds E3: the device safe state. -/
def safeState (s : Dev) : Bool := (List.range 8).any fun g => (getGroup s g).e3

/-- The differential level of STAR_OUT: 1 while unit 8 asserts it, outside the device safe state; JTAG can take it (R478, R518). -/
def starOut (s : Dev) : Option Bool :=
  if jtagHolds s then jtagDrives s 480
  else if mainUp s then some (!safeState s && tGet (fun _ => false) s.tb.level 8) else none

/-- FAULT_N is driven low (R496). -/
def faultN (s : Dev) : Bool := safeState s || s.power.e4FaultN

/-- The sectors of `mask` that no group holds any longer return to ACTIVE where they belong to no region (R495). The attachments
of a running commit's set stay as the commit leaves them. -/
def releaseSectors (mask : Nat) (s : Dev) : Dev :=
  let inRun := fun i => match s.cfg.commit with
    | some c => c.set.contains i
    | none => false
  ((bitsOf 64 mask).filter fun i => !secEscalated s i && (regionOf s i).isNone && (getSec s i).state = .fenced).foldl
    (fun s i =>
      let s := updSec s i fun x => { x with state := .active }
      if inRun i then s else setAtts s i .active) s

/-- A group's holds end (R495). -/
def releaseGroup (g : Nat) (s : Dev) : Dev :=
  let r := getGroup s g
  let s := updGroup s g fun r => { r with esc := .idle, affected := 0, pinHold := 0, secHold := 0, e3 := false, crit := false }
  let s := releaseSectors r.secHold s
  if r.e3 && !safeState s then pcieRelease (lanesRelease s) else s

/-! ## Timers and acknowledgement (R492, R493) -/

/-- The escalation timer of group `g` expires. -/
def escalationExpiry (g : Nat) (s : Dev) : Dev :=
  let r := getGroup s g
  if r.esc = .timing then
    let s := updGroup s g fun r => { r with esc := .escalated }
    sendVector (updGroup (applyLevel s g (levelOf s g) r.affected) g fun r => { r with sent := true }) g
  else s

/-- A further timer_us has passed at E3 without acknowledgement. -/
def e3Expiry (g : Nat) (s : Dev) : Dev :=
  let r := getGroup s g
  if r.esc = .escalated && levelInForce s g = 3 && r.applied = 3 && bitR s (rFltCfg g) 62 then applyLevel s g 4 r.affected else s

/-- Every temperature reading is below 100 °C (R498). -/
def tempsCool (s : Dev) : Bool := s.power.temps.all fun e => decide (sint 8 e.2 < 100)

/-- Group `g` is acknowledged. -/
def acknowledge (g : Nat) (s : Dev) : Dev :=
  let r := getGroup s g
  match r.esc with
  | .idle => s
  | .timing => updGroup s g fun r => { r with esc := .idle, affected := 0 }
  | .escalated => if r.crit && !tempsCool s then s else releaseGroup g s

/-- FAULT_ACK: the groups of its mask. -/
def faultAck (mask : Nat) (s : Dev) : Dev := mbxEndOp 0x0601 famMbx 0 [] ((bitsOf 8 mask).foldl (fun s g => acknowledge g s) s)

/-- A write of 1 to FLT_REC_g.valid (R490). -/
def freeRecord (g : Nat) (s : Dev) : Dev :=
  updGroup s g fun r => { r with valid := false, overflow := false, count := 0, source := 0, detail := 0, time := 0 }

/-- A write of 1 to FLT_SUMMARY.lock (R500). -/
def faultLock (s : Dev) : Dev := setR s rFltSummary 63 63 1

/-- A source is raised where it stands: named, with the sectors of its scope; a Cabinet source has scope C (R487, R490). -/
def faultRaise (id detail scope : Nat) (s : Dev) : Dev :=
  if isSource id then raise s id detail (if id / 512 = 7 then 0 else scope) else s

/-- A write of 1 to FLT_REC_g.valid while faults (id, detail, scope) arrive in the same management clock cycle: the record is
freed, then they are taken in ascending source id (R2, R490). -/
def recordFree (g : Nat) (same : List (BitVec 12 × Word × Word)) (s : Dev) : Dev :=
  (sortKey (fun x : BitVec 12 × Word × Word => x.1.toNat) same).foldl
    (fun s x => faultRaise x.1.toNat x.2.1.toNat x.2.2.toNat s) (freeRecord g s)

/-- A write of FLT_INJECT (R502): with the factory test fuse intact and TEST_MODE high at the release of power-on reset it raises
the source that it names. The manual gives the fault no detail and no scope: both are free words (assumption 105). -/
def faultInject (v : Nat) (s : Dev) : Dev :=
  if s.bureau.keys.testFuse && s.power.testMode && v.testBit 63 then
    let (detail, s) := takeWord s
    let (scope, s) := takeWord s
    faultRaise (nbits v 11 0) detail.toNat scope.toNat s
  else s

/-! ## Temperature (R497, R498) -/

/-- The highest reading, with its sensor. -/
def hottest (l : List (Nat × Nat)) : Option (Nat × Nat) :=
  l.foldl (fun best x => match best with
    | none => some x
    | some b => if sint 8 b.2 < sint 8 x.2 then some x else best) none

/-- The readings that reach 110 °C, in sensor order (R498). -/
def criticalReadings (readings : List (Nat × Nat)) (s : Dev) : List (Nat × Nat) :=
  sortKey Prod.fst (readings.filter fun x => 110 ≤ sint 8 x.2 && sint 8 (tGet (fun _ => 0) s.power.temps x.1) < 110)

/-- The sensors are read. -/
def temperatureSample (readings : List (Nat × Nat)) (s : Dev) : Dev :=
  match hottest readings with
  | none => s
  | some (k, v) =>
    let t := sint 8 v
    let crit := criticalReadings readings s
    let high : Int := min (fldR s rFltTherm 31 24) 105
    let s := { s with power := { s.power with temps := readings.foldl (fun m x => tSet (fun _ => 0) m x.1 x.2) s.power.temps } }
    let s := setR s rFltTherm 7 0 v
    let detail := k * 2 ^ 58 + v
    let s :=
      if high ≤ t && s.power.highArmed then raiseD { s with power := { s.power with highArmed := false } } fltTempHigh detail
      else if t ≤ high - 5 then { s with power := { s.power with highArmed := true } } else s
    crit.foldl (fun s x => raiseD s fltTempCrit (x.1 * 2 ^ 58 + x.2)) s

end Sys2Proof.Machine
end

