-- ==== Sys2Proof/Machine/Resets.lean ====
section
/-! DEFINITION. Warm reset, RECONFIGURE and the health timeout; power-on reset, rails and straps; levels carried out at the end of a
command (R212, R216, R494, R521 to R529, R544). -/

namespace Sys2Proof.Machine

/-! ## What every reset of the main side does to sectors and commands -/

/-- An attachment of a sector becomes RESETTING; its epoch increments at the entry from another state (R230). -/
def attResetting (s : Dev) (k : Nat) : Dev :=
  updEp s k fun e => if e.state = .resetting then e else { bumpEpoch e with state := .resetting }

/-- Sector `i` enters the initial-load state of R212. -/
def initialLoad (s : Dev) (i : Nat) : Dev :=
  let s := (sectorAtts i).foldl attResetting (portsDown i s)
  updSec (applyGsr s i) i fun x => { x with state := .initialLoad, clocks := false, quiet := false, iso := [], wires := [] }

/-- A sector of a region that stays OFF (R544). -/
def staysOff (s : Dev) (i : Nat) : Bool :=
  let x := getSec s i
  (x.state = .offRetained || x.state = .offLost) && !x.vcc

/-- Region sequences stop; a power-down past event 6 completes, a power-up goes on to event 3 (R544). -/
def stopRegions (s : Dev) : Dev :=
  let s := s.cfg.regions.foldl (fun s q =>
    if q.cmd = .offLose && q.event = 6 then (regionLive s q.region).foldl unpowerConfig s else s) s
  let s := s.cfg.regions.foldl (fun s q => setR (setR s (rRegionStatus q.region) 63 63 0) (rRegionStatus q.region) 59 56 0) s
  updCfg s fun c => { c with regions := (c.regions.filter fun q => q.cmd = .on && q.event = 1).map fun q => { q with ended := true } }

/-- A commit or rollback meets a reset (R179): before the strobe it ends with RESET; after it the flip stands and the command
ends OK. -/
def resetCommit (s : Dev) : Dev :=
  match s.cfg.commit with
  | none => s
  | some c =>
    if c.event < 5 then endCommitEarly rsnReset s
    else
      let s := quietRelease c.set s
      let s := updCfg s fun g => { g with commit := none }
      let s := setR (setR (setR s rCommitStatus 31 31 0) rCommitStatus 30 29 0) rCommitStatus 23 20 0
      if c.mailbox then mbxEndOp (runOp c.rollback) (runFam c.rollback) 0 [] s else s

/-- A start-up meets a reset (R213): that of a COMMIT FULL is answered RESET before event 3 and OK from it on. -/
def resetStartup (s : Dev) : Dev :=
  match s.cfg.startup with
  | none => s
  | some u =>
    let code := if u.event < 3 then rsnReset else 0
    let s := updCfg s fun c => { c with startup := none }
    if u.fromCommit then
      mbxEndOp 0x0103 famCommit code [] (setR (setR s rCommitStatus 31 31 0) rCommitStatus 23 20 code)
    else s

/-- MBX_ERR_RESET. -/
def mbxErrReset : Nat := 3

/-- Running commands end (R514, R529 event 1). -/
def endCommands (s : Dev) : Dev :=
  let s := resetStartup (resetCommit (resetLoad s))
  stopHealth (mbxEnd famMbx mbxErrReset [] (stopRegions s))

/-- Pins, sectors, lanes and links take the state of R212 (R432, R454). -/
def enterInitial (s : Dev) : Dev :=
  let s := { s with power := { s.power with pinsHeld := true } }
  let s := updCfg s fun c => { c with
    done := false, startup := none, scrub := { c.scrub with waiting := c.scrub.waiting.filter fun k => k / 4096 = 64 } }
  let s := ((List.range 64).filter fun i => !staysOff s i).foldl initialLoad s
  pcieReset (lanesReset (clearBar4 s))

/-- PLLs in holdover restart on their reference (R130). -/
def restartHoldover (s : Dev) : Dev :=
  (List.range 63).foldl (fun s p => if pllState s p = .holdover then pllRestart s p else s) s

/-! ## Warm reset (R528, R529) -/

/-- The registers that warm reset returns to their reset values (R25, R239, R281, R300, R304, R451); DROP.reasm is reloaded. -/
def warmReg (a : Nat) : Bool :=
  let o := a % 2 ^ 20
  let edge := fun q => ringReg q a || (rPcieXlate q 0 ≤ a && a < rPcieXlate q 16)
  (rXlate 0 ≤ a && a < rXlate 16) || (List.range 4).any edge ||
    (a / 2 ^ 20 = 3 && ((0x3000 ≤ o && o < 0x3080) || (0x3200 ≤ o && o < 0x3400))) || (a / 2 ^ 20 = 6 && o < 0x20000)

/-- Events 1 and 2. Every hold ends, and the groups' records are kept (R492). -/
def warmStart (byE4 : Bool) (s : Dev) : Dev :=
  if s.power.warm.isSome then s
  else
    let s := endCommands s
    let held := s.links.lanes.heldE3
    let s := (List.range 8).foldl (fun s g => updGroup s g fun r =>
      { r with esc := .idle, pinHold := 0, secHold := 0, e3 := false, crit := false }) s
    let s := { s with links := { s.links with lanes := { s.links.lanes with heldE3 := false } } }
    let s := enterInitial s
    let s := (List.range 4).foldl (fun s q => dmasReset q s) s
    let s := (List.range 64).foldl loadReasm (resetR s warmReg)
    let s := if held && laneTiming s && (getLane s 0).stage = .off then laneMove 0 (fun s => enterDetect s 0) s else s
    let s := setR s rLoadStatus 39 32 0
    let s := updCfg s fun c => { c with boot := { c.boot with running := false, attempt := none, cands := [], tried := [], waitHost := false, reload := false } }
    { s with power := { s.power with warm := some { event := 2, byE4, rstLow := !byE4 }, e4FaultN := s.power.e4FaultN || byE4
                                     warmPending := false } }

/-- Events 3 and 4: dirty nodes written back, channels in self-refresh, network emptied, fabric PLLs stopped, network PLL
restarted. -/
def warmQuiesced (s : Dev) : Dev :=
  match s.power.warm with
  | some w =>
    if w.event = 2 then
      let s := (List.range 4).foldl (fun s n => sramWarm n s) s
      let s := (List.range 12).foldl (fun s e => updEng (flushCache s e) e fun g => { g with cache := [] }) s
      let s := (List.range 8).foldl (fun s n => ddrWarmBegin n s) s
      let s := emptyNetwork s
      let s := (List.range 16).foldl (fun s p => setPll s (3 + p) .off) s
      let s := if pllState s 2 = .off then s else pllRestart s 2
      { s with power := { s.power with warm := some { w with event := 4 } } }
    else s
  | none => s

/-- Event 7, once the network PLL has locked: channels leave self-refresh, start-up on the active leaves or the boot procedure. -/
def warmResume (s : Dev) : Dev :=
  if s.power.warmPending && netRuns s then
    let s := { s with power := { s.power with warmPending := false } }
    let s := (List.range 8).foldl (fun s n => ddrWarmEnd n s) s
    if (List.range 64).any fun i => (activeDesc s i).state = .active then startStartup false false true s else s
  else s

/-- Decoders that fail their self-test leave service (R50). -/
def decoderFails (l : List DecoderFail) (s : Dev) : Dev :=
  l.foldl (fun s f =>
    match f with
    | .ddr n merge p => raise (ddrLeave n.val .decoder s) fltDecoder (n.val * 2 ^ 57 + merge.toNat * 2 ^ 38 + p.val) (unitScope n.val)
    | .sram n merge p => raise (dieOut n.val s) fltDecoder ((8 + n.val) * 2 ^ 57 + merge.toNat * 2 ^ 38 + p.val) (unitScope (8 + n.val))
    | .engine e p =>
      let s := if e.val < 8 then ddrLeave e.val .decoder s else dieOut (e.val - 8) s
      raise s fltDecoder (uEngine e.val * 2 ^ 57 + p.val) (unitScope (uEngine e.val))
    | .drawer i d b p =>
      let s := bumpMap { s with units := { s.units with sectors := i.val :: s.units.sectors } }
      raise s fltDecoder (uSector i.val * 2 ^ 57 + d.val * 2 ^ 40 + b.toNat * 2 ^ 39 + p.val) (unitScope (uSector i.val))
    | .att a p =>
      let k := attKey a
      let q := sectorOfAddr (k / 4) / 16
      let s := bumpMap { s with units := { s.units with atts := attNumber k :: s.units.atts } }
      raise s fltDecoder (uQuadrant q * 2 ^ 57 + k / 4 * 2 ^ 48 + k % 4 * 2 ^ 47 + p.val) (unitScope (uQuadrant q))
    | .pcie q p =>
      let s := bumpMap { s with units := { s.units with pcie := q.val :: s.units.pcie } }
      raise s fltDecoder (uPcie q.val * 2 ^ 57 + p.val) (unitScope (uPcie q.val))
    | .loader p =>
      let s := bumpMap { s with units := { s.units with loaderDec := true } }
      raise s fltDecoder (uLoader * 2 ^ 57 + p.val) (unitScope uLoader)) s
where
  dieOut (n : Nat) (s : Dev) : Dev :=
    if sramOut s n then s
    else
      let s := updDie s n fun d => { d with parityRuns := [], accs := [] }
      loseRanges 1 1 n (bumpMap { s with units := { s.units with sram := n :: s.units.sram } })

/-- Decoders in units that warm reset also resets (R49). -/
def warmDecoder : DecoderFail → Bool
  | .drawer _ _ _ _ | .att _ _ | .pcie _ _ => true
  | _ => false

/-- Events 5 to 7: the end of the warm reset. -/
def warmEnd (fails : List DecoderFail) (s : Dev) : Dev :=
  match s.power.warm with
  | some w =>
    if w.event = 4 then
      let s := { s with power := { s.power with warm := none, warmPending := true } }
      let s := actRefSel (restartHoldover s)
      let s := decoderFails (fails.filter warmDecoder) s
      let s := if (List.range 64).any fun i => (activeDesc s i).state = .active then s
        else updCfg s fun c => { c with boot := { c.boot with due := true } }
      warmResume s
    else s
  | none => s

/-! ## RECONFIGURE and the health timeout (R216, R528) -/

/-- The sectors of regions that stay OFF are powered up by events 1 and 2 of R237 (R544). -/
def powerUpOff (s : Dev) : Dev :=
  (List.range 16).foldl (fun s r =>
    let l := (regionLive s r).filter (staysOff s)
    match l with
    | [] => s
    | i :: _ =>
      let q : RegionSeq := { region := r, cmd := .on, event := 1, prior := (getSec s i).state, switches := 1, ended := true, strobes := false }
      let s := l.foldl initialLoad s
      updCfg (closeSwitch s i) fun c => { c with regions := c.regions ++ [q] }) s

/-- RECONFIGURE: sectors and pins as R212, ref_sel acted on, then the boot procedure. The Bureau's own keeps the count of attempts
and the copies tried. -/
def reconfigure (own : Bool) (s : Dev) : Dev :=
  let s := enterInitial (endCommands s)
  let s := (List.range 64).foldl emptySector s
  let s := powerUpOff s
  let s := actRefSel (restartHoldover s)
  let s := if own then s else setR s rLoadStatus 39 32 0
  updCfg s fun c => { c with
    confErrN := true
    boot := { due := true, tried := if own then c.boot.tried else [] } }

/-- The RECONFIGURE command: OK is written, then the reload. It waits while a commit runs (R179). -/
def reconfigureCmd (s : Dev) : Dev :=
  if s.cfg.commit.isSome then s else reconfigure false (mbxEndOp 0x0105 famMbx 0 [] s)

/-- The running check times out (R216). A reload that meets a commit waits for its end (R179). -/
def healthTimeout (s : Dev) : Dev :=
  if !s.cfg.health.running then s
  else
    let h := s.cfg.health
    let s := setR (stopHealth s) rHealth 61 61 1
    let roll := decide (rollbackRefusal s 16 = 0)
    let action := if !bitR s rBootCfg 12 then 0 else if roll then 1 else if h.afterBoot then 2 else 0
    let s := raiseD s fltHealth (h.ms % 2 ^ 32 * 2 ^ 32 + action * 2 ^ 30 + h.afterCommit.toNat * 2 ^ 29 + h.count % 2 ^ 28)
    match action with
    | 1 => doRollback 16 false s
    | 2 =>
      let s := incR s rLoadStatus 39 32 1
      if s.cfg.commit.isSome then updCfg s fun c => { c with boot := { c.boot with reload := true } } else reconfigure true s
    | _ => s

/-! ## Power-on reset of the main side (R521 to R528) -/

/-- The Cabinet's part of the configuration state: sector 64. -/
def cabPart (c : Config) : Config :=
  let mine := fun k => k / 4096 = 64
  { store := c.store, bootRecord := c.bootRecord, bootRecordB := c.bootRecordB
    frames := c.frames.filter fun e => mine e.1, ledger := c.ledger.filter fun e => mine e.1
    ledgerBase := c.ledgerBase.filter fun e => e.1 / 2 = 64, leaves := c.leaves.filter fun e => e.1 / 2 = 64
    active := c.active.filter fun e => e.1 = 64, repair := c.repair.filter fun e => e.1 / 2 = 64, index := c.index.filter fun e => mine e.1
    boot := { due := false }
    scrub := { pos := c.scrub.pos.filter fun e => e.1 = 4, inPos := c.scrub.inPos.filter fun e => e.1 = 4
               ratio := c.scrub.ratio.filter fun e => e.1 = 4, second := cabCopy c.scrub.second, third := cabCopy c.scrub.third
               unrestored := c.scrub.unrestored.filter mine
               scheduled := c.scrub.scheduled.filter mine, waiting := c.scrub.waiting.filter mine } }
where cabCopy (x : ScrubCopy) : ScrubCopy :=
  let mine := fun (e : Nat × Nat) => decide (e.1 = 4)
  { pos := x.pos.filter mine, inPos := x.inPos.filter mine, ratio := x.ratio.filter mine }

/-- Controllers under power-on reset: the level of PCIE_PERST_N stays as the board drives it. -/
def perstOnly (t : Tbl Pcie) : Tbl Pcie := (t.filter fun e => e.2.perstHigh).map fun e => (e.1, { perstHigh := true })

/-- The main side in power-on reset: what is left is the store, the one-time memory, the persistent log and the Cabinet. -/
def porState (groupA : Bool) (s : Dev) : Dev :=
  { s with
    regs := [], sectors := s.sectors.filter fun e => e.1 = 64, eccLog := [], thr := []
    clk := { iro := groupA }, cfg := cabPart s.cfg, net := {}, mem := {}, enc := {}, links := { pcie := perstOnly s.links.pcie }
    io := {}, tb := {}, groups := [], units := { gatewayDec := s.units.gatewayDec }
    power := { groupA, groupBC := false, por := true }
    bureau := { keys := s.bureau.keys }, due := [] }

/-- The main side enters power-on reset. The timing stream is lost with lane 0, and a Cabinet command meets R384. -/
def enterPor (groupA : Bool) (s : Dev) : Dev :=
  let lost := laneTiming s && (getLane s 0).stage = .active
  let s := cabMainLost s
  let s := if lost then streamLost (setStage .off s 0) else s
  let s := porState groupA s
  if cabUp s then cabSourceLost s 0 else s

/-- Group A enters its operating range (R523 event 1), and the decoders run their self-test (R49). -/
def mainPowerOn (fails : List DecoderFail) (s : Dev) : Dev := decoderFails fails (enterPor true s)

/-- VCC_FAB, VCC_NOC or VCC_CFG falls below 90 % (R521). -/
def railDrop (s : Dev) : Dev := if mainUp s then enterPor true s else s

/-- Group A falls (R524). -/
def groupAFall (s : Dev) : Dev := if s.power.groupA then enterPor false s else s

/-- What a stored size_log2 reads as (R27). -/
def bar4Size (v : Nat) : Nat := if 20 ≤ v && v ≤ 35 then v else 0

/-- The boot record's working copies (R136, R138, R209), and sign_fuse. -/
def loadBootRecord (s : Dev) : Dev :=
  let s := match s.cfg.bootRecord.or s.cfg.bootRecordB with
    | none => s
    | some r =>
      let s := putR s rBootCfg (BitVec.ofNat 64 (r.bootCfg % 2 ^ 21))
      let s := putR s rRefCfg (BitVec.ofNat 64 (r.refCfg % 2 ^ 41))
      setR (setR s rTbClkCtrl 17 16 r.startTarget) rBar4 21 16 (bar4Size r.sizeLog2)
  setR s rBootCfg 21 21 s.bureau.keys.signFuse.toNat

/-- The management-die power-on reset is released (R523 event 2): straps are sampled, the Bureau starts, judging starts (R126),
lane 0 runs in TIMING mode (R422), P0 serves early (R452). -/
def porRelease (x : Straps) (s : Dev) : Dev :=
  if !s.power.groupA || !s.power.por then s
  else
    let s := { s with power := { s.power with
      por := false, ioPullHp := x.ioPullHp.toNat, ioPullHv := x.ioPullHv.toNat, slotId := x.slotId.toNat
      cfgGrp := x.cfgGrp.toNat, testMode := x.testMode } }
    let s := updClk (loadBootRecord s) fun c => { c with xo := judgeStart, chref := judgeStart }
    let s := updClk s fun c => { c with pll1Src := fldR s rRefCfg 40 40 }
    let s := updCfg s fun c => { c with boot := { due := true } }
    let s := tbClimb (lanesPor s)
    let s := (List.range 4).foldl (fun s q => pcieServe q s) s
    if x.testMode && !s.bureau.keys.testFuse then raiseD s fltTestModePin 0 else s

/-! ## Rails (R521, R523, R525) -/

/-- What an absent rail takes out of service (R525). The sub-channel, rank and step of FLT_DDR_TRAIN, and the command of
FLT_SRAM_LINK, are open values here. -/
def railOutcome (r : RailState) (s : Dev) : Dev :=
  match r.rail.val with
  | 3 | 4 =>
    (List.range 32).foldl (fun s j =>
      if quadIn s j then raiseU (quadOut j s) fltLaneSelfTest (2 ^ 12 + j) (j / 8) else s) s
  | 5 =>
    (List.range 4).foldl (fun s n =>
      if sramOut s n then s
      else
        let (w, s) := takeWord s
        raiseU (decoderFails.dieOut n s) fltSramLink (n * 2 ^ 62 + (fld w 61 61) * 2 ^ 61 + fld w 47 0) n) s
  | 6 =>
    (List.range 2).foldl (fun s k =>
      let n := 2 * (r.unit.val % 4) + k
      if ddrOut s n then s
      else
        let (w, s) := takeWord s
        raiseU (ddrLeave n .train s) fltDdrTrain (n * 2 ^ 61 + fld w 60 58 * 2 ^ 58 + fld w 3 0) (n / 2)) s
  | 7 | 8 => bankLoss r.unit.val r.above r.mv.toNat s
  | _ => s

/-- The detail of FLT_RAIL_LIMIT. -/
def railDetail (r : RailState) : Nat := r.rail.val * 2 ^ 60 + r.unit.val * 2 ^ 56 + r.above.toNat * 2 ^ 55 + r.mv.toNat

/-- Rails without which the main side does not run (R525). -/
def vitalRail (r : RailState) : Bool := decide (r.rail.val < 3)

/-- Groups B and C are in range (R523 event 4); each bank has measured its supply. -/
def railsInRange (banks : List Nat) (s : Dev) : Dev :=
  if !mainUp s || s.power.groupBC then s
  else
    let s := startDevicePlls { s with power := { s.power with groupBC := true } }
    banks.zipIdx.foldl (fun s x => if x.1 ≠ 0 && x.2 < 10 then bankReturn x.2 x.1 s else s) s

/-- Groups B and C are not in range 100 ms after the release: the faults, and the boot policy waits for the host. Where only rails
that may be absent are missing, the rest of the device runs (R525). -/
def railTimeout (missing : List RailState) (banks : List Nat) (s : Dev) : Dev :=
  if !mainUp s || s.power.groupBC || missing.isEmpty then s
  else
    let s := missing.foldl (fun s r => raiseD s fltRail (railDetail r)) s
    let s := waitForHost (updCfg s fun c => { c with boot := { c.boot with due := false } })
    let s := { s with power := { s.power with railFail := true } }
    if missing.any vitalRail then s else missing.foldl (fun s r => railOutcome r s) (railsInRange banks s)

/-- A watched rail leaves its range for more than 10 µs. -/
def railLimit (r : RailState) (s : Dev) : Dev :=
  if mainUp s && r.rail.val < 7 then railOutcome r (raiseD s fltRail (railDetail r)) else s

/-! ## The end of a command -/

/-- Carry out the levels that faults of the command have applied (R492, R494). -/
def settleN : Nat → Dev → Dev
  | 0, s => { s with due := [] }
  | n + 1, s =>
    match s.due with
    | [] => s
    | l =>
      settleN n (l.foldl (fun s x => if x.2.1 = 4 then warmStart true s else holdLevel x.1 x.2.1 x.2.2 s) { s with due := [] })

/-- A reload has waited for a commit that has ended (R179, R216). -/
def reloadDue (s : Dev) : Bool := s.cfg.boot.reload && s.cfg.commit.isNone

/-- What a command's end carries out. A level can raise a fault that applies another one; three rounds are carried out. -/
def settle (s : Dev) : Dev :=
  let t := settleN 3 s
  if reloadDue t then updCfg (settleN 3 (reconfigure true t)) fun c => { c with boot := { c.boot with reload := false } } else t

/-! ## Clock events with what follows them -/

/-- PLL `p` locks on its running reference. -/
def pllLocked (p : Nat) (s : Dev) : Dev :=
  let st := pllState s p
  if !(st = .locking || st = .unlocked) || !pllHasRef s p then s
  else
    let s := setPll s p .locked
    if p = 1 then startDevicePlls s
    else if p = 2 then warmResume s
    else if 31 ≤ p then quadLocked (p - 31) s
    else s

/-- Events 1 and 2 of a clock switch (R133). -/
def switchConnect (d : ClkDomain) (s : Dev) : Dev :=
  match d with
  | .mgmt => updClk s fun c => { c with mgmt := connectSwitch c.mgmt }
  | .timebase => updClk s fun c => { c with tb := connectSwitch c.tb }
  | .cabinet => updCab s fun c => { c with sw := connectSwitch c.sw }
  | .gline q n => updLine s q.val n.val fun l => { l with sw := connectSwitch l.sw }

/-- Event 1a (R133). -/
def switchForce (d : ClkDomain) (s : Dev) : Dev :=
  match d with
  | .mgmt => updClk s fun c => { c with mgmt := forceSwitch c.mgmt }
  | .timebase => updClk s fun c => { c with tb := forceSwitch c.tb }
  | .cabinet => updCab s fun c => { c with sw := forceSwitch c.sw }
  | .gline q n => updLine s q.val n.val fun l => { l with sw := forceSwitch l.sw }

/-- Event 3. The timebase unit then goes on with the new source after `gap` lost edges, `blocks` stream blocks from the last code. -/
def switchComplete (d : ClkDomain) (gap blocks : Nat) (s : Dev) : Dev :=
  match d with
  | .mgmt => updClk s fun c => { c with mgmt := completeSwitch c.mgmt }
  | .timebase => tbSwitchDone gap blocks s
  | .cabinet => cabSwitchDone s
  | .gline q n => updLine s q.val n.val fun l => { l with sw := completeSwitch l.sw }

/-- The run-time select of a global line changes (R131). -/
def lineSource (q n : Nat) (side : Bool) (s : Dev) : Dev := updLine s q n fun l => { l with sw := requestSwitch side.toNat l.sw }

end Sys2Proof.Machine
end

