-- ==== Sys2Proof/Machine/Views.lean ====
section
/-! DEFINITION. Reading management space: the registers whose fields show other state of the device, and every other register
as it is stored (R22, R186, R507, R542 and the register tables of each chapter). -/

namespace Sys2Proof.Machine

/-- A word from fields, given as value and lowest bit. -/
def packW (l : List (Nat × Nat)) : Word := BitVec.ofNat 64 (l.foldl (fun v x => v ||| x.1 * 2 ^ x.2) 0)

/-- The stored register with further fields laid over it. -/
def withFields (s : Dev) (a : Nat) (l : List (Nat × Nat)) : Word := getR s a ||| packW l

/-! ## Codings -/

def judgeCode : JudgeState → Nat
  | .off => 0
  | .judging => 1
  | .stable => 2
  | .failed => 3
  | .tripped => 4

def leafCode : LeafState → Nat
  | .empty => 0
  | .loading => 1
  | .sealed => 2
  | .active => 3
  | .aborted => 4
  | .retired => 5

/-- SECTOR_STATE.state; the initial-load state reads 2 (R239). -/
def secCode : SecState → Nat
  | .active => 0
  | .fenced => 1
  | .resetting => 2
  | .initialLoad => 2
  | .offRetained => 3
  | .offLost => 4

def rangeCode : RangeState → Nat
  | .undefined => 0
  | .initialising => 1
  | .ready => 2
  | .lost => 3

def keyCode : KeyMode → Nat
  | .plaintext => 0
  | .xts => 1
  | .gcm => 2

def pcieCode : PcieState → Nat
  | .off => 0
  | .early => 1
  | .training => 2
  | .up => 3
  | .retraining => 4

def bundleCode : BundleState → Nat
  | .off => 0
  | .bringup => 1
  | .exchange => 2
  | .aligning => 3
  | .up => 4

def streamCode : StreamState → Nat
  | .search => 0
  | .locked => 1
  | .hold => 2

/-- RING_STATUS.state (R451). -/
def dmaCode : DmaState → Nat
  | .idle => 0
  | .running => 1
  | .stopped => 2
  | .error => 3

def tbModeCode : TbMode → Nat
  | .free => 0
  | .stream => 1
  | .running => 2

def escCode : EscState → Nat
  | .idle => 0
  | .timing => 1
  | .escalated => 2

/-! ## Words -/

/-- REF_STATUS (R139). -/
def viewRef (s : Dev) : Word :=
  packW [(s.clk.reduced.toNat, 40), ((if s.clk.mgmt.cur = 0 then 0 else 1), 39), (judgeCode s.clk.chref.state, 32),
    (judgeCode s.clk.xo.state, 24), (if s.clk.xo.state = .stable then s.clk.xoKhz % 2 ^ 24 else 0, 0)]

/-- TB_CLK_STATUS (R137). -/
def viewTbClk (s : Dev) : Word :=
  packW [(fldR s rTbClkStatus 47 32, 32), (fldR s rTbClkStatus 4 4, 4), (s.clk.tb.target.isSome.toNat, 3),
    ((decide (tbTarget s < s.clk.tb.cur)).toNat, 2), (s.clk.tb.cur % 4, 0)]

/-- A word of LEAF_DESC (R170). -/
def viewLeaf (s : Dev) (i l w : Nat) : Word :=
  let d := getLeaf s i l
  match w with
  | 0 => BitVec.ofNat 64 d.imageId
  | 1 => packW [(d.digest % 2 ^ 48, 16), ((activeLeaf s i == l).toNat, 7), (d.damaged.toNat, 6), (d.unavail.toNat, 5),
      (leafCode d.state, 0)]
  | 2 => packW [(d.seq % 2 ^ 32, 32), (d.commitId % 2 ^ 32, 0)]
  | _ => 0

/-- REGION_STATUS_n (R239). -/
def viewRegion (s : Dev) (n : Nat) : Word :=
  withFields s (rRegionStatus n) [(if regionMask s n = 0 then 0 else secCode (regionState s n), 60)]

/-- SECTOR_STATE_s (R239). -/
def viewSector (s : Dev) (i : Nat) : Word :=
  let r := regionOf s i
  packW [(r.isSome.toNat, 11), (r.getD 0, 7), ((secEscalated s i).toNat, 3), (secCode (getSec s i).state, 0)]

/-- DDR_CH_STATUS_n (R332). -/
def viewDdr (s : Dev) (n : Nat) : Word :=
  let c := getCh s n
  withFields s (rDdrStatus n) [(ddrStateCode c.state, 61), (c.cap % 512, 48), (c.ranks % 8, 45), (c.x8.toNat, 44), (c.gb32.toNat, 43),
    (c.rate % 256, 32)]

/-- A word of RANGE_m_r (R359). -/
def viewRange (s : Dev) (k w : Nat) : Word :=
  let g := getRange s k
  if g.state = .undefined then 0
  else match w with
    | 0 => packW [(rangeCode g.state, 62), (g.integrity.toNat, 61), (g.exhausted.toNat, 60), (g.slot % 64, 54), (g.base % 2 ^ 48, 0)]
    | 1 => packW [(g.size % 2 ^ 48, 0)]
    | 2 => if g.integrity then packW [(g.metaBase % 2 ^ 48, 0)] else 0
    | _ =>
      let kib := if g.integrity then (shareOf s (nth 0 g.engines 0) k).sliceSize / 1024 else 0
      let n := ((List.range 12).map fun e => ((getEng s e).unknown.filter fun u => u.rng = k).length).sum
      packW [(kib % 2 ^ 32, 32), (min n 31, 0)]

/-- ENC_SLOT_e_s (R359). -/
def viewSlot (s : Dev) (e n : Nat) : Word :=
  let x := getSlot s e n
  packW [((!x.key.isEmpty).toNat, 63), (keyCode x.mode, 61), (x.bound.isSome.toNat, 60), ((x.bound.getD 0) % 8, 56), (x.hw % 2 ^ 56, 0)]

/-- LANE_CFG_n: a lane that a controller holds reads mode 6 (R439). -/
def viewLaneCfg (s : Dev) (n : Nat) : Word :=
  if pcieHolds s n then putFld (getR s (rLaneCfg n)) 2 0 6 else getR s (rLaneCfg n)

/-- Words of LANE_APPLIED_n (R439). -/
def viewApplied (s : Dev) (n w : Nat) : Word := if w = 0 then (getLane s n).set0 else (getLane s n).set1

/-- LANE_TABLE_STATUS (R440). -/
def viewTable (s : Dev) : Word :=
  let t := s.links.lanes.table
  packW [(t.isSome.toNat, 63), (((t.map (·.copy)).getD 0) % 2, 62), (s.power.slotId % 64, 56),
    (((t.map (·.entries.length)).getD 0) % 2 ^ 16, 32), (((t.map (·.seq)).getD 0) % 2 ^ 32, 0)]

/-- PCIE_STATUS_q (R455). -/
def viewPcie (s : Dev) (q : Nat) : Word :=
  let c := getPcie s q
  withFields s (rPcieStatus q) [(pcieCode c.state, 61), (c.gen % 8, 58), (c.width % 32, 53), (maskOf (c.up.filter (· < 4)), 49)]

/-- TB_CAP_HEAD (R485). -/
def viewCapHead (s : Dev) (w : Nat) : Word :=
  match s.tb.queue with
  | [] => 0
  | c :: _ =>
    if w = 0 then BitVec.ofNat 64 c.time
    else packW [(1, 63), (tbModeCode c.mode, 21), (c.falling.toNat, 20), (c.source % 16, 16), (c.time / 2 ^ 64 % 2 ^ 16, 0)]

/-- A word of FLT_REC_g (R500). -/
def viewRec (s : Dev) (g w : Nat) : Word :=
  let r := getGroup s g
  match w with
  | 0 => packW [(r.valid.toNat, 63), (r.overflow.toNat, 62), (escCode r.esc, 60), (r.applied % 8, 57), (r.count % 2 ^ 16, 32),
      (r.source % 2 ^ 12, 0)]
  | 1 => BitVec.ofNat 64 r.detail
  | 2 => BitVec.ofNat 64 r.affected
  | _ => BitVec.ofNat 64 r.time

/-- FLT_SUMMARY (R500). -/
def viewSummary (s : Dev) : Word :=
  let mask := fun (p : FaultGroup → Bool) => maskOf ((List.range 8).filter fun g => p (getGroup s g))
  withFields s rFltSummary [((safeState s).toNat, 62), ((faultN s).toNat, 61), (mask fun r => r.esc = .escalated, 16),
    (mask fun r => r.esc = .timing, 8), (mask (·.valid), 0)]

/-- A word of the available-unit map (R506). -/
def unitMap (s : Dev) (w : Nat) : Word :=
  let live := fun (n : Nat) (out : Nat → Bool) => maskOf ((List.range n).filter fun i => !out i)
  match w with
  | 0 => BitVec.ofNat 64 (live 64 s.units.sectors.contains)
  | 1 => packW [((!s.units.gatewayDec).toNat, 49), ((!s.units.loaderDec).toNat, 48), (live 4 s.units.pcie.contains, 44),
      (live 4 s.units.sram.contains, 40), (live 8 (ddrOut s), 32), (live 32 s.units.quads.contains, 0)]
  | 2 => BitVec.ofNat 64 (tileMask s)
  | 7 => packW [(populatedGib s % 2 ^ 12, 32), (s.units.generation % 2 ^ 16, 0)]
  | n => if n < 7 then BitVec.ofNat 64 (live 64 fun b => s.units.atts.contains (64 * (n - 3) + b)) else 0

/-- KEYSTORE_STATUS (R516). -/
def viewKeys (s : Dev) : Word :=
  let k := s.bureau.keys
  let e := fun i => tGet (fun _ => ({} : SignEntry)) k.sign i
  packW ([(k.devKey.isSome.toNat, 63), (k.signFuse.toNat, 62), (maskOf ((k.imageKeys.map (·.1)).filter (· < 16)), 32)] ++
    (List.range 4).flatMap fun i => [((e i).programmed.toNat, 2 * i), ((e i).revoked.toNat, 2 * i + 1)])

/-- A word of an ECC log entry (R45). -/
def viewEccLog (s : Dev) (u n w : Nat) : Word :=
  let e := tGet (fun _ => ({} : EccEntry)) s.eccLog (16 * u + n)
  if w = 0 then packW [(e.valid.toNat, 63), (e.kind % 4, 61), (e.location % 2 ^ 48, 0)]
  else packW [(e.count % 2 ^ 16, 48), (e.syndrome % 2 ^ 15, 0)]

/-! ## Blocks -/

/-- Block 3. -/
def view3 (s : Dev) (o : Nat) : Word :=
  if o < 0x1000 then viewLeaf s (o / 0x40) (o % 0x40 / 0x20) (o % 0x20 / 8)
  else match slotOf o 0x3000 8 16 with
    | some n => viewRegion s n
    | none => match slotOf o 0x3200 8 64 with
      | some i => viewSector s i
      | none =>
        if o = 0x4008 then withFields s rScrubStatus [((scrubRuns s).toNat, 63)]
        else if o = 0x2000 then withFields s rBootCfg [((bitR s rBootCfg 20 || bitR s rBootCfg 21).toNat, 20)]
        else getR s (blk 3 + o)

/-- Block 8. -/
def view8 (s : Dev) (o : Nat) : Word :=
  if 0x3000 ≤ o && o < 0x3200 then viewRange s (8 * ((o - 0x3000) / 0x100) + (o - 0x3000) % 0x100 / 0x20) (o % 0x20 / 8)
  else if 0x10000 ≤ o && o < 0x11800 then viewSlot s ((o - 0x10000) / 0x200) (o % 0x200 / 8)
  else getR s (blk 8 + o)

/-- Block 6: an edge router's DROP.reasm is fixed, and 0 for debug access (R304). -/
def view6 (s : Dev) (o : Nat) : Word :=
  let a := o / 0x100
  if o % 0x100 = 0x40 && isEdgeAddr a && a ≠ debugAddr then withFields s (blk 6 + o) [(reasmSize s (4 * a) - 1, 48)]
  else getR s (blk 6 + o)

/-- Block 10. -/
def view10 (s : Dev) (o : Nat) : Word :=
  if 0x1000 ≤ o && o < 0x3000 then
    let n := (o - 0x1000) / 0x40
    match (o - 0x1000) % 0x40 with
    | 0 => viewLaneCfg s n
    | 8 => withFields s (rLaneStatus n) [(stageCode (getLane s n).stage, 61)]
    | 0x10 => viewApplied s n 0
    | 0x18 => viewApplied s n 1
    | _ => getR s (blk 10 + o)
  else if o = 0x3000 then viewTable s
  else getR s (blk 10 + o)

/-- Block 11. -/
def view11 (s : Dev) (o : Nat) : Word :=
  if o < 0x40000 then
    let q := o / 0x10000
    let r := o % 0x10000
    if r = 8 then viewPcie s q
    else if 0x1000 ≤ r && r < 0x1100 && r % 0x40 = 0x18 then
      let d := (r - 0x1000) / 0x40
      withFields s (rRingStatus q d) [(dmaCode (getDma s q d).state, 61)]
    else getR s (blk 11 + o)
  else if o < 0x42000 && o % 0x100 = 8 then
    let b := (o - 0x40000) / 0x100
    withFields s (rLinkStatus b) [(bundleCode (getBundle s b).state, 61)]
  else if o = 0x50000 then withFields s rTsStatus [(streamCode s.links.stream.state, 62)]
  else getR s (blk 11 + o)

/-- Block 12. -/
def view12 (s : Dev) (o : Nat) : Word :=
  if o = 0x10000 then BitVec.ofNat 64 (time80 s)
  else if o = 0x10008 then packW [(tbModeCode s.tb.mode, 16), (time80 s / 2 ^ 64 % 2 ^ 16, 0)]
  else if o = 0x10048 then withFields s rCapStatus [(s.tb.queue.length % 128, 32)]
  else if o = 0x10050 then viewCapHead s 0
  else if o = 0x10058 then viewCapHead s 1
  else getR s (blk 12 + o)

/-- Block 13. -/
def view13 (s : Dev) (o : Nat) : Word :=
  if o < 0x200 && 8 ≤ o % 0x40 && o % 0x40 ≤ 0x20 then viewRec s (o / 0x40) (o % 0x40 / 8 - 1)
  else if o = 0x400 then viewSummary s
  else match slotOf o 0x2000 8 8 with
    | some w => unitMap s w
    | none => getR s (blk 13 + o)

/-- Block 14. -/
def view14 (s : Dev) (o : Nat) : Word :=
  if o < 0x10000 then getR s (blk 14 + o)
  else viewEccLog s ((o - 0x10000) / 0x100) (o % 0x100 / 16) (o % 16 / 8)

/-- Block 15. -/
def view15 (s : Dev) (o : Nat) : Word :=
  if o = 0 then viewKeys s
  else if 0x100 ≤ o && o < 0x200 then
    let e := tGet (fun _ => ({} : SignEntry)) s.bureau.keys.sign ((o - 0x100) / 0x40)
    BitVec.ofNat 64 (e.hash / 2 ^ (64 * (o % 0x40 / 8)))
  else 0

/-- The 8-byte slot at a BAR0 offset, without what the read itself does. -/
def regView (s : Dev) (a : Nat) : Word :=
  let o := a % 2 ^ 20
  if (regFields a).isEmpty then 0
  else match a / 2 ^ 20 with
    | 2 => if o = 8 then viewRef s else if o = 0x18 then viewTbClk s else getR s a
    | 3 => view3 s o
    | 6 => view6 s o
    | 7 => if 0x1000 ≤ o && o % 0x100 = 8 then viewDdr s ((o - 0x1000) / 0x100) else getR s a
    | 8 => view8 s o
    | 9 => gwWord s o
    | 10 => view10 s o
    | 11 => view11 s o
    | 12 => view12 s o
    | 13 => view13 s o
    | 14 => view14 s o
    | 15 => view15 s o
    | _ => getR s a

/-- A read of the slot at BAR0 offset `a` (a multiple of 8): a ledger entry is decoded (R186); a read of FLT_REC word 0 lets the
group send again (R490); the time left of a running health check is an undefined value up to its timeout (assumption 23). -/
def mgmtRead (a : Nat) (s : Dev) : Word × Dev :=
  let o := a % 2 ^ 20
  match a / 2 ^ 20 with
  | 4 => if o < 0xC0000 then ledgerRead 0 (o / 8 / 1536) (o / 8 % 1536) s else (0, s)
  | 5 => if o < 0xC0000 then ledgerRead 1 (o / 8 / 1536) (o / 8 % 1536) s else (0, s)
  | 13 =>
    let v := regView s a
    if o < 0x200 && o % 0x40 = 8 then (v, updGroup s (o / 0x40) fun r => { r with sent := false }) else (v, s)
  | 3 =>
    if o = 0x2010 && bitR s rHealth 60 then
      let (w, s) := takeWord s
      (withFields (setR s rHealth 31 0 0) rHealth [(w.toNat % (fldR s rHealth 31 0 + 1), 0)], s)
    else (regView s a, s)
  | _ => (regView s a, s)

end Sys2Proof.Machine
end

