-- ==== Sys2Proof/Machine/Management.lean ====
section
/-! DEFINITION. The mailbox registers (R510 to R515) and writing management space (R1, R2, R5, R542): the fields of a register
under their access codes, then the actions that its WO and W1S bits name. -/

namespace Sys2Proof.Machine

/-! ## Counters that a write clears -/

/-- A write of 1 to ECC_CNT_u.clr; `inc` tells whether ce_count and ue_count increment in that cycle (R43, R44). -/
def eccCntClr (u : Nat) (inc : BitVec 2) (s : Dev) : Dev :=
  let s := clrCount (clrCount s (rEccCnt u) 15 0 (bit inc 0)) (rEccCnt u) 31 16 (bit inc 1)
  checkThreshold { s with thr := s.thr.filter (· ≠ u) } u

/-- A write of 1 to ECC_LOG word 0 valid frees the entry (R45). What the other fields of a free entry read is left open; the
whole entry returns to 0 (DESIGN CHOICE, assumption 126). -/
def eccLogFree (u n : Nat) (s : Dev) : Dev := { s with eccLog := tSet eccDflt s.eccLog (16 * u + n) {} }

/-- NOC_RTR_CNT_a.clr (R281): deflections, saturations, max_age. -/
def rtrCntClr (a : Nat) (inc : BitVec 2) (s : Dev) : Dev :=
  setR (clrCount (clrCount s (rRtrCnt a) 31 0 (bit inc 0)) (rRtrCnt a) 47 32 (bit inc 1)) (rRtrCnt a) 55 48 0

/-- NOC_ATT_CNT_a_p.clr (R281). -/
def attCntClr (a p : Nat) (inc : BitVec 2) (s : Dev) : Dev :=
  clrCount (clrCount s (rAttCnt a p) 15 0 (bit inc 0)) (rAttCnt a p) 31 16 (bit inc 1)

/-- NOC_FAULT_a.cnt_clr (R300). -/
def nocFaultClr (a : Nat) (inc : Bool) (s : Dev) : Dev := clrCount s (rNocFault a + 8) 47 32 inc

/-- NOC_ATT_DROP_a_p.clr (R304). -/
def attDropClr (a p : Nat) (inc : BitVec 4) (s : Dev) : Dev :=
  (List.range 4).foldl (fun s j => clrCount s (rDrop a p) (12 * j + 11) (12 * j) (inc.getLsbD j)) s

/-! ## The mailbox -/

/-- Paths in the coding of MBX_CLAIM.owner; 0 for a requester that cannot own the mailbox. -/
def pathCode : Path → Nat
  | .network => 0
  | .bar0 => 1
  | .mspi => 2
  | .debug => 3

def mbxBusy (s : Dev) : Bool := bitR s rMbxStatus 63
def mbxOwner (s : Dev) : Nat := fldR s rMbxClaim 1 0

/-- A write that R512 ignores for its path. -/
def mbxForeign (path : Nat) (s : Dev) : Bool := mbxOwner s ≠ 0 && mbxOwner s ≠ path

def mbxCollide (s : Dev) : Dev := setR s rMbxStatus 61 61 1

/-- Slots of each area of the store (R201). -/
def areaSlots (area : Nat) : Nat := nth 0 [8, 32, 2, 1] area

/-- The named bits of a store source word, with its slot in its area. -/
def storeWordOk (w : Nat) (named : Nat) : Bool :=
  w &&& named = w && decide (nbits w 13 8 < areaSlots (nbits w 15 14))

/-- Checks of the argument words that a command uses (R513, R515): reserved bits, ranges and the further cases. `w` gives argument
word 2 + i. -/
def mbxArgsOk (s : Dev) (op : Nat) (w : Nat → Nat) : Bool :=
  let only := fun named => w 0 &&& named = w 0
  match op with
  | 0x0101 | 0x0102 =>
    match nbits (w 0) 63 62 with
    | 0 => storeWordOk (w 0) 0xFF03 && decide (nbits (w 0) 15 14 < 2)
    | 1 => only (2 ^ 62 + (2 ^ 32 - 1))
    | 2 => w 0 = 2 ^ 63
    | _ => false
  | 0x0103 | 0x0104 => only 0x10F && !(bit (BitVec.ofNat 64 (w 0)) 8 && nbits (w 0) 3 0 ≠ 0)
  | 0x0201 => storeWordOk (w 0) 0xFF03
  | 0x0202 => only 0x3F
  | 0x0301 | 0x0302 => only 0xF
  | 0x0303 => only 0x10F
  | 0x0304 => only 0x30F && nbits (w 0) 9 8 ≠ 3
  | 0x0401 => only (3 * 2 ^ 62 + 0x3F0FFF) && (nbits (w 0) 63 62 = 1 || nbits (w 0) 63 62 = 2)
  | 0x0402 => only (3 * 2 ^ 62 + 2 ^ 60 + 7 * 2 ^ 56 + 0x3F * 2 ^ 48 + 0xF0F * 2 ^ 32 + 0x3FFFFFF) && nbits (w 0) 63 62 ≠ 0
  | 0x0403 => only 0x1F
  | 0x0404 =>
    let k := nbits (w 0) 63 60
    if k = 2 then only (15 * 2 ^ 60 + 0xF) else if k = 3 || k = 4 then only (15 * 2 ^ 60 + 3)
    else only (15 * 2 ^ 60) && (k = 1 || k = 5)
  | 0x0501 => only 7
  | 0x0503 =>
    let n := nbits (w 0) 37 32
    let first := nbits (w 0) 31 0
    only (2 ^ 38 - 1) && decide (1 ≤ n) && decide (s.cab.c < first + 1024) && decide (first + n ≤ s.cab.c + 1)
  | 0x0601 => only 0xFF
  | 0x0602 => only (2 ^ 38 - 1) && decide (1 ≤ nbits (w 0) 37 32)
  | _ => true

/-- The opcodes of R515. -/
def mbxOpcodes : List Nat :=
  [0x0101, 0x0102, 0x0103, 0x0104, 0x0105, 0x0201, 0x0202, 0x0301, 0x0302, 0x0303, 0x0304, 0x0401, 0x0402, 0x0403, 0x0404,
    0x0501, 0x0502, 0x0503, 0x0504, 0x0601, 0x0602, 0x0603]

/-- A write of go by a path (R511, R512): ignored with a collision, or the command area is copied and checked and the command
starts. -/
def mailboxGo (path : Nat) (s : Dev) : Dev :=
  if mbxForeign path s || mbxBusy s then mbxCollide s
  else
    let word := fun n => getR s (rMbxCmd n)
    let op := fld (word 0) 31 0
    let args := (List.range 254).map fun i => word (i + 2)
    let err := if !mbxOpcodes.contains op then 1
      else if word 1 ≠ 0 || !mbxArgsOk s op fun i => (nth 0 args i).toNat then 2 else 0
    let result : Option MbxResult := if err = 0 then none else some { family := famMbx, value := err }
    let s := setR (setR s rMbxStatus 63 63 1) rMbxStatus 31 0 op
    { s with bureau := { s.bureau with mbx := { run := some { opcode := op, seq := fld (word 0) 63 32, args }, result } } }

/-- The response area (R510, R512): word 0, the data of the command, and words that the manual gives no value (assumption 3). -/
def mbxFill (l : List Word) : Nat → Nat → Dev → Dev
  | 0, _, s => s
  | f + 1, n, s =>
    match l with
    | w :: rest => mbxFill rest f (n + 1) (putR s (rMbxResp n) w)
    | [] => let x := takeWord s; mbxFill [] f (n + 1) (putR x.2 (rMbxResp n) x.1)

/-- The response of a command that has ended: the response area, then busy 0, done 1 and vector 8 (R512). -/
def mailboxResponse (s : Dev) : Dev :=
  match s.bureau.mbx.run, s.bureau.mbx.result with
  | some c, some r =>
    let s := mbxFill (packW [(c.seq % 2 ^ 32, 32), (r.family % 256, 24), (r.value % 2 ^ 16, 0)] :: r.data) 256 0 s
    let s := setR (setR s rMbxStatus 63 63 0) rMbxStatus 62 62 1
    sendVector { s with bureau := { s.bureau with mbx := {} } } 8
  | _, _ => s

/-- A write of 1 to MBX_CLAIM.claim. -/
def mbxClaim (path : Nat) (s : Dev) : Dev := if mbxOwner s = 0 then setR s rMbxClaim 1 0 path else s

/-- A write of 1 to MBX_CLAIM.release. -/
def mbxRelease (path : Nat) (s : Dev) : Dev := if mbxOwner s = path then setR s rMbxClaim 1 0 0 else s

/-! ## Writes -/

/-- The lock of a register's RWL fields: BOOT_CFG.sign_fuse, ENC_CFG.lock or FLT_SUMMARY.lock (R209, R342, R500). -/
def regLock (s : Dev) (a : Nat) : Bool :=
  match a / 2 ^ 20 with
  | 3 => bitR s rBootCfg 21
  | 8 => bitR s rEncCfg 63
  | 13 => bitR s rFltSummary 63
  | _ => false

/-- The fields of a register after a write. -/
def mergedReg (s : Dev) (a mask data : Nat) : Word :=
  BitVec.ofNat 64 (writeFields (regLock s a) (regFields a) mask data (getR s a).toNat)

/-- The plain effect of a write. -/
def writeReg (a mask data : Nat) (s : Dev) : Dev := putR s a (mergedReg s a mask data)

/-- Act where bit `i` is written with 1. -/
def onBit (hits i : Nat) (f : Dev → Dev) (s : Dev) : Dev := if hits.testBit i then f s else s

/-- The mailbox and the MSI-X table (block 1). Claim is taken after release, so a write of both hands the mailbox over to its own
path. -/
def write1 (path o mask data : Nat) (s : Dev) : Dev :=
  let a := blk 1 + o
  let hits := mask &&& data
  if o < 0x800 then if mbxForeign path s || mbxBusy s then mbxCollide s else writeReg a mask data s
  else if o = 0x1000 then
    if mbxForeign path s then mbxCollide s
    else onBit hits 63 (mailboxGo path) (onBit hits 62 (loadAbort path) s)
  else if o = 0x1010 then onBit hits 63 (mbxClaim path) (onBit hits 62 (mbxRelease path) s)
  else if 0x20000 ≤ o then sendPending (writeReg a mask data s)
  else writeReg a mask data s

/-- Block 2. -/
def write2 (o mask data : Nat) (s : Dev) : Dev :=
  let hits := mask &&& data
  let s := writeReg (blk 2 + o) mask data s
  if o = 0 then onBit hits 63 rejudgeAll s
  else if o = 0x10 then
    tbClimb (if hits.testBit 61 then tbGo s 2 else if hits.testBit 62 then tbGo s 1 else if hits.testBit 63 then tbGo s 0 else s)
  else if o = 0x118 then cabClimb (tbClimb s)
  else s

/-- Block 3. -/
def write3 (o mask data : Nat) (s : Dev) : Dev :=
  let s := writeReg (blk 3 + o) mask data s
  if o = 0x4000 then onBit (mask &&& data) 62 (scrubCountsClear 0) (seqConfig (getR s rScrubCfg) s) else s

/-- Block 6. -/
def write6 (o mask data : Nat) (s : Dev) : Dev :=
  let a := o / 0x100
  let hits := mask &&& data
  if o = 0x20000 then writeReg (blk 6 + o) mask data s
  else match o % 0x100 with
    | 0 => onBit hits 63 (rtrCntClr a 0) s
    | 8 => onBit hits 63 (attCntClr a 0 0) s
    | 0x10 => onBit hits 63 (attCntClr a 1 0) s
    | 0x20 => edgeRegWrite a (mergedReg s (rEdgeReg a) mask data) s
    | 0x40 => onBit hits 63 (attDropClr a 0 0) s
    | 0x60 => onBit hits 63 (attDropClr a 1 0) s
    | 0x88 => onBit hits 62 (nocFaultClr a false) (writeReg (blk 6 + o) mask data s)
    | _ => writeReg (blk 6 + o) mask data s

/-- Block 7. -/
def write7 (o mask data : Nat) (s : Dev) : Dev :=
  let hits := mask &&& data
  let s := writeReg (blk 7 + o) mask data s
  if o = 0 then onBit hits 63 mapApply s
  else if 0x1000 ≤ o && o % 0x100 = 0 then onBit hits 63 (channelReset ((o - 0x1000) / 0x100)) s
  else s

/-- Block 8. -/
def write8 (o mask data : Nat) (s : Dev) : Dev :=
  if o = 0 then encCfgWrite mask data s
  else if o < 0x1800 then rightsWrite ((o - 0x1000) / 0x20) (o % 0x20 / 8) mask data s
  else if 0x12000 ≤ o && o % 0x20 = 0 then onBit (mask &&& data) 63 (encStatusClr ((o - 0x12000) / 0x20) 0) s
  else writeReg (blk 8 + o) mask data s

/-- Block 10. -/
def write10 (o mask data : Nat) (s : Dev) : Dev :=
  let a := blk 10 + o
  let hits := mask &&& data
  if o < 0x100 then quadCfgWrite (o / 8) (mergedReg s a mask data) s
  else if 0x1000 ≤ o && o < 0x3000 then
    let n := (o - 0x1000) / 0x40
    match (o - 0x1000) % 0x40 with
    | 0 => laneCfgWrite n (putBit (mergedReg s a mask data) 63 (hits.testBit 63)) s
    | 0x20 => onBit hits 63 (laneErrClr n 0) s
    | _ => writeReg a mask data s
  else writeReg a mask data s

/-- Block 11. -/
def write11 (o mask data : Nat) (s : Dev) : Dev :=
  let a := blk 11 + o
  let hits := mask &&& data
  if o < 0x40000 then
    let q := o / 0x10000
    let r := o % 0x10000
    let d := (r - 0x1000) / 0x40
    if r = 0 then
      let s := writeReg a mask data s
      if q = 0 then onBit hits 63 pcieRetrain s else s
    else if 0x1000 ≤ r && r % 0x40 = 8 then onBit hits 62 (dmaStop q d) (dmaEnable q d (mergedReg s a mask data) s)
    else if 0x1000 ≤ r && r % 0x40 = 0x10 then ringTailWrite q d (fld (mergedReg s a mask data) 19 0) s
    else writeReg a mask data s
  else if o < 0x42000 then
    let b := (o - 0x40000) / 0x100
    match o % 0x100 with
    | 0 => linkCfgWrite b (mergedReg s a mask data) s
    | 0x10 => onBit hits 63 (linkErrClr b 0) s
    | _ => writeReg a mask data s
  else writeReg a mask data s

/-- Block 12. A write of a trigger unit's time or period is a rewriting of that unit (R484); disarm takes precedence over arm. -/
def write12 (o mask data : Nat) (s : Dev) : Dev :=
  let a := blk 12 + o
  let hits := mask &&& data
  let w := writeReg a mask data s
  if o = 0x10018 then onBit hits 63 timeSetApply w
  else if o = 0x10040 then onBit hits 62 captureClr (onBit hits 63 capturePop w)
  else if 0x10100 ≤ o then
    let n := (o - 0x10100) / 0x20
    match o % 0x20 with
    | 8 =>
      let w := if fld (getR w a) 15 0 = fld (getR s a) 15 0 then w else trigRewritten n w
      if hits.testBit 57 then trigDisarm n w else onBit hits 63 (trigArm n) (if bitR s a 63 then w else setR w a 63 63 0)
    | 0 => trigRewritten n w
    | _ => w
  else w

/-- Block 13. FLT_INJECT ignores writes on a shipped part (R502). -/
def write13 (o mask data : Nat) (s : Dev) : Dev :=
  let hits := mask &&& data
  if o < 0x200 && o % 0x40 = 0 then onBit hits 63 (acknowledge (o / 0x40)) (writeReg (blk 13 + o) mask data s)
  else if o < 0x200 && o % 0x40 = 8 then onBit hits 63 (freeRecord (o / 0x40)) s
  else if o < 0x200 then s
  else if o = 0x2040 then (List.range 8).foldl (fun s n => onBit hits n (ddrRetry n) s) s
  else if o = 0x3000 then faultInject hits s
  else writeReg (blk 13 + o) mask data s

/-- Block 14. A new threshold is compared at the next increment. -/
def write14 (o mask data : Nat) (s : Dev) : Dev :=
  let hits := mask &&& data
  if o < 0x10000 then onBit hits 63 (eccCntClr (o / 8) 0) (writeReg (blk 14 + o) mask data s)
  else if o % 16 = 0 then onBit hits 63 (eccLogFree ((o - 0x10000) / 0x100) (o % 0x100 / 16)) s
  else s

/-- A write of the bits of `mask` in the slot at BAR0 offset `a` (a multiple of 8). -/
def slotWrite (path : Path) (a mask data : Nat) (s : Dev) : Dev :=
  let o := a % 2 ^ 20
  if (regFields a).isEmpty then s
  else match a / 2 ^ 20 with
    | 1 => write1 (pathCode path) o mask data s
    | 2 => write2 o mask data s
    | 3 => write3 o mask data s
    | 6 => write6 o mask data s
    | 7 => write7 o mask data s
    | 8 => write8 o mask data s
    | 10 => write10 o mask data s
    | 11 => write11 o mask data s
    | 12 => write12 o mask data s
    | 13 => write13 o mask data s
    | 14 => write14 o mask data s
    | 0 => writeReg a mask data s
    | _ => s

/-- The enabled bytes of a slot are one aligned group of 4 or of 8 (R542). -/
def groupOk (en : Nat) : Bool := en = 0xFF || en = 0x0F || en = 0xF0

/-- The W1C bits of the register at `a` that a coincident event keeps set (R2). A record of a fault group is not among them: the
fault that arrives with the write is taken after it (R490). -/
def w1cMask (a : Nat) : Nat :=
  if blk 13 ≤ a && a < blk 13 + 0x200 then 0
  else ((regFields a).filter fun f => f.acc = .w1c).foldl (fun m f => m ||| fieldMask f) 0

/-- A register of the timed triggers; the fourth slot of each unit holds none. -/
def isTrig (a : Nat) : Bool := rTrig 0 0 ≤ a && a < rTrig 9 0 && a % 32 < 24

/-- A write of the registers in `l`: those of the timed triggers are written at an edge at which units that are due fire first
(R484). -/
def beforeWrite (l : List Nat) (s : Dev) : Dev := if l.any isTrig then fireDue s else s

/-- A write access: `bytes` from BAR0 offset `a` on, those not enabled absent. It acts where the bytes enabled are one aligned
group of 4 or of 8, hence of one slot (R542). A W1C bit of `setNow`, which hardware sets in the same cycle, stays set (R2):
the write does not reach it (assumption 126). -/
def mgmtWrite (path : Path) (setNow a : Nat) (bytes : List (Option (BitVec 8))) (s : Dev) : Dev :=
  match bytes.findIdx? (·.isSome) with
  | none => s
  | some i =>
    let base := (a + i) / 8 * 8
    let slot := (List.range 8).map fun k => if a ≤ base + k then nth none bytes (base + k - a) else none
    let en := maskOf ((List.range 8).filter fun k => (nth none slot k).isSome)
    let all := (bytes.filter (·.isSome)).length = (slot.filter (·.isSome)).length
    let kept := w1cMask base &&& setNow
    let mask := byteMask (slot.map (·.isSome))
    if groupOk en && all && base < 2 ^ 26 then
      slotWrite path base (mask ^^^ (mask &&& kept)) (leNat (slot.map (·.getD 0))) (beforeWrite [base] s)
    else s

/-- A read access: the bytes enabled by `en` from BAR0 offset `a` on; a byte that is not enabled is 0. -/
def mgmtReadBytes (a : Nat) (en : List Bool) (s : Dev) : List (BitVec 8) × Dev :=
  let n := (a % 8 + en.length + 7) / 8
  let x := (List.range n).foldl (fun (r : List (BitVec 8) × Dev) i =>
    let base := a / 8 * 8 + 8 * i
    let used := (List.range 8).any fun k => a ≤ base + k && nth false en (base + k - a)
    let y := if used && base < 2 ^ 26 then mgmtRead base r.2 else (0, r.2)
    (r.1 ++ leBytes 8 y.1.toNat, y.2)) ([], s)
  (((x.1.drop (a % 8)).take en.length).zipIdx.map fun b => if nth false en b.2 then b.1 else 0, x.2)

/-- FLT_POISON_REFUSED of the Bureau (0) or the timebase unit (1) (R39, R488). -/
def mgmtPoison (unit port src addr : Nat) (s : Dev) : Dev :=
  raiseD s fltPoisonRefused (unit * 2 ^ 60 + port * 2 ^ 58 + src * 2 ^ 49 + addr % 2 ^ 48)

end Sys2Proof.Machine
end

