-- ==== Sys2Proof/Machine/Bureau.lean ====
section
/-! DEFINITION. The Bureau's commands (R506, R515, R516), its paths into management space (R23, R509, R518, R519), requests at the
Bureau and timebase unit, and the completions of edge requesters. -/

namespace Sys2Proof.Machine

def updBureau (s : Dev) (f : Bureau → Bureau) : Dev := { s with bureau := f s.bureau }

/-! ## The device key store (R516) -/

def updKeys (s : Dev) (f : KeyStore → KeyStore) : Dev := updBureau s fun b => { b with keys := f b.keys }

def signDflt : Nat → SignEntry := fun _ => {}

def getSign (s : Dev) (k : Nat) : SignEntry := tGet signDflt s.bureau.keys.sign k

def putSign (s : Dev) (k : Nat) (e : SignEntry) : Dev := updKeys s fun b => { b with sign := tSet signDflt b.sign k e }

/-- End a KEYSTORE command. -/
def keystoreEnd (code : Nat) (s : Dev) : Dev := keyEnd 0x0404 code s

/-- DEVKEY burns the device key: four words, bytes 0 to 31. -/
def keystoreDevKey (key : List Word) (s : Dev) : Dev :=
  if s.bureau.keys.devKey.isSome then keystoreEnd keyErrFused s
  else keystoreEnd 0 (updKeys s fun b => { b with devKey := some (wordBytes ((key ++ [0, 0, 0, 0]).take 4)) })

/-- IMAGE_KEY stores image key entry `e`. -/
def keystoreImageKey (e : Nat) (wrapped : List Word) (s : Dev) : Dev :=
  let u := unwrapKey s wrapped
  let code := firstCode [(u.1 ≠ 0, u.1), (u.2.1 ≠ 2, keyErrMode)]
  if code ≠ 0 then keystoreEnd code s
  else keystoreEnd 0 (updKeys s fun b => { b with imageKeys := tSet (fun _ => []) b.imageKeys e (u.2.2.take 32) })

/-- SIGN_ADD burns hash entry `k`: six words. -/
def keystoreSignAdd (k : Nat) (hash : List Word) (s : Dev) : Dev :=
  let e := getSign s k
  if e.programmed then keystoreEnd keyErrFused s
  else keystoreEnd 0 (putSign s k { e with hash := ofLe (wordBytes (hash.take 6)), programmed := true })

/-- SIGN_REVOKE burns the revoked bit of entry `k`. -/
def keystoreSignRevoke (k : Nat) (s : Dev) : Dev :=
  let e := getSign s k
  if !e.programmed || e.revoked then keystoreEnd keyErrEntry s
  else keystoreEnd 0 (putSign s k { e with revoked := true })

/-- SIGN_FUSE burns BOOT_CFG.sign_fuse. -/
def keystoreSignFuse (s : Dev) : Dev :=
  if (List.range 4).any fun k => (getSign s k).programmed && !(getSign s k).revoked then
    keystoreEnd 0 (setR (updKeys s fun b => { b with signFuse := true }) rBootCfg 21 21 1)
  else keystoreEnd keyErrEntry s

/-! ## Reading commands (R499, R506, R515) -/

/-- Undefined words. -/
def takeWords : Nat → Dev → List Word × Dev
  | 0, s => ([], s)
  | n + 1, s => let x := takeWord s; let y := takeWords n x.2; (x.1 :: y.1, y.2)

/-- Records of four words; a position that holds none gives undefined words. -/
def recordWordsOf (l : List (List Word)) (s : Dev) : List Word × Dev :=
  l.foldl (fun (r : List Word × Dev) ws =>
    if ws.length = 4 then (r.1 ++ ws, r.2) else let x := takeWords 4 r.2; (r.1 ++ x.1, x.2)) ([], s)

/-- FAULT_LOG_READ: the next record number, then `count` records from number `first` on. -/
def faultLogRead (count first : Nat) (s : Dev) : Dev :=
  if !mbxRuns s 0x0602 then s
  else
    let x := recordWordsOf ((List.range count).map fun i => tGet (fun _ => []) s.flog.recs ((first + i) % 2048)) s
    mbxEndOp 0x0602 famMbx 0 (BitVec.ofNat 64 (s.flog.next % 2 ^ 32) :: x.1) x.2

/-- UNIT_MAP_READ. -/
def unitMapRead (s : Dev) : Dev := mbxEndOp 0x0603 famMbx 0 ((List.range 8).map (unitMap s)) s

/-- CAB_EXPORT_LOG: C and E, then the records of counters `first` on. Of a Cabinet that does not answer the manual gives no data. -/
def cabExportLog (count first : Nat) (s : Dev) : Dev :=
  if !mbxRuns s 0x0503 then s
  else
    let x := if cabUp s then
        recordWordsOf ((List.range count).map fun i => tGet (fun _ => []) s.cab.onDie ((first + i + 1023) % 1024)) s
      else takeWords (4 * count) s
    let y : Word × Dev := if cabUp s then (packW [(s.cab.c % 2 ^ 32, 32), (s.cab.e % 2 ^ 32, 0)], x.2) else takeWord x.2
    mbxEndOp 0x0503 famMbx 0 (y.1 :: x.1) y.2

/-- CAB_ACK_EXPORT: the token is written to the staging buffer, and EXPORT_ACK follows. -/
def cabAckExport (token : List Word) (s : Dev) : Dev :=
  if !cabUp s then cabExportAck true s
  else
    let s := updCab s fun c => { c with
      staging := (token.take 33).zipIdx.foldl (fun t w => tSet (fun _ => 0) t w.2 w.1) c.staging }
    cabCommand (BitVec.ofNat 64 (0x13 * 2 ^ 56)) true s

/-! ## Interrupts and JTAG (R517, R518) -/

/-- The host unmasks vector `v`. -/
def msixUnmask (v : Nat) (s : Dev) : Dev := sendPending (setR s (rMsix v 1) 32 32 0)

/-- IDCODE of stepping B1. -/
def idcode : Nat := 0x112609E7

/-- The instructions of R518; every other code acts as BYPASS. -/
def jtagCodes : List Nat := [0x01, 0x02, 0x03, 0x04, 0x05, 0x06, 0x07, 0x20, 0xFF]

/-- An instruction is selected; IDCODE presents the identification code. -/
def jtagInstruction (code : Nat) (s : Dev) : Dev :=
  let c := if jtagCodes.contains code then code else 0xFF
  let s := updBureau s fun b => { b with jtag := c }
  if c = 1 then emit s (.idcode idcode) else s

/-- Endpoint of the debug access router. -/
def debugKey : Nat := 4 * debugAddr

/-- The response of a debug access arrives. -/
def debugDone (code : Nat) (data : List (List PWord)) (s : Dev) : Dev :=
  let d := s.bureau.dbg
  let w := decodeWord (nth 0 (nth [] data 0) (d.addr % 32 / 8))
  updBureau s fun b => { b with dbg := { b.dbg with waiting := false, done := true, code, data := if d.isWrite || code ≠ 0 then b.dbg.data else w.data } }

/-- A scan of the debug register: Capture-DR presents the last access; Update-DR issues an access (R519). `v` is what is shifted
in. R21 admits the debug access router to space 0b11 where a rights table entry matches it (DEDUCED, assumption 25). -/
def dbgUpdate (v : BitVec 120) (s : Dev) : Dev :=
  if s.bureau.jtag ≠ 0x20 then s
  else
    let d := s.bureau.dbg
    let s := emit s (.debug d.done d.code d.data)
    if d.waiting then s
    else
      let addr := fld v 111 64 / 8 * 8
      let wr := bit v 112
      let mask := 255 * 2 ^ (addr % 32)
      let s := updBureau s fun b => { b with dbg := { b.dbg with waiting := true, done := false, addr, isWrite := wr } }
      let word := encodeWord (BitVec.ofNat 64 (fld v 63 0)) false
      let x : Issue :=
        { op := if wr then .wr else .rd, addr, len := 0, first := mask, last := mask
          data := if wr then [updNth zeroPayload (addr % 32 / 8) fun _ => word] else [] }
      match edgeRequest debugKey .debug none (rightsEntry s debugAddr 0 0).isSome x s with
      | (some c, s) => debugDone c [] s
      | (none, s) => s

/-! ## Paths into management space -/

/-- A host access at BAR0 (R23, R445, R448): served by P0 in its early and its full function. -/
def bar0Access (id : Nat) (ecrcOk : Bool) (a : HostAcc) (s : Dev) : Dev :=
  if !linkUp s 0 0 then s
  else if !ecrcOk then incR s (rPcieStatus 0) 40 32 1
  else match a with
    | .rd off en =>
      let lo := off.toNat % 2 ^ 26
      let x := mgmtReadBytes lo en s
      emit x.2 (.completion 0 0 id 0 ((chunks 8 x.1).map fun b => BitVec.ofNat 64 (leNat b)) false)
    | .wr off bytes ep =>
      let lo := off.toNat % 2 ^ 26
      let s := countRx 0 ep.toNat s
      if ep then mgmtPoison 0 0 (pcieAddr 0) (mgmtBase lo) s else mgmtWrite .bar0 0 lo bytes s

/-- A transfer on the management SPI port (R509). -/
def mspiTransfer (bytes : List Nat) (s : Dev) : Dev :=
  let addr := ((bytes.drop 1).take 4).foldl (fun a b => a * 256 + b) 0
  let slot := addr / 8 * 8
  match nth 0 bytes 0 with
  | 0x0B =>
    if bytes.length < 15 then s
    else if 2 ^ 26 ≤ addr then emit s (.mspi 0)
    else let x := mgmtRead slot s; emit x.2 (.mspi x.1)
  | 0x02 =>
    if bytes.length < 13 || 2 ^ 26 ≤ addr then s
    else mgmtWrite .mspi 0 slot (((bytes.drop 5).take 8).map fun b => some (BitVec.ofNat 8 b)) s
  | _ => s

/-- The BAR0 offset of a device address at the Bureau or in the window of the timebase unit; none where nothing lies (R19, R22,
R485). -/
def mgmtOffset (k addr : Nat) : Option Nat :=
  if k = 4 * bureauAddr then bar0Of addr
  else
    let o := addr - windowBase timebaseAddr 0
    if o < 0x1000 then some (blk 12 + 0x10000 + o) else none

/-- A request performed at the Bureau or timebase unit (R39, R40, R284, R543). A write of several words to management space is ignored
(R542); the window of the timebase unit is no part of it and takes every word, each by the rule of its slot (assumption 147). -/
def mgmtPerform (k : Nat) (q : MemReq) (s : Dev) : Dev :=
  if isAtomic q.op then respond k q rspBadRequest [] s
  else if enablesNone q.len q.first q.last then answerNone k q s
  else
    let unit := if k = 4 * bureauAddr then 0 else 1
    let path := if q.src = debugAddr then Path.debug else Path.network
    if q.op = .rd then
      let x := (reqWords q).foldl (fun (r : List (Nat × PWord) × Dev) a =>
        match mgmtOffset k a with
        | some o => let y := mgmtRead o r.2; (r.1 ++ [(a, encodeWord y.1 false)], y.2)
        | none => (r.1 ++ [(a, clean 0)], r.2)) ([], s)
      respond k q rspOk (readParcels q x.1) x.2
    else
      let ws := reqWords q
      let s := ws.foldl (fun s a => eccTransit s (targetUnit k) q.src (carriedWord q a)) s
      let bad := ws.any fun a => let d := decodeWord (carriedWord q a); d.poison || d.outcome = .uncorrectable
      if bad then respond k q rspPoisonRefused [] (mgmtPoison unit q.port q.src q.addr s)
      else
        let act := fun (s : Dev) a => match mgmtOffset k a with
          | some o =>
            let en := wordMask q a
            if groupOk en then
              slotWrite path o (byteMask ((List.range 8).map en.testBit)) (decodeWord (carriedWord q a)).data.toNat s
            else s
          | none => s
        respond k q rspOk []
          (if unit = 0 && ws.length ≠ 1 then s else ws.foldl act (beforeWrite (ws.filterMap (mgmtOffset k)) s))

/-- A request reaches the Bureau or the timebase unit. -/
def mgmtRequest (k src port tag : Nat) (s : Dev) : Dev :=
  match takeRequest k src port tag none (gather k s) with
  | (.perform q, s) => mgmtPerform k q s
  | (_, s) => s

/-- A register write given directly by its path (R1 to R5, R542); a poisoned word is refused (R39). `setNow`: the W1C bits of
its slot that hardware sets in the same management clock cycle (R2). -/
def registerWrite (path : Path) (a : Nat) (bytes : List (Option (BitVec 8))) (poison : Bool) (setNow : Nat) (s : Dev) :
    Dev :=
  if poison then
    mgmtPoison 0 0 (match path with
      | .bar0 => pcieAddr 0
      | .debug => debugAddr
      | _ => bureauAddr) (mgmtBase a) s
  else mgmtWrite path setNow a bytes s

/-! ## Targets and completions -/

/-- TARGET_REQUEST: the target performs the complete transaction that it holds under a source and tag. A window of a
PCI Express controller is OUTBOUND_REQUEST's; a bridged attachment is BUNDLE_FORWARD's. -/
def targetRequest (k src port tag : Nat) (s : Dev) : Dev :=
  let a := k / 4
  if isFabricAddr a then (if bridgedAtt s k then s else fabricTarget k src port tag s)
  else match ((List.range 8).map ddrAddr).findIdx? (· = a) with
    | some n => ddrRequest n src port tag s
    | none => match ((List.range 4).map sramAddr).findIdx? (· = a) with
      | some n => sramRequest n src port tag s
      | none =>
        if a = bureauAddr || a = timebaseAddr then mgmtRequest k src port tag s
        else if a = gatewayAddr then gwRequest none src port tag s
        else s

/-- Hand the completions of an edge requester to what asked for them. -/
def edgeDone (k : Nat) (s : Dev) : Dev :=
  if isFabricAddr (k / 4) then s
  else
    let mine := (getEp s k).completions
    let keep := fun (c : Completion) => match c.user with
      | .ddrPart _ _ => true
      | _ => false
    let s := updEp s k fun e => { e with completions := mine.filter keep }
    mine.foldl (fun s c => match c.user with
      | .ring => ringDone c.code s
      | .debug => debugDone c.code c.data s
      | .host q => hostDone q c s
      | .dma q d => dmaDone q d c s
      | _ => s) s

/-- RESPONSE_DELIVERY at an attachment point or edge block. -/
def deliverResponse (k : Nat) (s : Dev) : Dev := edgeDone k (responseDelivery k s)

/-- TRANSACTION_TIMEOUT, whose completion goes the same way. -/
def timeoutTransaction (k tag : Nat) (s : Dev) : Dev := edgeDone k (transactionTimeout k tag s)

end Sys2Proof.Machine
end

