-- ==== Sys2Proof/Machine/Rows.lean ====
section
/-! DEFINITION. How a row of the command table reaches an operation of the device: which part of the device must run, and what
the mailbox must hold for a row that the Bureau performs for a mailbox command (R512, R515). -/

namespace Sys2Proof.Machine

/-! ## Which part must run -/

/-- A row of the main side: nothing happens while it is held in its power-on reset (R523, R524). -/
def whenMain (f : Dev → Dev) (d : Dev) : Dev := if mainUp d then f d else d

/-- A row of a sector: sector 64 is the Cabinet fabric, which runs by itself (R367). -/
def whenSec (sec : Sec) (f : Dev → Dev) (d : Dev) : Dev := if sec = 64 || mainUp d then f d else d

/-- A row of a clock domain: the Cabinet domain runs by itself. -/
def whenDom (dom : ClkDomain) (f : Dev → Dev) (d : Dev) : Dev := if dom = .cabinet || mainUp d then f d else d

/-- A row of a scrub sequence: 4 is that of the Cabinet. -/
def whenSlot (q : Fin 5) (f : Dev → Dev) (d : Dev) : Dev := if q = 4 || mainUp d then f d else d

/-! ## Attachment points -/

/-- Apply an operation of an endpoint to port `p` of router `r`; an edge router has port 0 only (R14). -/
def onEp (r : Router) (p : Fin 2) (f : Nat → Dev → Dev) (d : Dev) : Dev :=
  match r, p.val with
  | .edge _, 1 => d
  | r, p => f (4 * routerAddr r + p) d

/-- A row of an attachment point that sector logic drives, at an edge of its user clock, at which a parcel enters the outbound queue
(R277): nothing where the bridge of a bundle has taken it (R458). -/
def userRow (att : AttPoint) (f : Nat → Dev → Dev) (d : Dev) : Dev :=
  if bridgedAtt d (attKey att) then d else enterStep (attKey att) (f (attKey att) d)

/-! ## Mailbox commands -/

/-- The mailbox is idle, or runs opcode `op`, which has not ended, with these argument words from word 2 on, as (mask, value). -/
def mbxIs (op : Nat) (words : List (Nat × Nat)) (d : Dev) : Bool :=
  match d.bureau.mbx.run with
  | none => true
  | some c =>
    c.opcode = op && d.bureau.mbx.result.isNone && words.zipIdx.all fun x => (nth 0 c.args x.2).toNat &&& x.1.1 = x.1.2

/-- A command that the Bureau performs for the mailbox; given while the mailbox is idle it acts without a response (assumption
8). -/
def mbxRow (op : Nat) (words : List (Nat × Nat)) (f : Dev → Dev) (d : Dev) : Dev := if mbxIs op words d then f d else d

/-- A word of fields (value, lowest bit). -/
def packNat (l : List (Nat × Nat)) : Nat := l.foldl (fun n x => n + x.1 * 2 ^ x.2) 0

/-- Whole argument words. -/
def wholeWords (l : List Word) : List (Nat × Nat) := l.map fun w => (2 ^ 64 - 1, w.toNat)

/-- Length of a host buffer of `n` words, in bytes; a running command may end within the last word. -/
def lengthFits (len n : Nat) : Bool := (len + 7) / 8 = n

/-! ## Commits, loads and the store -/

/-- The record that COMMIT or ROLLBACK names: a region, or 16 for FULL (R173). -/
def targetRecord : CommitTarget → Nat
  | .full => 16
  | .region r => r.val

/-- Argument word 2 of COMMIT and ROLLBACK (R515). -/
def targetWord : CommitTarget → Nat
  | .full => 0x100
  | .region r => r.val

/-- COMMIT (R174). -/
def commitCmd (t : CommitTarget) : Dev → Dev := mbxRow 0x0103 [(0x10F, targetWord t)] (doCommit (targetRecord t))

/-- ROLLBACK (R181). -/
def rollbackCmd (t : CommitTarget) : Dev → Dev := mbxRow 0x0104 [(0x10F, targetWord t)] (doRollback (targetRecord t) true)

/-- Event 6 of a commit; the standards of its I/O cells meet their supplies (R472). -/
def quietWindowEnd (d : Dev) : Dev :=
  let set := match d.cfg.commit with
    | some c => if c.event = 5 then c.set else []
    | none => []
  stdCheck (set.flatMap (ownedCells d)) (commitQuietEnd d)

/-- A ledger word is read (R186). -/
def ledgerReadOut (l i f : Nat) (d : Dev) : Dev :=
  let r := ledgerRead l i f d
  emit r.2 (.ledger r.1)

/-- The source word of a load, as (mask, value), and what a host buffer delivers: a length that is no whole number of words fails
as a read that fails (R198, R515). -/
def loadWord (src : LoadFrom) (d : Dev) : Option ((Nat × Nat) × LoadFrom) :=
  match src with
  | .store area slot copy newest =>
    let w := packNat [(area.val, 14), (slot.val, 8), (newest.toNat, 1), (if newest then 0 else copy.val, 0)]
    if slot.val < areaSlots area.val then some ((if newest then 0xC00000000000FF02 else 0xC00000000000FF03, w), src) else none
  | .host none => some ((3 * 2 ^ 62, 2 ^ 62), src)
  | .host (some img) =>
    match d.bureau.mbx.run with
    | none => some ((3 * 2 ^ 62, 2 ^ 62), src)
    | some c =>
      let len := nbits (nth 0 c.args 0).toNat 31 0
      if lengthFits len img.length then some ((3 * 2 ^ 62, 2 ^ 62), .host (if len % 8 = 0 then some img else none)) else none
  | .port => some ((3 * 2 ^ 62, 2 ^ 63), src)

/-- LOAD_IMAGE and LOAD_PARTIAL (R205, R515). -/
def loadCmd (isPartial : Bool) (src : LoadFrom) (d : Dev) : Dev :=
  match loadWord src d with
  | none => d
  | some (w, src) => mbxRow (loadOp isPartial) [w] (beginLoad src isPartial (mbxRuns d (loadOp isPartial)) false) d

/-- An event at the configuration port (R206, R207). -/
def cfgPortEvent (ev : CfgPortEvent) (d : Dev) : Dev :=
  match ev with
  | .image ws => afterLoad (portWhole ws d)
  | .words ds => afterLoad (portWords ds d)
  | .level n => portLevel n d

/-- STORE_WRITE (R203, R204, R515): w2 names the slot, w3 the length of what the host buffer delivers. -/
def storeWriteCmd (area slot : Nat) (overwrite single : Bool) (img : ImageWords) (res : StoreOutcome) (d : Dev) : Dev :=
  let w := packNat [(area, 14), (slot, 8), (overwrite.toNat, 1), (single.toNat, 0)]
  let fits := match d.bureau.mbx.run with
    | some c => res = .sourceFails || lengthFits (nbits (nth 0 c.args 1).toNat 31 0) img.length
    | none => true
  if slot < areaSlots area && fits then mbxRow 0x0201 [(0xFF03, w)] (storeWriteOp area slot overwrite single img res) d else d

/-! ## Other rows over two operations -/

/-- Event 5 of a power-up; the standards of the region's cells meet their supplies (R472). -/
def regionUpReleaseRow (r : Nat) (d : Dev) : Dev :=
  let t := regionUpRelease r d
  if (regionSeq d r).isSome && (regionSeq t r).isNone then stdCheck ((regionLive d r).flatMap (ownedCells d)) t else t

/-- A fill ends (R47). -/
def fillComplete : MemUnit → Dev → Dev
  | .ddr n => ddrFilled n.val
  | .sram n => sramFilled n.val

/-- An active edge at a flip-flop (R55, R70, R474). -/
def flipFlopEdge (t : FfTarget) (d : Dev) : Dev :=
  match t with
  | .half sec u v h edge ce sr blk below => whenSec sec (halfEdge sec.val u.val v.val h.val edge ce sr blk below) d
  | .lane sec col lane index via => whenSec sec (laneEdge sec.val col.val lane.val index via) d
  | .io cell e => whenMain (ioEdge cell.val e) d
  | .wires sec drives => whenSec sec (driveWires sec.val drives) d

/-- A judging window ends (R123, R364). -/
def judgingWindow (src : JudgedSource) (count : Nat) (d : Dev) : Dev :=
  match src with
  | .xo => whenMain (fun d => judgeMain d 0 count) d
  | .chref => whenMain (fun d => judgeMain d 1 count) d
  | .cxo => judgeCxo count d

/-- A higher source has been good for return_hold (R135, R365). -/
def returnHold (src : Nat) (cab : Bool) (d : Dev) : Dev := if cab then cabReturn src d else whenMain (fun d => tbReturn d src) d

/-- A missing-edge detector trips: monitors 0 to 10 of the main side, 11 and 12 of the Cabinet (R140, R364). -/
def missingEdgeTrip (n : Nat) (d : Dev) : Dev := if n < 11 then whenMain (fun d => missingEdge d n) d else cabMissingEdge n d

/-- A Cabinet command that the mailbox sends (R515). -/
def cabFromMailbox (op : Nat) (w : Word) (d : Dev) : Dev := cabCommand w (mbxRuns d op) d

end Sys2Proof.Machine
end

