-- ==== Sys2Proof/Machine/State.lean ====
section
/-! DEFINITION. The state of the block: the commands that wait, first in, first out, and the device; its stops; its state
after reset. -/

namespace Sys2Proof.Machine

/-- The block. `dev` holds every register, memory, queue, mode and pin of the device (Machine/Parts/Device.lean). -/
structure State where
  pending : List Instr := []
  dev : Dev := {}
  deriving DecidableEq, Repr

/-- Faults of the block. No command raises one: what goes wrong in the device is an effect on its state (a fault group, an
answer, an error field). `internal` is never built by a step; safe. -/
inductive Fault where
  /-- Raised by no command; kept so that the type has a value. Safe. -/
  | internal
  deriving DecidableEq, Repr

/-- Refusals of the block. -/
inductive Refusal where
  /-- Raised by the arms of exec whose command has no meaning yet; there is none. Safe. -/
  | notModelled (mnemonic : String)
  deriving DecidableEq, Repr

/-- The state right after the release of the management-die power-on reset, the Cabinet having been powered with it: every self-test
passes, the straps are 0, the store and the one-time memory are as delivered (R212, R385, R523; assumption 10). -/
def State.reset : State := { pending := [], dev := porRelease {} (enterPor true {}) }

end Sys2Proof.Machine
end

