-- ==== Sys2Proof/Machine/Run.lean ====
section
/-! DEFINITION. The shape of every command's meaning: what the last command sent is forgotten, the operation runs on the device, and
the levels that its faults apply are carried out (R492). -/

namespace Sys2Proof.Machine

/-- One command's effect on the device. -/
def runDev (f : Dev → Dev) (d : Dev) : Dev := settle (f { d with out := [] })

/-- A command: the device takes an operation, the queue stays. -/
def run (f : Dev → Dev) (s : State) : Host.Outcome State Fault Refusal := .next { s with dev := runDev f s.dev }

end Sys2Proof.Machine
end

