-- ==== Sys2Proof/Machine/AccessRows.lean ====
section
/-! DEFINITION. The meanings of the rows of this family: Access to management space by host and register paths, ECC counters, fills and configuration upsets. -/

namespace Sys2Proof.Machine

/-- REGISTER_WRITE (R542). -/
def execRegisterWrite (path : Path) (a : BitVec 26) (bytes : List (Option (BitVec 8))) (poison : Bool)
    (s : State) (setNow : BitVec 64 := 0) : Host.Outcome State Fault Refusal :=
  run (whenMain (registerWrite path a.toNat bytes poison setNow.toNat)) s

/-- BAR0_ACCESS (R23). -/
def execBar0Access (id : Nat) (ecrcOk : Bool) (acc : HostAcc) (s : State) : Host.Outcome State Fault Refusal :=
  run (whenMain (bar0Access id ecrcOk acc)) s

/-- BAR2_ACCESS (R24). -/
def execBar2Access (q link : Fin 4) (id : Nat) (ecrcOk : Bool) (acc : HostAcc)
    (s : State) : Host.Outcome State Fault Refusal :=
  run (whenMain (bar2Access q.val link.val id ecrcOk acc)) s

/-- BAR4_ACCESS (R28). -/
def execBar4Access (id : Nat) (ecrcOk : Bool) (acc : HostAcc) (s : State) : Host.Outcome State Fault Refusal :=
  run (whenMain (bar4Access id ecrcOk acc)) s

/-- ECC_CNT_CLR (R43). -/
def execEccCntClr (u : Fin 104) (inc : BitVec 2) (s : State) : Host.Outcome State Fault Refusal :=
  run (whenMain (fun d => if hasEccCnt u.val then eccCntClr u.val inc d else d)) s

/-- START_UP_FILL_COMPLETE (R47). -/
def execStartUpFillComplete (unit : MemUnit) (s : State) : Host.Outcome State Fault Refusal :=
  run (whenMain (fillComplete unit)) s

/-- CONFIGURATION_UPSET (R62). -/
def execConfigurationUpset (sec : Sec) (leaf : LeafId) (frame : Fin 1536) (flips : List Nat) (now : List Setting)
    (s : State) : Host.Outcome State Fault Refusal :=
  run (whenSec sec (fun d => evalSectorBundles sec.val (configUpset sec.val leaf.val frame.val flips now d))) s

end Sys2Proof.Machine
end

