-- ==== Sys2Proof/Machine/BureauRows.lean ====
section
/-! DEFINITION. The meanings of the rows of this family: The Bureau: mailbox, management SPI, JTAG, keystore. -/

namespace Sys2Proof.Machine

/-- MAILBOX_GO (R512). -/
def execMailboxGo (path : Path) (s : State) : Host.Outcome State Fault Refusal :=
  run (whenMain (mailboxGo (pathCode path))) s

/-- MAILBOX_RESPONSE (R512). -/
def execMailboxResponse (s : State) : Host.Outcome State Fault Refusal :=
  run (whenMain mailboxResponse) s

/-- MBX_CLAIM (R511). -/
def execMbxClaim (path : Path) (s : State) : Host.Outcome State Fault Refusal :=
  run (whenMain (mbxClaim (pathCode path))) s

/-- MBX_RELEASE (R511). -/
def execMbxRelease (path : Path) (s : State) : Host.Outcome State Fault Refusal :=
  run (whenMain (mbxRelease (pathCode path))) s

/-- MSPI_TRANSFER (R509). -/
def execMspiTransfer (bytes : SpiBytes) (s : State) : Host.Outcome State Fault Refusal :=
  run (whenMain (mspiTransfer (bytes.map (·.toNat)))) s

/-- FAULT_LOG_READ (R515). -/
def execFaultLogRead (count : BitVec 6) (first : BitVec 32) (s : State) : Host.Outcome State Fault Refusal :=
  run (whenMain (mbxRow 0x0602 [(2 ^ 38 - 1, packNat [(count.toNat, 32), (first.toNat, 0)])] (faultLogRead
      count.toNat first.toNat))) s

/-- UNIT_MAP_READ (R506). -/
def execUnitMapRead (s : State) : Host.Outcome State Fault Refusal :=
  run (whenMain unitMapRead) s

/-- CAB_SEALED_LOAD (R392). -/
def execCabSealedLoad (newest : Bool) (slot copy : Fin 2) (s : State) : Host.Outcome State Fault Refusal :=
  run (whenMain (mbxRow 0x0501 [(7, packNat [(newest.toNat, 2), (slot.val, 1), (copy.val, 0)])]
      (cabFromMailbox 0x0501 (packW [(0x10, 56), (newest.toNat, 2), (slot.val, 1), (copy.val, 0)])))) s

/-- CAB_ROLLBACK (R392). -/
def execCabRollback (s : State) : Host.Outcome State Fault Refusal :=
  run (whenMain (mbxRow 0x0502 [] (cabFromMailbox 0x0502 (packW [(0x11, 56)])))) s

/-- CAB_EXPORT_LOG (R515). -/
def execCabExportLog (count : BitVec 6) (first : BitVec 32) (s : State) : Host.Outcome State Fault Refusal :=
  run (whenMain (mbxRow 0x0503 [(2 ^ 38 - 1, packNat [(count.toNat, 32), (first.toNat, 0)])] (cabExportLog
      count.toNat first.toNat))) s

/-- CAB_ACK_EXPORT (R515). -/
def execCabAckExport (token : List Word) (s : State) : Host.Outcome State Fault Refusal :=
  run (whenMain (mbxRow 0x0504 (wholeWords token) (cabAckExport token))) s

/-- KEYSTORE_DEVKEY (R516). -/
def execKeystoreDevkey (key : List Word) (s : State) : Host.Outcome State Fault Refusal :=
  run (whenMain (mbxRow 0x0404 ((15 * 2 ^ 60, 2 ^ 60) :: wholeWords key) (keystoreDevKey key))) s

/-- KEYSTORE_IMAGE_KEY (R516). -/
def execKeystoreImageKey (e : Fin 16) (wrapped : List Word) (s : State) : Host.Outcome State Fault Refusal :=
  run (whenMain (mbxRow 0x0404 ((15 * 2 ^ 60 + 15, 2 * 2 ^ 60 + e.val) :: wholeWords wrapped)
      (keystoreImageKey e.val wrapped))) s

/-- KEYSTORE_SIGN_ADD (R516). -/
def execKeystoreSignAdd (k : Fin 4) (hash : List Word) (s : State) : Host.Outcome State Fault Refusal :=
  run (whenMain (mbxRow 0x0404 ((15 * 2 ^ 60 + 3, 3 * 2 ^ 60 + k.val) :: wholeWords hash) (keystoreSignAdd
      k.val hash))) s

/-- KEYSTORE_SIGN_REVOKE (R516). -/
def execKeystoreSignRevoke (k : Fin 4) (s : State) : Host.Outcome State Fault Refusal :=
  run (whenMain (mbxRow 0x0404 [(15 * 2 ^ 60 + 3, 4 * 2 ^ 60 + k.val)] (keystoreSignRevoke k.val))) s

/-- KEYSTORE_SIGN_FUSE (R516). -/
def execKeystoreSignFuse (s : State) : Host.Outcome State Fault Refusal :=
  run (whenMain (mbxRow 0x0404 [(15 * 2 ^ 60, 5 * 2 ^ 60)] keystoreSignFuse)) s

/-- MSI_X_UNMASK (R517). -/
def execMsiXUnmask (v : Fin 32) (s : State) : Host.Outcome State Fault Refusal :=
  run (whenMain (msixUnmask v.val)) s

/-- JTAG_INSTRUCTION (R518). -/
def execJtagInstruction (code : BitVec 8) (s : State) : Host.Outcome State Fault Refusal :=
  run (whenMain (jtagInstruction code.toNat)) s

/-- DBG_ACCESS_UPDATE (R519). -/
def execDbgAccessUpdate (v : BitVec 120) (s : State) : Host.Outcome State Fault Refusal :=
  run (whenMain (dbgUpdate v)) s

end Sys2Proof.Machine
end

