-- ==== Sys2Proof/Machine/CabinetRows.lean ====
section
/-! DEFINITION. The meanings of the rows of this family: The Cabinet and its gateway. -/

namespace Sys2Proof.Machine

/-- CABINET_POWER_ON_RESET (R526). -/
def execCabinetPowerOnReset (test : CabTest) (s : State) : Host.Outcome State Fault Refusal :=
  run (cabPowerOn test) s

/-- CAB_RST_N (R362). -/
def execCabRstN (s : State) : Host.Outcome State Fault Refusal :=
  run cabRstLow s

/-- CAB_RST_N_RELEASE (R386). -/
def execCabRstNRelease (test : CabTest) (s : State) : Host.Outcome State Fault Refusal :=
  run (cabRstHigh test) s

/-- CABINET_SUPPLY_LOSS (R526). -/
def execCabinetSupplyLoss (s : State) : Host.Outcome State Fault Refusal :=
  run cabSupplyLoss s

/-- CABINET_AUDIT_READ (R386). -/
def execCabinetAuditRead (items : List (List Setting)) (verifyFails logOk : Bool)
    (s : State) : Host.Outcome State Fault Refusal :=
  run (cabAuditRead items verifyFails logOk) s

/-- CABINET_NO_IMAGE_RETRY (R386). -/
def execCabinetNoImageRetry (items : List (List Setting)) (verifyFails : Bool)
    (s : State) : Host.Outcome State Fault Refusal :=
  run (cabRetry items verifyFails) s

/-- CABINET_CLOCK_REQUEST (R365). -/
def execCabinetClockRequest (src : Fin 3) (s : State) : Host.Outcome State Fault Refusal :=
  run (cabClockRequest src.val) s

/-- SEALED_LOAD (R383). -/
def execSealedLoad (src : RouterAddr) (srcPort : BitVec 2) (tag : BitVec 12)
    (s : State) : Host.Outcome State Fault Refusal :=
  run (gwRequest (some (.command 0x10)) src.toNat srcPort.toNat tag.toNat) s

/-- GATEWAY_ROLLBACK (R385). -/
def execGatewayRollback (src : RouterAddr) (srcPort : BitVec 2) (tag : BitVec 12)
    (s : State) : Host.Outcome State Fault Refusal :=
  run (gwRequest (some (.command 0x11)) src.toNat srcPort.toNat tag.toNat) s

/-- TOKEN (R374). -/
def execToken (src : RouterAddr) (srcPort : BitVec 2) (tag : BitVec 12)
    (s : State) : Host.Outcome State Fault Refusal :=
  run (gwRequest (some (.command 0x12)) src.toNat srcPort.toNat tag.toNat) s

/-- EXPORT_ACK (R381). -/
def execExportAck (src : RouterAddr) (srcPort : BitVec 2) (tag : BitVec 12)
    (s : State) : Host.Outcome State Fault Refusal :=
  run (gwRequest (some (.command 0x13)) src.toNat srcPort.toNat tag.toNat) s

/-- CABINET_LOAD_CHECKED (R383). -/
def execCabinetLoadChecked (items : List (List Setting)) (verifyFails : Bool)
    (s : State) : Host.Outcome State Fault Refusal :=
  run (cabLoadChecked items verifyFails) s

/-- AUDIT_RECORD_COUNTED (R378). -/
def execAuditRecordCounted (verifies : Bool) (burn : Option SealBurn) (s : State) : Host.Outcome State Fault Refusal :=
  run (recordCounted verifies burn) s

/-- CABINET_QUIET_WINDOW_BEGIN (R383). -/
def execCabinetQuietWindowBegin (s : State) : Host.Outcome State Fault Refusal :=
  run cabQuietBegin s

/-- CABINET_COMMIT_STROBE (R383). -/
def execCabinetCommitStrobe (s : State) : Host.Outcome State Fault Refusal :=
  run cabStrobe s

/-- CABINET_QUIET_WINDOW_END (R383). -/
def execCabinetQuietWindowEnd (s : State) : Host.Outcome State Fault Refusal :=
  run cabQuietEnd s

/-- RING_B_WRITE (R378). -/
def execRingBWrite (verifies : Bool) (s : State) : Host.Outcome State Fault Refusal :=
  run (ringBWrite verifies) s

/-- GATEWAY_READ (R388). -/
def execGatewayRead (src : RouterAddr) (srcPort : BitVec 2) (tag : BitVec 12)
    (s : State) : Host.Outcome State Fault Refusal :=
  run (gwRequest (some .read) src.toNat srcPort.toNat tag.toNat) s

/-- STAGING_BUFFER_WRITE (R388). -/
def execStagingBufferWrite (src : RouterAddr) (srcPort : BitVec 2) (tag : BitVec 12)
    (s : State) : Host.Outcome State Fault Refusal :=
  run (gwRequest (some (.area .staging)) src.toNat srcPort.toNat tag.toNat) s

/-- SETPOINT_WRITE (R389). -/
def execSetpointWrite (src : RouterAddr) (srcPort : BitVec 2) (tag : BitVec 12)
    (s : State) : Host.Outcome State Fault Refusal :=
  run (gwRequest (some (.area .setpoints)) src.toNat srcPort.toNat tag.toNat) s

/-- NON_LEGAL_PARAMETER_WRITE (R390). -/
def execNonLegalParameterWrite (src : RouterAddr) (srcPort : BitVec 2) (tag : BitVec 12)
    (s : State) : Host.Outcome State Fault Refusal :=
  run (gwRequest (some (.area .nonLegal)) src.toNat srcPort.toNat tag.toNat) s

/-- TIME_ALIGN (R391). -/
def execTimeAlign (src : RouterAddr) (srcPort : BitVec 2) (tag : BitVec 12)
    (s : State) : Host.Outcome State Fault Refusal :=
  run (gwRequest (some (.area .timeAlign)) src.toNat srcPort.toNat tag.toNat) s

/-- RING_ENGINE_BLOCK (R390). -/
def execRingEngineBlock (words : List (Word × Bool)) (s : State) : Host.Outcome State Fault Refusal :=
  run (ringBlock words) s

/-- RESULT_WRITE (R393). -/
def execResultWrite (k : Fin 2048) (value : Word) (poison : Bool) (s : State) : Host.Outcome State Fault Refusal :=
  run (resultWrite k.val value poison) s

end Sys2Proof.Machine
end

