-- ==== Sys2Proof/Machine/ClockRows.lean ====
section
/-! DEFINITION. The meanings of the rows of this family: Clocks: judging, switches, PLLs, the timebase references. -/

namespace Sys2Proof.Machine

/-- JUDGING_WINDOW (R123). -/
def execJudgingWindow (src : JudgedSource) (count : BitVec 24) (s : State) : Host.Outcome State Fault Refusal :=
  run (judgingWindow src count.toNat) s

/-- MANAGEMENT_PLL_LOCKED (R126). -/
def execManagementPllLocked (s : State) : Host.Outcome State Fault Refusal :=
  run (whenMain managementPllLocked) s

/-- REJUDGE (R138). -/
def execRejudge (s : State) : Host.Outcome State Fault Refusal :=
  run (whenMain rejudgeAll) s

/-- CLOCK_SWITCH_REQUEST (R133). -/
def execClockSwitchRequest (dom : ClkDomain) (s : State) : Host.Outcome State Fault Refusal :=
  run (whenDom dom (switchConnect dom)) s

/-- SWITCH_FORCE_TIMEOUT (R133). -/
def execSwitchForceTimeout (dom : ClkDomain) (s : State) : Host.Outcome State Fault Refusal :=
  run (whenDom dom (switchForce dom)) s

/-- CLOCK_SWITCH_COMPLETE (R133). -/
def execClockSwitchComplete (dom : ClkDomain) (gap blocks : Nat) (s : State) : Host.Outcome State Fault Refusal :=
  run (whenDom dom (switchComplete dom gap blocks)) s

/-- PLL_LOSS_OF_LOCK (R130). -/
def execPllLossOfLock (p : Fin 63) (s : State) : Host.Outcome State Fault Refusal :=
  run (whenMain (fun d => pllLossOfLock d p.val)) s

/-- PLL_LOCK (R129). -/
def execPllLock (p : Fin 63) (s : State) : Host.Outcome State Fault Refusal :=
  run (whenMain (pllLocked p.val)) s

/-- GLOBAL_LINE_SOURCE_CHANGE (R131). -/
def execGlobalLineSourceChange (q : Fin 4) (n : Fin 32) (side : Bool) (s : State) : Host.Outcome State Fault Refusal :=
  run (whenMain (lineSource q.val n.val side)) s

/-- TB_RETURN_HOLD_EXPIRY (R135). -/
def execTbReturnHoldExpiry (src : Fin 3) (cab : Bool) (s : State) : Host.Outcome State Fault Refusal :=
  run (returnHold src.val cab) s

/-- GO_STREAM (R136). -/
def execGoStream (s : State) : Host.Outcome State Fault Refusal :=
  run (whenMain (fun d => tbGo d 0)) s

/-- GO_CRYSTAL (R136). -/
def execGoCrystal (s : State) : Host.Outcome State Fault Refusal :=
  run (whenMain (fun d => tbGo d 1)) s

/-- GO_INTERNAL (R136). -/
def execGoInternal (s : State) : Host.Outcome State Fault Refusal :=
  run (whenMain (fun d => tbGo d 2)) s

/-- CLK_MISSING_EDGE_TRIP (R140). -/
def execClkMissingEdgeTrip (n : Fin 13) (s : State) : Host.Outcome State Fault Refusal :=
  run (missingEdgeTrip n.val) s

/-- CLK_FREQUENCY_WINDOW (R140). -/
def execClkFrequencyWindow (n : Fin 11) (count : BitVec 24) (s : State) : Host.Outcome State Fault Refusal :=
  run (whenMain (fun d => frequencyWindow d n.val count.toNat)) s

end Sys2Proof.Machine
end

