-- ==== Sys2Proof/Machine/CommitRows.lean ====
section
/-! DEFINITION. The meanings of the rows of this family: Commit, rollback and the ledger. -/

namespace Sys2Proof.Machine

/-- COMMIT (R174). -/
def execCommit (target : CommitTarget) (s : State) : Host.Outcome State Fault Refusal :=
  run (whenMain (commitCmd target)) s

/-- ROLLBACK (R181). -/
def execRollback (target : CommitTarget) (s : State) : Host.Outcome State Fault Refusal :=
  run (whenMain (rollbackCmd target)) s

/-- COMMIT_DRAIN_COMPLETE (R175). -/
def execCommitDrainComplete (us : Nat) (s : State) : Host.Outcome State Fault Refusal :=
  run (whenMain (commitDrained us)) s

/-- COMMIT_DRAIN_TIMEOUT (R175). -/
def execCommitDrainTimeout (s : State) : Host.Outcome State Fault Refusal :=
  run (whenMain commitDrainTimeout) s

/-- COMMIT_QUIET_WINDOW_BEGIN (R175). -/
def execCommitQuietWindowBegin (pins : List (Fin 480 × Bool × Bool)) (s : State) : Host.Outcome State Fault Refusal :=
  run (whenMain (commitQuietBegin (pins.map fun x => (x.1.val, x.2)))) s

/-- COMMIT_STROBE (R176). -/
def execCommitStrobe (s : State) : Host.Outcome State Fault Refusal :=
  run (whenMain commitStrobe) s

/-- COMMIT_QUIET_WINDOW_END (R175). -/
def execCommitQuietWindowEnd (s : State) : Host.Outcome State Fault Refusal :=
  run (whenMain quietWindowEnd) s

/-- COMMIT_EPOCH_HOLD_END (R231). -/
def execCommitEpochHoldEnd (s : State) : Host.Outcome State Fault Refusal :=
  run (whenMain commitEpochHoldEnd) s

/-- LEDGER_READ (R186). -/
def execLedgerRead (leaf : LeafId) (sec : Fin 64) (frame : Fin 1536) (s : State) : Host.Outcome State Fault Refusal :=
  run (whenMain (ledgerReadOut leaf.val sec.val frame.val)) s

end Sys2Proof.Machine
end

