-- ==== Sys2Proof/Machine/FabricRows.lean ====
section
/-! DEFINITION. The meanings of the rows of this family: Blocks of the fabric: flip-flops, Drawers, Runners, Benches, gates, global set/reset. -/

namespace Sys2Proof.Machine

/-- GLOBAL_SET_RESET_RELEASE (R57). -/
def execGlobalSetResetRelease (sec : Sec) (s : State) : Host.Outcome State Fault Refusal :=
  run (whenSec sec (gsrComplete sec.val)) s

/-- GCLK_GATE_WRITE (R132). -/
def execGclkGateWrite (q : Fin 4) (v : BitVec 32) (s : State) : Host.Outcome State Fault Refusal :=
  run (whenMain (gclkGateWrite q.val v)) s

/-- REGIONAL_GATE_ENABLE_CHANGE (R132). -/
def execRegionalGateEnableChange (sec : Sec) (line : Fin 8) (en : Bool)
    (s : State) : Host.Outcome State Fault Refusal :=
  run (whenSec sec (regionalGate sec.val line.val en)) s

/-- DRAWER_PORT_ACCESS (R99). -/
def execDrawerPortAccess (sec : Sec) (dr : Fin 128) (a b : Option PortIn) (bFirst close : Bool)
    (s : State) : Host.Outcome State Fault Refusal :=
  run (whenSec sec (drawerPortAccess sec.val dr.val a b bFirst close)) s

/-- QUEUE_WRITE (R113). -/
def execQueueWrite (sec : Sec) (dr : Fin 128) (din : PWord) (wp rd : Bool)
    (s : State) : Host.Outcome State Fault Refusal :=
  run (whenSec sec (queueWriteOp sec.val dr.val din wp rd)) s

/-- QUEUE_READ (R113). -/
def execQueueRead (sec : Sec) (dr : Fin 128) (rd : Bool) (s : State) : Host.Outcome State Fault Refusal :=
  run (whenSec sec (queueReadOp sec.val dr.val rd)) s

/-- QUEUE_POINTER_SYNC (R115). -/
def execQueuePointerSync (sec : Sec) (dr : Fin 128) (toRead : Bool) (skip : Nat)
    (s : State) : Host.Outcome State Fault Refusal :=
  run (whenSec sec (queueSyncOp sec.val dr.val toRead skip)) s

/-- QUEUE_RST (R117). -/
def execQueueRst (sec : Sec) (dr : Fin 128) (ev : RstEvent) (s : State) : Host.Outcome State Fault Refusal :=
  run (whenSec sec (queueRstOp sec.val dr.val ev)) s

/-- DELAY_LINE_ADVANCE (R118). -/
def execDelayLineAdvance (sec : Sec) (dr : Fin 128) (din : PWord) (wp : Bool)
    (s : State) : Host.Outcome State Fault Refusal :=
  run (whenSec sec (delayLineOp sec.val dr.val din wp)) s

/-- RUNNER_PASS_ATTEMPT (R119). -/
def execRunnerPassAttempt (sec : Sec) (dr : Fin 128) (phase : PassPhase)
    (s : State) : Host.Outcome State Fault Refusal :=
  run (whenSec sec (passOp sec.val dr.val phase)) s

/-- DRAWER_INIT_COMPLETE (R109). -/
def execDrawerInitComplete (sec : Sec) (dr : Fin 128) (s : State) : Host.Outcome State Fault Refusal :=
  run (whenSec sec (drawerInitDone sec.val dr.val)) s

/-- BENCH_CAPTURE (R91). -/
def execBenchCapture (sec : Sec) (col : Fin 6) (inputs : List BenchIn) (s : State) : Host.Outcome State Fault Refusal :=
  run (whenSec sec (benchCapture sec.val col.val inputs)) s

/-- BENCH_RST (R90). -/
def execBenchRst (sec : Sec) (col : Fin 6) (site : Fin 32) (s : State) : Host.Outcome State Fault Refusal :=
  run (whenSec sec (benchRst sec.val col.val site.val)) s

/-- FLIP_FLOP_CLOCK_EDGE (R55). -/
def execFlipFlopClockEdge (target : FfTarget) (s : State) : Host.Outcome State Fault Refusal :=
  run (flipFlopEdge target) s

end Sys2Proof.Machine
end

