-- ==== Sys2Proof/Machine/FaultRows.lean ====
section
/-! DEFINITION. The meanings of the rows of this family: Faults and escalation. -/

namespace Sys2Proof.Machine

/-- FAULT_RAISE (R490). -/
def execFaultRaise (id : Fin 4096) (detail scope : Word) (s : State) : Host.Outcome State Fault Refusal :=
  run (whenMain (faultRaise id.val detail.toNat scope.toNat)) s

/-- ESCALATION_TIMER_EXPIRY (R492). -/
def execEscalationTimerExpiry (g : Fin 8) (s : State) : Host.Outcome State Fault Refusal :=
  run (whenMain (escalationExpiry g.val)) s

/-- E3_TO_E4_EXPIRY (R492). -/
def execE3ToE4Expiry (g : Fin 8) (s : State) : Host.Outcome State Fault Refusal :=
  run (whenMain (e3Expiry g.val)) s

/-- FAULT_GROUP_ACK (R493). -/
def execFaultGroupAck (g : Fin 8) (s : State) : Host.Outcome State Fault Refusal :=
  run (whenMain (acknowledge g.val)) s

/-- FAULT_ACK (R493). -/
def execFaultAck (mask : BitVec 8) (s : State) : Host.Outcome State Fault Refusal :=
  run (whenMain (mbxRow 0x0601 [(0xFF, mask.toNat)] (faultAck mask.toNat))) s

/-- FAULT_RECORD_FREE (R490). -/
def execFaultRecordFree (g : Fin 8)
    (s : State) (same : List (BitVec 12 × Word × Word) := []) : Host.Outcome State Fault Refusal :=
  run (whenMain (recordFree g.val same)) s

/-- FAULT_LOCK (R500). -/
def execFaultLock (s : State) : Host.Outcome State Fault Refusal :=
  run (whenMain faultLock) s

/-- TEMPERATURE_SAMPLE (R497). -/
def execTemperatureSample (readings : List (Fin 39 × BitVec 8)) (s : State) : Host.Outcome State Fault Refusal :=
  run (whenMain (temperatureSample (readings.map fun x => (x.1.val, x.2.toNat)))) s

/-- FLT_INJECT_WRITE (R502). -/
def execFltInjectWrite (v : Word) (s : State) : Host.Outcome State Fault Refusal :=
  run (whenMain (faultInject v.toNat)) s

end Sys2Proof.Machine
end

