-- ==== Sys2Proof/Machine/HingeRows.lean ====
section
/-! DEFINITION. The meanings of the rows of this family: Hinges. -/

namespace Sys2Proof.Machine

/-- VALUE_LOAD (R150). -/
def execValueLoad (sec : Sec) (h : Fin 64) (load : Bool) (data : PWord) (clr : Bool)
    (s : State) (late : Bool := false) (via : List PinMux := []) : Host.Outcome State Fault Refusal :=
  run (whenSec sec (valueLoadOp false sec.val h.val load data clr late via)) s

/-- VALUE_DELIVERY (R150). -/
def execValueDelivery (sec : Sec) (h : Fin 64) (late : Bool) (s : State) : Host.Outcome State Fault Refusal :=
  run (whenSec sec (hingeEdge .value true sec.val h.val fun g => valueDeliver g late)) s

/-- VALUE_HANDSHAKE_COMPLETE (R152). -/
def execValueHandshakeComplete (sec : Sec) (h : Fin 64) (load : Bool) (data : PWord) (clr : Bool)
    (s : State) (late : Bool := false) (via : List PinMux := []) : Host.Outcome State Fault Refusal :=
  run (whenSec sec (valueLoadOp true sec.val h.val load data clr late via)) s

/-- COUNTER_EVENT (R155). -/
def execCounterEvent (sec : Sec) (h : Fin 64)
    (s : State) (late : Bool := false) (via : List PinMux := []) : Host.Outcome State Fault Refusal :=
  run (whenSec sec (counterEventOp sec.val h.val late via)) s

/-- COUNTER_DELIVERY (R155). -/
def execCounterDelivery (sec : Sec) (h : Fin 64) (late : Nat) (s : State) : Host.Outcome State Fault Refusal :=
  run (whenSec sec (hingeEdge .counter true sec.val h.val fun g => counterDeliver g late)) s

/-- COUNTER_ACKNOWLEDGE (R156). -/
def execCounterAcknowledge (sec : Sec) (h : Fin 64) (late : Bool) (s : State) : Host.Outcome State Fault Refusal :=
  run (whenSec sec (hingeEdge .counter false sec.val h.val fun g => counterAck g late)) s

/-- LEVEL_SYNCHRONISER_SAMPLE (R147). -/
def execLevelSynchroniserSample (sec : Sec) (h : Fin 64) (inp late : BitVec 8)
    (s : State) (via : List PinMux := []) : Host.Outcome State Fault Refusal :=
  run (whenSec sec (levelSampleOp sec.val h.val inp late via)) s

/-- WAKE_REQUEST (R157). -/
def execWakeRequest (sec : Sec) (h : Fin 64) (ps : Nat) (s : State) : Host.Outcome State Fault Refusal :=
  run (whenSec sec (wakeRequest sec.val h.val ps)) s

/-- WAKE_CLEAR (R158). -/
def execWakeClear (sec : Sec) (h : Fin 64) (wReq : Bool)
    (s : State) (via : List PinMux := []) : Host.Outcome State Fault Refusal :=
  run (whenSec sec (wakeClear sec.val h.val wReq via)) s

/-- HINGE_RST (R160). -/
def execHingeRst (sec : Sec) (h : Fin 64) (ev : RstEvent) (s : State) : Host.Outcome State Fault Refusal :=
  run (whenSec sec (hingeRstOp sec.val h.val ev)) s

end Sys2Proof.Machine
end

