-- ==== Sys2Proof/Machine/KeyRows.lean ====
section
/-! DEFINITION. The meanings of the rows of this family: Keys, ranges, rights. -/

namespace Sys2Proof.Machine

/-- KEY_LOAD_LOAD (R336). -/
def execKeyLoadLoad (mask : BitVec 12) (slot : Fin 64) (wrapped : List Word)
    (s : State) : Host.Outcome State Fault Refusal :=
  run (whenMain (mbxRow 0x0401 ((0xC0000000003F0FFF, packNat [(1, 62), (slot.val, 16), (mask.toNat, 0)]) ::
      wholeWords wrapped) (keyLoad mask.toNat slot.val wrapped))) s

/-- KEY_LOAD_CLEAR (R336). -/
def execKeyLoadClear (mask : BitVec 12) (slot : Fin 64) (s : State) : Host.Outcome State Fault Refusal :=
  run (whenMain (mbxRow 0x0401 [(0xC0000000003F0FFF, packNat [(2, 62), (slot.val, 16), (mask.toNat, 0)])]
      (keyClear mask.toNat slot.val))) s

/-- KEY_RANGE_DEFINE (R356). -/
def execKeyRangeDefine (m : Fin 2) (r : Fin 8) (slot : Fin 64) (base size metaBase : Word)
    (s : State) : Host.Outcome State Fault Refusal :=
  run (whenMain (mbxRow 0x0402 ((0xD73F000000000000, packNat [(1, 62), (m.val, 60), (r.val, 56), (slot.val,
      48)]) :: wholeWords [base, size, metaBase]) (rangeDefine m.val r.val slot.val base.toNat size.toNat metaBase.toNat))) s

/-- KEY_RANGE_DISABLE (R356). -/
def execKeyRangeDisable (m : Fin 2) (r : Fin 8) (s : State) : Host.Outcome State Fault Refusal :=
  run (whenMain (mbxRow 0x0402 [(0xD700000000000000, packNat [(2, 62), (m.val, 60), (r.val, 56)])]
      (rangeDisable m.val r.val))) s

/-- KEY_RANGE_REINIT (R356). -/
def execKeyRangeReinit (m : Fin 2) (r : Fin 8) (engine : Fin 16) (level : Fin 16) (node : BitVec 26)
    (s : State) : Host.Outcome State Fault Refusal :=
  run (whenMain (mbxRow 0x0402 [(0xD7000F0F03FFFFFF, packNat [(3, 62), (m.val, 60), (r.val, 56), (engine.val,
      40), (level.val, 32), (node.toNat, 0)])] (rangeReinit m.val r.val engine.val level.val node.toNat))) s

/-- RANGE_INITIALISATION_COMPLETE (R356). -/
def execRangeInitialisationComplete (m : Fin 2) (r : Fin 8) (s : State) : Host.Outcome State Fault Refusal :=
  run (whenMain (rangeReady m.val r.val)) s

/-- REINIT_COMPLETE (R356). -/
def execReinitComplete (s : State) : Host.Outcome State Fault Refusal :=
  run (whenMain reinitDone) s

/-- ENC_CFG_WRITE (R342). -/
def execEncCfgWrite (v : Word) (s : State) : Host.Outcome State Fault Refusal :=
  run (whenMain (encCfgWrite (2 ^ 64 - 1) v.toNat)) s

/-- ENC_CFG_LOCK (R342). -/
def execEncCfgLock (s : State) : Host.Outcome State Fault Refusal :=
  run (whenMain encLock) s

/-- RIGHTS_WRITE (R342). -/
def execRightsWrite (n : Fin 64) (w : Fin 4) (v : Word) (s : State) : Host.Outcome State Fault Refusal :=
  run (whenMain (rightsWrite n.val w.val (2 ^ 64 - 1) v.toNat)) s

/-- HITS_CLR (R341). -/
def execHitsClr (n : Fin 64) (s : State) : Host.Outcome State Fault Refusal :=
  run (whenMain (hitsClr n.val)) s

/-- ENC_STATUS_CLR (R360). -/
def execEncStatusClr (e : Fin 12) (inc : BitVec 6) (s : State) : Host.Outcome State Fault Refusal :=
  run (whenMain (encStatusClr e.val inc)) s

end Sys2Proof.Machine
end

