-- ==== Sys2Proof/Machine/LaneRows.lean ====
section
/-! DEFINITION. The meanings of the rows of this family: Lanes. -/

namespace Sys2Proof.Machine

/-- LANE_CFG_WRITE (R432). -/
def execLaneCfgWrite (n : Fin 128) (v : Word) (s : State) : Host.Outcome State Fault Refusal :=
  run (whenMain (laneCfgWrite n.val v)) s

/-- LANE_RESTART (R432). -/
def execLaneRestart (n : Fin 128) (s : State) : Host.Outcome State Fault Refusal :=
  run (whenMain (laneRestart n.val)) s

/-- LANE_QUAD_CFG_WRITE (R432). -/
def execLaneQuadCfgWrite (j : Fin 32) (v : Word) (s : State) : Host.Outcome State Fault Refusal :=
  run (whenMain (quadCfgWrite j.val v)) s

/-- DETECT_PULSE (R430). -/
def execDetectPulse (n : Fin 128) (found : Bool) (s : State) : Host.Outcome State Fault Refusal :=
  run (whenMain (detectPulse n.val found)) s

/-- PHASE_LOCK (R421). -/
def execPhaseLock (n : Fin 128) (s : State) : Host.Outcome State Fault Refusal :=
  run (whenMain (phaseLock n.val)) s

/-- BLOCK_LOCK (R435). -/
def execBlockLock (n : Fin 128) (s : State) : Host.Outcome State Fault Refusal :=
  run (whenMain (blockLock n.val)) s

/-- EXCHANGE_COMPLETE (R462). -/
def execExchangeComplete (n : Fin 128) (s : State) : Host.Outcome State Fault Refusal :=
  run (whenMain (exchangeComplete n.val)) s

/-- LANE_STAGE_TIMEOUT (R430). -/
def execLaneStageTimeout (n : Fin 128) (s : State) : Host.Outcome State Fault Refusal :=
  run (whenMain (stageTimeout n.val)) s

/-- LANE_LOSS (R431). -/
def execLaneLoss (n : Fin 128) (cause : LaneCause) (s : State) : Host.Outcome State Fault Refusal :=
  run (whenMain (laneLoss n.val cause)) s

/-- LANE_SELF_TEST (R438). -/
def execLaneSelfTest (fails : List QuadFail) (s : State) : Host.Outcome State Fault Refusal :=
  run (whenMain (laneSelfTest fails)) s

/-- FLT_LANE_PLL (R438). -/
def execFltLanePll (j : Fin 32) (s : State) : Host.Outcome State Fault Refusal :=
  run (whenMain (lanePllFault j.val)) s

/-- LANE_ERR_CLR (R439). -/
def execLaneErrClr (n : Fin 128) (inc : BitVec 2) (s : State) : Host.Outcome State Fault Refusal :=
  run (whenMain (laneErrClr n.val inc)) s

/-- RAW_TRANSMIT_WORD (R436). -/
def execRawTransmitWord (n : Fin 128) (offers : List (BitVec 66)) (seen freed : Nat)
    (s : State) : Host.Outcome State Fault Refusal :=
  run (whenMain (rawTransmit n.val offers seen freed)) s

/-- RAW_RECEIVE_WORD (R436). -/
def execRawReceiveWord (n : Fin 128) (word : BitVec 66) (err : Bool) (errs taken seen freed : Nat)
    (s : State) : Host.Outcome State Fault Refusal :=
  run (whenMain (rawReceive n.val word err errs taken seen freed)) s

end Sys2Proof.Machine
end

