-- ==== Sys2Proof/Machine/LinkRows.lean ====
section
/-! DEFINITION. The meanings of the rows of this family: PCI Express, DMA engines, bundles and the timing stream. -/

namespace Sys2Proof.Machine

/-- PCIE_PERST_N_RISE (R454). -/
def execPciePerstNRise (q : Fin 4) (s : State) : Host.Outcome State Fault Refusal :=
  run (perstRise q.val) s

/-- PCIE_PERST_N_LOW (R454). -/
def execPciePerstNLow (q : Fin 4) (s : State) : Host.Outcome State Fault Refusal :=
  run (perstLow q.val) s

/-- PCIE_RETRAIN (R453). -/
def execPcieRetrain (s : State) : Host.Outcome State Fault Refusal :=
  run (whenMain pcieRetrain) s

/-- PCIE_LINK_UP (R453). -/
def execPcieLinkUp (q link : Fin 4) (width : Fin 17) (s : State) : Host.Outcome State Fault Refusal :=
  run (whenMain (pcieLinkUp q.val link.val width.val)) s

/-- PCIE_LINK_DOWN (R454). -/
def execPcieLinkDown (q link : Fin 4) (s : State) : Host.Outcome State Fault Refusal :=
  run (whenMain (pcieLinkDown q.val link.val)) s

/-- PCIE_RATE_CHANGE (R456). -/
def execPcieRateChange (q link : Fin 4) (gen : Fin 6) (s : State) : Host.Outcome State Fault Refusal :=
  run (whenMain (pcieRate q.val link.val gen.val)) s

/-- OUTBOUND_REQUEST (R447). -/
def execOutboundRequest (q : Fin 4) (src : RouterAddr) (srcPort : BitVec 2) (tag : BitVec 12) (lim : TlpLimits)
    (s : State) : Host.Outcome State Fault Refusal :=
  run (whenMain (outboundRequest q.val src.toNat srcPort.toNat tag.toNat lim)) s

/-- HOST_COMPLETION (R447). -/
def execHostCompletion (q : Fin 4) (id : Nat) (ecrcOk : Bool) (st : HostStatus)
    (s : State) : Host.Outcome State Fault Refusal :=
  run (whenMain (hostCompletion q.val id ecrcOk st)) s

/-- PCIE_COMPLETION_TIMEOUT (R447). -/
def execPcieCompletionTimeout (q : Fin 4) (id : Nat) (s : State) : Host.Outcome State Fault Refusal :=
  run (whenMain (pcieTimeout q.val id)) s

/-- DMA_ENABLE (R450). -/
def execDmaEnable (q e : Fin 4) (v : Word) (s : State) : Host.Outcome State Fault Refusal :=
  run (whenMain (dmaEnable q.val e.val v)) s

/-- DMA_STOP (R451). -/
def execDmaStop (q e : Fin 4) (s : State) : Host.Outcome State Fault Refusal :=
  run (whenMain (dmaStop q.val e.val)) s

/-- RING_TAIL_WRITE (R450). -/
def execRingTailWrite (q e : Fin 4) (tail : BitVec 20) (s : State) : Host.Outcome State Fault Refusal :=
  run (whenMain (ringTailWrite q.val e.val tail.toNat)) s

/-- DMA_DESCRIPTOR (R450). -/
def execDmaDescriptor (q e : Fin 4) (desc src : HostStatus) (lim : TlpLimits)
    (s : State) : Host.Outcome State Fault Refusal :=
  run (whenMain (dmaDescriptor q.val e.val desc src lim)) s

/-- DMA_DESCRIPTOR_COMPLETE (R450). -/
def execDmaDescriptorComplete (q e : Fin 4) (s : State) : Host.Outcome State Fault Refusal :=
  run (whenMain (dmaComplete q.val e.val)) s

/-- LINK_CFG_WRITE (R467). -/
def execLinkCfgWrite (b : Fin 32) (v : Word) (s : State) : Host.Outcome State Fault Refusal :=
  run (whenMain (linkCfgWrite b.val v)) s

/-- BUNDLE_FORWARD (R464). -/
def execBundleForward (b : Fin 32) (s : State) : Host.Outcome State Fault Refusal :=
  run (whenMain (bundleForward b.val)) s

/-- PARCEL_FRAME (R463). -/
def execParcelFrame (b : Fin 32) (blocks : List (BitVec 66)) (lost : Bool)
    (s : State) : Host.Outcome State Fault Refusal :=
  run (whenMain (parcelFrame b.val blocks lost)) s

/-- CREDIT_BLOCK (R463). -/
def execCreditBlock (b : Fin 32) (block : BitVec 66) (s : State) : Host.Outcome State Fault Refusal :=
  run (whenMain (creditBlock b.val block)) s

/-- CREDIT_SEND (R463). -/
def execCreditSend (b : Fin 32) (s : State) : Host.Outcome State Fault Refusal :=
  run (whenMain (creditSend b.val)) s

/-- ALIGN_BLOCK (R461). -/
def execAlignBlock (b : Fin 32) (found inPlace : Bool) (s : State) : Host.Outcome State Fault Refusal :=
  run (whenMain (alignBlock b.val found inPlace)) s

/-- CAP_BLOCK (R462). -/
def execCapBlock (n : Fin 128) (words : List Word) (s : State) : Host.Outcome State Fault Refusal :=
  run (whenMain (capBlock n.val (words.map (·.toNat)))) s

/-- LINK_ERR_CLR (R467). -/
def execLinkErrClr (b : Fin 32) (inc : BitVec 3) (s : State) : Host.Outcome State Fault Refusal :=
  run (whenMain (linkErrClr b.val inc)) s

/-- LINK_KEY_LOAD (R466). -/
def execLinkKeyLoad (b : Fin 32) (wrapped : List Word) (s : State) : Host.Outcome State Fault Refusal :=
  run (whenMain (mbxRow 0x0403 ((0x1F, b.val) :: wholeWords wrapped) (linkKeyLoad b.val wrapped))) s

/-- TIME_CODE (R469). -/
def execTimeCode (d1 d2 : Word) (blocks : Nat) (s : State) : Host.Outcome State Fault Refusal :=
  run (whenMain (timeCode d1 d2 blocks)) s

/-- TIME_CODE_TIMEOUT (R469). -/
def execTimeCodeTimeout (s : State) : Host.Outcome State Fault Refusal :=
  run (whenMain timeCodeTimeout) s

end Sys2Proof.Machine
end

