-- ==== Sys2Proof/Machine/LoadRows.lean ====
section
/-! DEFINITION. The meanings of the rows of this family: Loading, boot, start-up, health check and the store. -/

namespace Sys2Proof.Machine

/-- LOAD_IMAGE (R198). -/
def execLoadImage (src : LoadFrom) (s : State) : Host.Outcome State Fault Refusal :=
  run (whenMain (loadCmd false src)) s

/-- LOAD_PARTIAL (R224). -/
def execLoadPartial (src : LoadFrom) (s : State) : Host.Outcome State Fault Refusal :=
  run (whenMain (loadCmd true src)) s

/-- IMAGE_SECTION (R189). -/
def execImageSection (s : State) : Host.Outcome State Fault Refusal :=
  run (whenMain sectionStep) s

/-- FRAME_RECORD (R190). -/
def execFrameRecord (items : List (List Setting)) (mismatches : Nat) (s : State) : Host.Outcome State Fault Refusal :=
  run (whenMain (recordStep items mismatches)) s

/-- LOAD_COMPLETE (R198). -/
def execLoadComplete (s : State) : Host.Outcome State Fault Refusal :=
  run (whenMain doLoadComplete) s

/-- LOAD_ABORT (R511). -/
def execLoadAbort (path : Path) (s : State) : Host.Outcome State Fault Refusal :=
  run (whenMain (loadAbort (pathCode path))) s

/-- CONFIGURATION_PORT_IMAGE (R206). -/
def execConfigurationPortImage (ev : CfgPortEvent) (s : State) : Host.Outcome State Fault Refusal :=
  run (whenMain (cfgPortEvent ev)) s

/-- BOOT_PROCEDURE (R210). -/
def execBootProcedure (s : State) : Host.Outcome State Fault Refusal :=
  run (whenMain bootProcedure) s

/-- STARTUP_CLOCKS_START (R213). -/
def execStartupClocksStart (s : State) : Host.Outcome State Fault Refusal :=
  run (whenMain startupClocks) s

/-- STARTUP_PLLS_LOCKED (R213). -/
def execStartupPllsLocked (s : State) : Host.Outcome State Fault Refusal :=
  run (whenMain startupPllsLocked) s

/-- STARTUP_PLL_TIMEOUT (R213). -/
def execStartupPllTimeout (s : State) : Host.Outcome State Fault Refusal :=
  run (whenMain startupTimeout) s

/-- STARTUP_QUADRANT_RELEASE (R213). -/
def execStartupQuadrantRelease (q : Fin 4) (s : State) : Host.Outcome State Fault Refusal :=
  run (whenMain (startupQuadrant q.val)) s

/-- STARTUP_OUTPUT_RELEASE (R213). -/
def execStartupOutputRelease (s : State) : Host.Outcome State Fault Refusal :=
  run (whenMain startupOutputRelease) s

/-- STARTUP_DONE (R213). -/
def execStartupDone (s : State) : Host.Outcome State Fault Refusal :=
  run (whenMain startupDone) s

/-- HEALTH_CHECK_PASS (R216). -/
def execHealthCheckPass (inputs : BitVec 64) (s : State) : Host.Outcome State Fault Refusal :=
  run (whenMain (healthSample inputs)) s

/-- HEALTH_TIMEOUT (R216). -/
def execHealthTimeout (s : State) : Host.Outcome State Fault Refusal :=
  run (whenMain healthTimeout) s

/-- RECONFIGURE (R528). -/
def execReconfigure (s : State) : Host.Outcome State Fault Refusal :=
  run (whenMain (mbxRow 0x0105 [] reconfigureCmd)) s

/-- STORE_WRITE (R203). -/
def execStoreWrite (area : Fin 4) (slot : Fin 32) (overwrite single : Bool) (img : ImageWords) (res : StoreOutcome)
    (s : State) : Host.Outcome State Fault Refusal :=
  run (whenMain (storeWriteCmd area.val slot.val overwrite single img res)) s

/-- STORE_SELECT (R515). -/
def execStoreSelect (size : BitVec 6) (s : State) : Host.Outcome State Fault Refusal :=
  run (whenMain (mbxRow 0x0202 [(0x3F, size.toNat)] (storeSelect size.toNat))) s

end Sys2Proof.Machine
end

