-- ==== Sys2Proof/Machine/MemoryRows.lean ====
section
/-! DEFINITION. The meanings of the rows of this family: SRAM and DDR5. -/

namespace Sys2Proof.Machine

/-- TABLE_PORT_READ (R309). -/
def execTablePortRead (q : Fin 4) (ra : BitVec 22) (s : State) : Host.Outcome State Fault Refusal :=
  run (whenMain (tpRead q.val ra.toNat)) s

/-- TABLE_PORT_WRITE (R309). -/
def execTablePortWrite (q : Fin 4) (wa : BitVec 22) (we : BitVec 2) (w0 w1 : Word) (p0 p1 : Bool)
    (s : State) : Host.Outcome State Fault Refusal :=
  run (whenMain (tpWrite q.val { wa := wa.toNat, we := we.toNat, wd := (w0, w1), wp := (p0, p1) })) s

/-- TABLE_PORT_READ_DATA (R309). -/
def execTablePortReadData (q : Fin 4) (s : State) : Host.Outcome State Fault Refusal :=
  run (whenMain (tpReadData q.val)) s

/-- SRAM_PORT_CYCLE (R306). -/
def execSramPortCycle (n : Fin 4) (s : State) : Host.Outcome State Fault Refusal :=
  run (whenMain (sramCycle n.val)) s

/-- SRAM_COMMAND_PARITY_FAIL (R312). -/
def execSramCommandParityFail (n : Fin 4) (fromTp : Bool) (addr : BitVec 48)
    (s : State) : Host.Outcome State Fault Refusal :=
  run (whenMain (sramParity n.val fromTp addr.toNat)) s

/-- DDR_TRAINING_COMPLETE (R315). -/
def execDdrTrainingComplete (n : Fin 8) (spd : DdrSpd) (s : State) : Host.Outcome State Fault Refusal :=
  run (whenMain (ddrTrained n.val spd)) s

/-- FLT_DDR_TRAIN (R315). -/
def execFltDdrTrain (n : Fin 8) (sub : Bool) (rank : Fin 4) (stage : Fin 8)
    (s : State) : Host.Outcome State Fault Refusal :=
  run (whenMain (ddrTrainFails n.val sub.toNat rank.val stage.val)) s

/-- DQS_OSCILLATOR_CHECK (R316). -/
def execDqsOscillatorCheck (n : Fin 8) (s : State) (counts : List DqsCount := []) : Host.Outcome State Fault Refusal :=
  run (whenMain (dqsCheck n.val counts)) s

/-- DDR_REFRESH (R324). -/
def execDdrRefresh (n : Fin 8) (bank : Fin 4) (rfm : List Nat) (s : State) : Host.Outcome State Fault Refusal :=
  run (whenMain (ddrRefresh n.val bank.val rfm)) s

/-- DDR_POWER_DOWN_ENTRY (R325). -/
def execDdrPowerDownEntry (n : Fin 8) (rank : Fin 4) (s : State) : Host.Outcome State Fault Refusal :=
  run (whenMain (rankSleep n.val rank.val 1)) s

/-- DDR_SELF_REFRESH_ENTRY (R325). -/
def execDdrSelfRefreshEntry (n : Fin 8) (rank : Fin 4) (s : State) : Host.Outcome State Fault Refusal :=
  run (whenMain (rankSleep n.val rank.val 2)) s

/-- DDR_CA_PARITY_ALERT (R329). -/
def execDdrCaParityAlert (n : Fin 8) (cmd : DdrCmdAt) (s : State) : Host.Outcome State Fault Refusal :=
  run (whenMain (caParityAlert n.val cmd)) s

/-- DDR_WRITE_CRC_ALERT (R328). -/
def execDdrWriteCrcAlert (n : Fin 8) (cmd : DdrCmdAt) (s : State) : Host.Outcome State Fault Refusal :=
  run (whenMain (writeCrcAlert n.val cmd)) s

/-- CHANNEL_RESET (R330). -/
def execChannelReset (n : Fin 8) (s : State) : Host.Outcome State Fault Refusal :=
  run (whenMain (channelReset n.val)) s

/-- DDR_MAP_APPLY (R320). -/
def execDdrMapApply (s : State) : Host.Outcome State Fault Refusal :=
  run (whenMain mapApply) s

/-- DDR_RETRAINING_COMPLETE (R331). -/
def execDdrRetrainingComplete (n : Fin 8) (s : State) : Host.Outcome State Fault Refusal :=
  run (whenMain (ddrRetrained n.val)) s

/-- DDR_SCHEDULER_CYCLE (R322). -/
def execDdrSchedulerCycle (n : Fin 8) (ready0 ready1 : List Nat) (s : State) : Host.Outcome State Fault Refusal :=
  run (whenMain (ddrCycle n.val ready0 ready1)) s

/-- DDR_RETRY (R505). -/
def execDdrRetry (n : Fin 8) (s : State) : Host.Outcome State Fault Refusal :=
  run (whenMain (ddrRetry n.val)) s

end Sys2Proof.Machine
end

