-- ==== Sys2Proof/Machine/NetworkRows.lean ====
section
/-! DEFINITION. The meanings of the rows of this family: The network: routers, attachment points, transactions. -/

namespace Sys2Proof.Machine

/-- PARCEL_ARRIVAL (R268). -/
def execParcelArrival (r : Router) (s : State) : Host.Outcome State Fault Refusal :=
  run (whenMain (parcelArrival (routerAddr r))) s

/-- PARCEL_INJECT (R268). -/
def execParcelInject (r : Router) (s : State) : Host.Outcome State Fault Refusal :=
  run (whenMain (parcelInject (routerAddr r))) s

/-- CROSSING_RECENTRE (R260). -/
def execCrossingRecentre (r : Router) (dir : Dir) (repeated : Bool) (s : State) : Host.Outcome State Fault Refusal :=
  run (whenMain (recentre (routerAddr r) dir.val repeated)) s

/-- TOKEN_GAIN (R271). -/
def execTokenGain (r : Router) (port : Fin 2) (s : State) : Host.Outcome State Fault Refusal :=
  run (whenMain (onEp r port tokenGain)) s

/-- NOC_RTR_CNT_CLR (R281). -/
def execNocRtrCntClr (r : Router) (inc : BitVec 2) (s : State) : Host.Outcome State Fault Refusal :=
  run (whenMain (rtrCntClr (routerAddr r) inc)) s

/-- NOC_ATT_CNT_CLR (R281). -/
def execNocAttCntClr (att : AttPoint) (inc : BitVec 2) (s : State) : Host.Outcome State Fault Refusal :=
  run (whenMain (attCntClr (routerAddr (.fabric att.router)) att.port.val inc)) s

/-- NOC_EDGE_REG_WRITE (R281). -/
def execNocEdgeRegWrite (e : EdgeBlock) (v : Word) (s : State) : Host.Outcome State Fault Refusal :=
  run (whenMain (edgeRegWrite (routerAddr (.edge e)) v)) s

/-- USER_REQUEST (R289). -/
def execUserRequest (att : AttPoint) (req : Request) (s : State) : Host.Outcome State Fault Refusal :=
  run (whenMain (userRow att fun k => userRequest k req)) s

/-- SUB_READ_ISSUE (R291). -/
def execSubReadIssue (att : AttPoint) (s : State) : Host.Outcome State Fault Refusal :=
  run (whenMain (userRow att subRead)) s

/-- TARGET_REQUEST (R293). -/
def execTargetRequest (target : Router) (port : Fin 2) (src : RouterAddr) (srcPort : BitVec 2) (tag : BitVec 12)
    (s : State) : Host.Outcome State Fault Refusal :=
  run (whenMain (onEp target port fun k => targetRequest k src.toNat srcPort.toNat tag.toNat)) s

/-- REASSEMBLY_TIMEOUT (R295). -/
def execReassemblyTimeout (target : Router) (port : Fin 2) (src : RouterAddr) (srcPort : BitVec 2) (tag : BitVec 12)
    (s : State) : Host.Outcome State Fault Refusal :=
  run (whenMain (onEp target port fun k => reassemblyTimeout k src.toNat srcPort.toNat tag.toNat)) s

/-- TRANSACTION_TIMEOUT (R297). -/
def execTransactionTimeout (req : Router) (port : Fin 2) (tag : BitVec 12)
    (s : State) : Host.Outcome State Fault Refusal :=
  run (whenMain (onEp req port fun k => timeoutTransaction k tag.toNat)) s

/-- TAG_QUARANTINE_END (R288). -/
def execTagQuarantineEnd (req : Router) (port : Fin 2) (tag : BitVec 12)
    (s : State) : Host.Outcome State Fault Refusal :=
  run (whenMain (onEp req port fun k => quarantineEnd k tag.toNat)) s

/-- RESPONSE_DELIVERY (R302). -/
def execResponseDelivery (r : Router) (port : Fin 2) (s : State) : Host.Outcome State Fault Refusal :=
  run (whenMain (onEp r port deliverResponse)) s

/-- NOC_FAULT_CNT_CLR (R300). -/
def execNocFaultCntClr (r : Router) (inc : Bool) (s : State) : Host.Outcome State Fault Refusal :=
  run (whenMain (nocFaultClr (routerAddr r) inc)) s

/-- NOC_ATT_DROP_CLR (R304). -/
def execNocAttDropClr (r : Router) (port : Fin 2) (inc : BitVec 4) (s : State) : Host.Outcome State Fault Refusal :=
  run (whenMain (onEp r port fun k => attDropClr (k / 4) (k % 4) inc)) s

/-- INBOUND_PARCEL_PRESENT (R278). -/
def execInboundParcelPresent (att : AttPoint) (s : State) : Host.Outcome State Fault Refusal :=
  run (whenMain (userRow att presentInbound)) s

/-- TARGET_PORT_RESPONSE (R277). -/
def execTargetPortResponse (att : AttPoint) (resp : TargetResp) (s : State) : Host.Outcome State Fault Refusal :=
  run (whenMain (userRow att fun k => targetResponse k resp)) s

end Sys2Proof.Machine
end

