-- ==== Sys2Proof/Machine/PowerRows.lean ====
section
/-! DEFINITION. The meanings of the rows of this family: Power-on, rails, warm reset. -/

namespace Sys2Proof.Machine

/-- MAIN_POWER_ON_RESET (R523). -/
def execMainPowerOnReset (fails : List DecoderFail) (s : State) : Host.Outcome State Fault Refusal :=
  run (mainPowerOn fails) s

/-- MANAGEMENT_POR_RELEASE (R523). -/
def execManagementPorRelease (straps : Straps) (s : State) : Host.Outcome State Fault Refusal :=
  run (porRelease straps) s

/-- RAILS_IN_RANGE (R523). -/
def execRailsInRange (banks : List (BitVec 16)) (s : State) : Host.Outcome State Fault Refusal :=
  run (whenMain (railsInRange (banks.map (·.toNat)))) s

/-- RAIL_WAIT_TIMEOUT (R523). -/
def execRailWaitTimeout (missing : List RailState) (banks : List (BitVec 16))
    (s : State) : Host.Outcome State Fault Refusal :=
  run (whenMain (railTimeout missing (banks.map (·.toNat)))) s

/-- RAIL_DROP (R521). -/
def execRailDrop (s : State) : Host.Outcome State Fault Refusal :=
  run (whenMain railDrop) s

/-- FLT_RAIL_LIMIT (R521). -/
def execFltRailLimit (rail : RailState) (s : State) : Host.Outcome State Fault Refusal :=
  run (whenMain (railLimit rail)) s

/-- GROUP_A_FALL (R524). -/
def execGroupAFall (s : State) : Host.Outcome State Fault Refusal :=
  run groupAFall s

/-- WARM_RESET (R529). -/
def execWarmReset (s : State) : Host.Outcome State Fault Refusal :=
  run (whenMain (warmStart false)) s

/-- WARM_RESET_QUIESCED (R529). -/
def execWarmResetQuiesced (s : State) : Host.Outcome State Fault Refusal :=
  run (whenMain warmQuiesced) s

/-- WARM_RESET_END (R529). -/
def execWarmResetEnd (fails : List DecoderFail) (s : State) : Host.Outcome State Fault Refusal :=
  run (whenMain (warmEnd fails)) s

end Sys2Proof.Machine
end

