-- ==== Sys2Proof/Machine/RegionRows.lean ====
section
/-! DEFINITION. The meanings of the rows of this family: Regions: fencing, reset and power. -/

namespace Sys2Proof.Machine

/-- REGION_FENCE (R232). -/
def execRegionFence (r : Fin 16) (s : State) : Host.Outcome State Fault Refusal :=
  run (whenMain (mbxRow 0x0301 [(0xF, r.val)] (regionFence r.val))) s

/-- REGION_UNFENCE (R232). -/
def execRegionUnfence (r : Fin 16) (s : State) : Host.Outcome State Fault Refusal :=
  run (whenMain (mbxRow 0x0302 [(0xF, r.val)] (regionUnfence r.val))) s

/-- REGION_RESET_ASSERT (R232). -/
def execRegionResetAssert (r : Fin 16) (s : State) : Host.Outcome State Fault Refusal :=
  run (whenMain (mbxRow 0x0303 [(0x10F, r.val + 0x100)] (regionResetAssert r.val))) s

/-- REGION_RESET_RELEASE (R232). -/
def execRegionResetRelease (r : Fin 16) (s : State) : Host.Outcome State Fault Refusal :=
  run (whenMain (mbxRow 0x0303 [(0x10F, r.val)] (regionResetRelease r.val))) s

/-- REGION_POWER_OFF_RETAIN (R236). -/
def execRegionPowerOffRetain (r : Fin 16) (s : State) : Host.Outcome State Fault Refusal :=
  run (whenMain (mbxRow 0x0304 [(0x30F, r.val)] (regionOffRetain r.val))) s

/-- REGION_POWER_OFF_LOSE (R236). -/
def execRegionPowerOffLose (r : Fin 16) (s : State) : Host.Outcome State Fault Refusal :=
  run (whenMain (mbxRow 0x0304 [(0x30F, r.val + 0x100)] (regionOffLose r.val))) s

/-- REGION_POWER_ON (R237). -/
def execRegionPowerOn (r : Fin 16) (s : State) : Host.Outcome State Fault Refusal :=
  run (whenMain (mbxRow 0x0304 [(0x30F, r.val + 0x200)] (regionOn r.val))) s

/-- REGION_DRAIN_COMPLETE (R234). -/
def execRegionDrainComplete (r : Fin 16) (us : Nat) (s : State) : Host.Outcome State Fault Refusal :=
  run (whenMain (regionDrained r.val us)) s

/-- REGION_DRAIN_TIMEOUT (R233). -/
def execRegionDrainTimeout (r : Fin 16) (s : State) : Host.Outcome State Fault Refusal :=
  run (whenMain (regionDrainTimeout r.val)) s

/-- REGION_CLOCKS_STOPPED (R236). -/
def execRegionClocksStopped (r : Fin 16) (s : State) : Host.Outcome State Fault Refusal :=
  run (whenMain (regionClocksStopped r.val)) s

/-- REGION_ATTACHMENTS_OFF (R236). -/
def execRegionAttachmentsOff (r : Fin 16) (s : State) : Host.Outcome State Fault Refusal :=
  run (whenMain (regionAttsOff r.val)) s

/-- VCC_FAB_SWITCH_OPEN (R236). -/
def execVccFabSwitchOpen (r : Fin 16) (s : State) : Host.Outcome State Fault Refusal :=
  run (whenMain (regionSwitchOpen r.val)) s

/-- CONFIGURATION_UNPOWERED (R236). -/
def execConfigurationUnpowered (r : Fin 16) (s : State) : Host.Outcome State Fault Refusal :=
  run (whenMain (regionUnpowered r.val)) s

/-- VCC_FAB_SWITCH_CLOSE (R237). -/
def execVccFabSwitchClose (r : Fin 16) (s : State) : Host.Outcome State Fault Refusal :=
  run (whenMain (regionSwitchClose r.val)) s

/-- VCC_FAB_GOOD (R237). -/
def execVccFabGood (r : Fin 16) (s : State) : Host.Outcome State Fault Refusal :=
  run (whenMain (regionVccGood r.val)) s

/-- FLT_SECTOR_POWER (R237). -/
def execFltSectorPower (r : Fin 16) (sec : Fin 64) (mv : BitVec 16) (s : State) : Host.Outcome State Fault Refusal :=
  run (whenMain (regionVccBad r.val sec.val mv.toNat)) s

/-- REGION_POWER_UP_RELEASE (R237). -/
def execRegionPowerUpRelease (r : Fin 16) (s : State) : Host.Outcome State Fault Refusal :=
  run (whenMain (regionUpReleaseRow r.val)) s

/-- REGION_POWER_UP_CLOCKS_START (R237). -/
def execRegionPowerUpClocksStart (r : Fin 16) (s : State) : Host.Outcome State Fault Refusal :=
  run (whenMain (regionUpClocks r.val)) s

end Sys2Proof.Machine
end

