-- ==== Sys2Proof/Machine/ScrubRows.lean ====
section
/-! DEFINITION. The meanings of the rows of this family: Scrubbing and repair. -/

namespace Sys2Proof.Machine

/-- SCRUB_SLOT (R244). -/
def execScrubSlot (q : Fin 5)
    (s : State) (flips : List (Fin 3 × Fin 4 × Fin 64) := []) (verifyFails : Bool := false) : Host.Outcome State Fault Refusal :=
  run (whenSlot q (scrubSlot q.val flips verifyFails)) s

/-- STORE_REPAIR (R247). -/
def execStoreRepair (sec : Sec) (leaf : LeafId) (frame : Fin 1536) (verifyFails : Bool)
    (s : State) : Host.Outcome State Fault Refusal :=
  run (whenMain (storeRepair sec.val leaf.val frame.val verifyFails)) s

/-- LEDGER_RECOMPUTE (R250). -/
def execLedgerRecompute (sec : Sec) (leaf : LeafId) (frame : Fin 1536)
    (s : State) (verifyFails : Bool := false) : Host.Outcome State Fault Refusal :=
  run (whenSec sec (ledgerRecompute sec.val leaf.val frame.val verifyFails)) s

/-- SCRUB_CNT_CLR (R252). -/
def execScrubCntClr (inc : BitVec 4) (s : State) : Host.Outcome State Fault Refusal :=
  run (whenMain (scrubCountsClear inc)) s

end Sys2Proof.Machine
end

