-- ==== Sys2Proof/Machine/TileRows.lean ====
section
/-! DEFINITION. The meanings of the rows of this family: Converter tiles. -/

namespace Sys2Proof.Machine

/-- SAMPLE_SLOT (R403). -/
def execSampleSlot (inputs : List SampleIn) (logOk : Bool) (s : State) : Host.Outcome State Fault Refusal :=
  run (sampleSlot inputs logOk) s

/-- SAMPLE_DELIVERY (R404). -/
def execSampleDelivery (t : Fin 24) (s : State) : Host.Outcome State Fault Refusal :=
  run (sampleDelivery t.val) s

/-- SOURCE_CODE_LOAD (R405). -/
def execSourceCodeLoad (t : Fin 24) (code : BitVec 20) (s : State) : Host.Outcome State Fault Refusal :=
  run (sourceLoad t.val code) s

/-- DAC_UPDATE (R405). -/
def execDacUpdate (s : State) : Host.Outcome State Fault Refusal :=
  run dacUpdate s

/-- CAL_REQ (R408). -/
def execCalReq (t : Fin 24) (s : State) : Host.Outcome State Fault Refusal :=
  run (calRequest t.val) s

/-- CALIBRATION_COMPLETE (R408). -/
def execCalibrationComplete (t : Fin 24) (fails : Option CalStep) (logOk : Bool)
    (s : State) : Host.Outcome State Fault Refusal :=
  run (calComplete t.val fails logOk) s

/-- CREF_RANGE_TIMEOUT (R398). -/
def execCrefRangeTimeout (logOk : Bool) (s : State) : Host.Outcome State Fault Refusal :=
  run (crefTimeout logOk) s

/-- SRC_FAULT_TIMEOUT (R409). -/
def execSrcFaultTimeout (t : Fin 24) (logOk : Bool) (s : State) : Host.Outcome State Fault Refusal :=
  run (srcFault t.val logOk) s

/-- SOURCE_CURRENT_LIMIT (R411). -/
def execSourceCurrentLimit (t : Fin 24) (on : Bool) (s : State) : Host.Outcome State Fault Refusal :=
  run (currentLimit t.val on) s

/-- SAMPLE_PORT_PUSH (R412). -/
def execSamplePortPush (word : Word) (poison : Bool) (freed : Nat) (s : State) : Host.Outcome State Fault Refusal :=
  run (samplePush word poison freed) s

/-- SP_TAKE (R412). -/
def execSpTake (seen : Nat) (s : State) : Host.Outcome State Fault Refusal :=
  run (spTake seen) s

/-- SOURCE_PORT_OFFER (R413). -/
def execSourcePortOffer (data : Word) (poison : Bool) (tiles : List (Fin 32)) (freed : Nat)
    (s : State) : Host.Outcome State Fault Refusal :=
  run (sourceOffer { word := encodeWord data poison, tiles := tiles.map (·.val) } freed) s

/-- SOURCE_PORT_ADMIT (R413). -/
def execSourcePortAdmit (seen : Nat) (s : State) : Host.Outcome State Fault Refusal :=
  run (sourceAdmit seen) s

end Sys2Proof.Machine
end

