-- ==== Sys2Proof/Machine/TimeIoRows.lean ====
section
/-! DEFINITION. The meanings of the rows of this family: I/O banks and the timebase unit. -/

namespace Sys2Proof.Machine

/-- BANK_SUPPLY_LOSS (R477). -/
def execBankSupplyLoss (b : Fin 10) (above : Bool) (mv : BitVec 16) (s : State) : Host.Outcome State Fault Refusal :=
  run (whenMain (bankLoss b.val above mv.toNat)) s

/-- BANK_SUPPLY_RETURN (R477). -/
def execBankSupplyReturn (b : Fin 10) (mv : BitVec 16) (s : State) : Host.Outcome State Fault Refusal :=
  run (whenMain (bankReturn b.val mv.toNat)) s

/-- DELAY_CALIBRATION (R475). -/
def execDelayCalibration (b : Fin 10) (tapFs : BitVec 16) (ok : Bool) (s : State) : Host.Outcome State Fault Refusal :=
  run (whenMain (delayCal b.val tapFs.toNat ok)) s

/-- TIMEBASE_EDGE (R480). -/
def execTimebaseEdge (s : State) : Host.Outcome State Fault Refusal :=
  run (whenMain timebaseEdge) s

/-- TB_TIME_SET_APPLY (R481). -/
def execTbTimeSetApply (s : State) : Host.Outcome State Fault Refusal :=
  run (whenMain timeSetApply) s

/-- CAPTURE_EDGE (R483). -/
def execCaptureEdge (src : Fin 9) (falling : Bool) (stamp : BitVec 80) (s : State) : Host.Outcome State Fault Refusal :=
  run (whenMain (captureEdge src.val falling stamp.toNat)) s

/-- CAPTURE_POP (R485). -/
def execCapturePop (s : State) : Host.Outcome State Fault Refusal :=
  run (whenMain capturePop) s

/-- CAPTURE_CLR (R485). -/
def execCaptureClr (s : State) : Host.Outcome State Fault Refusal :=
  run (whenMain captureClr) s

/-- TIMED_TRIGGER_ARM (R484). -/
def execTimedTriggerArm (n : Fin 9) (s : State) : Host.Outcome State Fault Refusal :=
  run (whenMain (trigWrite (trigArm n.val))) s

/-- TIMED_TRIGGER_DISARM (R485). -/
def execTimedTriggerDisarm (n : Fin 9) (s : State) : Host.Outcome State Fault Refusal :=
  run (whenMain (trigWrite (trigDisarm n.val))) s

/-- TIMED_TRIGGER_FIRE (R484). -/
def execTimedTriggerFire (n : Fin 9) (s : State) : Host.Outcome State Fault Refusal :=
  run (whenMain (trigFire n.val)) s

/-- TRIGGER_PULSE_END (R484). -/
def execTriggerPulseEnd (n : Fin 9) (s : State) : Host.Outcome State Fault Refusal :=
  run (whenMain (trigPulseEnd n.val)) s

end Sys2Proof.Machine
end

