-- ==== Sys2Proof/Machine/Dispatch.lean ====
section
/-! DEFINITION. Dispatch: one arm per command, each one call of its meaning. -/

namespace Sys2Proof.Machine

/-- The effect of a command on everything but the queue. -/
def exec (i : Instr) (s : State) : Host.Outcome State Fault Refusal :=
  match i with
  | .registerWrite path a bytes poison setNow => Sys2Proof.Machine.execRegisterWrite path a bytes poison s setNow
  | .bar0Access id ecrcOk acc => Sys2Proof.Machine.execBar0Access id ecrcOk acc s
  | .bar2Access q link id ecrcOk acc => Sys2Proof.Machine.execBar2Access q link id ecrcOk acc s
  | .bar4Access id ecrcOk acc => Sys2Proof.Machine.execBar4Access id ecrcOk acc s
  | .eccCntClr u inc => Sys2Proof.Machine.execEccCntClr u inc s
  | .startUpFillComplete unit => Sys2Proof.Machine.execStartUpFillComplete unit s
  | .configurationUpset sec leaf frame flips now => Sys2Proof.Machine.execConfigurationUpset sec leaf frame flips now s
  | .globalSetResetRelease sec => Sys2Proof.Machine.execGlobalSetResetRelease sec s
  | .gclkGateWrite q v => Sys2Proof.Machine.execGclkGateWrite q v s
  | .regionalGateEnableChange sec line en => Sys2Proof.Machine.execRegionalGateEnableChange sec line en s
  | .drawerPortAccess sec dr a b bFirst close => Sys2Proof.Machine.execDrawerPortAccess sec dr a b bFirst close s
  | .queueWrite sec dr din wp rd => Sys2Proof.Machine.execQueueWrite sec dr din wp rd s
  | .queueRead sec dr rd => Sys2Proof.Machine.execQueueRead sec dr rd s
  | .queuePointerSync sec dr toRead skip => Sys2Proof.Machine.execQueuePointerSync sec dr toRead skip s
  | .queueRst sec dr ev => Sys2Proof.Machine.execQueueRst sec dr ev s
  | .delayLineAdvance sec dr din wp => Sys2Proof.Machine.execDelayLineAdvance sec dr din wp s
  | .runnerPassAttempt sec dr phase => Sys2Proof.Machine.execRunnerPassAttempt sec dr phase s
  | .drawerInitComplete sec dr => Sys2Proof.Machine.execDrawerInitComplete sec dr s
  | .benchCapture sec col inputs => Sys2Proof.Machine.execBenchCapture sec col inputs s
  | .benchRst sec col site => Sys2Proof.Machine.execBenchRst sec col site s
  | .valueLoad sec h load data clr late via => Sys2Proof.Machine.execValueLoad sec h load data clr s late via
  | .valueDelivery sec h late => Sys2Proof.Machine.execValueDelivery sec h late s
  | .valueHandshakeComplete sec h load data clr late via => Sys2Proof.Machine.execValueHandshakeComplete sec h load data clr s late via
  | .counterEvent sec h late via => Sys2Proof.Machine.execCounterEvent sec h s late via
  | .counterDelivery sec h late => Sys2Proof.Machine.execCounterDelivery sec h late s
  | .wakeRequest sec h ps => Sys2Proof.Machine.execWakeRequest sec h ps s
  | .wakeClear sec h wReq via => Sys2Proof.Machine.execWakeClear sec h wReq s via
  | .hingeRst sec h ev => Sys2Proof.Machine.execHingeRst sec h ev s
  | .judgingWindow src count => Sys2Proof.Machine.execJudgingWindow src count s
  | .managementPllLocked => Sys2Proof.Machine.execManagementPllLocked s
  | .rejudge => Sys2Proof.Machine.execRejudge s
  | .clockSwitchRequest dom => Sys2Proof.Machine.execClockSwitchRequest dom s
  | .switchForceTimeout dom => Sys2Proof.Machine.execSwitchForceTimeout dom s
  | .clockSwitchComplete dom gap blocks => Sys2Proof.Machine.execClockSwitchComplete dom gap blocks s
  | .pllLossOfLock p => Sys2Proof.Machine.execPllLossOfLock p s
  | .pllLock p => Sys2Proof.Machine.execPllLock p s
  | .globalLineSourceChange q n side => Sys2Proof.Machine.execGlobalLineSourceChange q n side s
  | .tbReturnHoldExpiry src cab => Sys2Proof.Machine.execTbReturnHoldExpiry src cab s
  | .goStream => Sys2Proof.Machine.execGoStream s
  | .goCrystal => Sys2Proof.Machine.execGoCrystal s
  | .goInternal => Sys2Proof.Machine.execGoInternal s
  | .clkMissingEdgeTrip n => Sys2Proof.Machine.execClkMissingEdgeTrip n s
  | .clkFrequencyWindow n count => Sys2Proof.Machine.execClkFrequencyWindow n count s
  | .commit target => Sys2Proof.Machine.execCommit target s
  | .rollback target => Sys2Proof.Machine.execRollback target s
  | .commitDrainComplete us => Sys2Proof.Machine.execCommitDrainComplete us s
  | .commitDrainTimeout => Sys2Proof.Machine.execCommitDrainTimeout s
  | .commitQuietWindowBegin pins => Sys2Proof.Machine.execCommitQuietWindowBegin pins s
  | .commitStrobe => Sys2Proof.Machine.execCommitStrobe s
  | .commitQuietWindowEnd => Sys2Proof.Machine.execCommitQuietWindowEnd s
  | .commitEpochHoldEnd => Sys2Proof.Machine.execCommitEpochHoldEnd s
  | .ledgerRead leaf sec frame => Sys2Proof.Machine.execLedgerRead leaf sec frame s
  | .loadImage src => Sys2Proof.Machine.execLoadImage src s
  | .loadPartial src => Sys2Proof.Machine.execLoadPartial src s
  | .imageSection => Sys2Proof.Machine.execImageSection s
  | .frameRecord items mismatches => Sys2Proof.Machine.execFrameRecord items mismatches s
  | .loadComplete => Sys2Proof.Machine.execLoadComplete s
  | .loadAbort path => Sys2Proof.Machine.execLoadAbort path s
  | .configurationPortImage ev => Sys2Proof.Machine.execConfigurationPortImage ev s
  | .bootProcedure => Sys2Proof.Machine.execBootProcedure s
  | .startupPllsLocked => Sys2Proof.Machine.execStartupPllsLocked s
  | .startupPllTimeout => Sys2Proof.Machine.execStartupPllTimeout s
  | .startupQuadrantRelease q => Sys2Proof.Machine.execStartupQuadrantRelease q s
  | .startupOutputRelease => Sys2Proof.Machine.execStartupOutputRelease s
  | .startupDone => Sys2Proof.Machine.execStartupDone s
  | .healthCheckPass inputs => Sys2Proof.Machine.execHealthCheckPass inputs s
  | .healthTimeout => Sys2Proof.Machine.execHealthTimeout s
  | .reconfigure => Sys2Proof.Machine.execReconfigure s
  | .storeWrite area slot overwrite single img res => Sys2Proof.Machine.execStoreWrite area slot overwrite single img res s
  | .storeSelect size => Sys2Proof.Machine.execStoreSelect size s
  | .regionFence r => Sys2Proof.Machine.execRegionFence r s
  | .regionUnfence r => Sys2Proof.Machine.execRegionUnfence r s
  | .regionResetAssert r => Sys2Proof.Machine.execRegionResetAssert r s
  | .regionResetRelease r => Sys2Proof.Machine.execRegionResetRelease r s
  | .regionPowerOffRetain r => Sys2Proof.Machine.execRegionPowerOffRetain r s
  | .regionPowerOffLose r => Sys2Proof.Machine.execRegionPowerOffLose r s
  | .regionPowerOn r => Sys2Proof.Machine.execRegionPowerOn r s
  | .regionDrainComplete r us => Sys2Proof.Machine.execRegionDrainComplete r us s
  | .regionDrainTimeout r => Sys2Proof.Machine.execRegionDrainTimeout r s
  | .regionClocksStopped r => Sys2Proof.Machine.execRegionClocksStopped r s
  | .regionAttachmentsOff r => Sys2Proof.Machine.execRegionAttachmentsOff r s
  | .vccFabSwitchOpen r => Sys2Proof.Machine.execVccFabSwitchOpen r s
  | .configurationUnpowered r => Sys2Proof.Machine.execConfigurationUnpowered r s
  | .vccFabSwitchClose r => Sys2Proof.Machine.execVccFabSwitchClose r s
  | .vccFabGood r => Sys2Proof.Machine.execVccFabGood r s
  | .fltSectorPower r sec mv => Sys2Proof.Machine.execFltSectorPower r sec mv s
  | .regionPowerUpRelease r => Sys2Proof.Machine.execRegionPowerUpRelease r s
  | .scrubSlot q flips verifyFails => Sys2Proof.Machine.execScrubSlot q s flips verifyFails
  | .storeRepair sec leaf frame verifyFails => Sys2Proof.Machine.execStoreRepair sec leaf frame verifyFails s
  | .ledgerRecompute sec leaf frame verifyFails => Sys2Proof.Machine.execLedgerRecompute sec leaf frame s verifyFails
  | .scrubCntClr inc => Sys2Proof.Machine.execScrubCntClr inc s
  | .parcelArrival r => Sys2Proof.Machine.execParcelArrival r s
  | .parcelInject r => Sys2Proof.Machine.execParcelInject r s
  | .crossingRecentre r dir repeated => Sys2Proof.Machine.execCrossingRecentre r dir repeated s
  | .tokenGain r port => Sys2Proof.Machine.execTokenGain r port s
  | .nocRtrCntClr r inc => Sys2Proof.Machine.execNocRtrCntClr r inc s
  | .nocAttCntClr att inc => Sys2Proof.Machine.execNocAttCntClr att inc s
  | .nocEdgeRegWrite e v => Sys2Proof.Machine.execNocEdgeRegWrite e v s
  | .userRequest att req => Sys2Proof.Machine.execUserRequest att req s
  | .subReadIssue att => Sys2Proof.Machine.execSubReadIssue att s
  | .targetRequest target port src srcPort tag => Sys2Proof.Machine.execTargetRequest target port src srcPort tag s
  | .reassemblyTimeout target port src srcPort tag => Sys2Proof.Machine.execReassemblyTimeout target port src srcPort tag s
  | .transactionTimeout req port tag => Sys2Proof.Machine.execTransactionTimeout req port tag s
  | .tagQuarantineEnd req port tag => Sys2Proof.Machine.execTagQuarantineEnd req port tag s
  | .responseDelivery r port => Sys2Proof.Machine.execResponseDelivery r port s
  | .nocFaultCntClr r inc => Sys2Proof.Machine.execNocFaultCntClr r inc s
  | .nocAttDropClr r port inc => Sys2Proof.Machine.execNocAttDropClr r port inc s
  | .tablePortRead q ra => Sys2Proof.Machine.execTablePortRead q ra s
  | .tablePortWrite q wa we w0 w1 p0 p1 => Sys2Proof.Machine.execTablePortWrite q wa we w0 w1 p0 p1 s
  | .tablePortReadData q => Sys2Proof.Machine.execTablePortReadData q s
  | .sramCommandParityFail n fromTp addr => Sys2Proof.Machine.execSramCommandParityFail n fromTp addr s
  | .ddrTrainingComplete n spd => Sys2Proof.Machine.execDdrTrainingComplete n spd s
  | .fltDdrTrain n sub rank stage => Sys2Proof.Machine.execFltDdrTrain n sub rank stage s
  | .dqsOscillatorCheck n counts => Sys2Proof.Machine.execDqsOscillatorCheck n s counts
  | .ddrRefresh n bank rfm => Sys2Proof.Machine.execDdrRefresh n bank rfm s
  | .ddrPowerDownEntry n rank => Sys2Proof.Machine.execDdrPowerDownEntry n rank s
  | .ddrSelfRefreshEntry n rank => Sys2Proof.Machine.execDdrSelfRefreshEntry n rank s
  | .ddrCaParityAlert n cmd => Sys2Proof.Machine.execDdrCaParityAlert n cmd s
  | .ddrWriteCrcAlert n cmd => Sys2Proof.Machine.execDdrWriteCrcAlert n cmd s
  | .channelReset n => Sys2Proof.Machine.execChannelReset n s
  | .ddrMapApply => Sys2Proof.Machine.execDdrMapApply s
  | .ddrRetrainingComplete n => Sys2Proof.Machine.execDdrRetrainingComplete n s
  | .keyLoadLoad mask slot wrapped => Sys2Proof.Machine.execKeyLoadLoad mask slot wrapped s
  | .keyLoadClear mask slot => Sys2Proof.Machine.execKeyLoadClear mask slot s
  | .keyRangeDefine m r slot base size metaBase => Sys2Proof.Machine.execKeyRangeDefine m r slot base size metaBase s
  | .keyRangeDisable m r => Sys2Proof.Machine.execKeyRangeDisable m r s
  | .keyRangeReinit m r engine level node => Sys2Proof.Machine.execKeyRangeReinit m r engine level node s
  | .rangeInitialisationComplete m r => Sys2Proof.Machine.execRangeInitialisationComplete m r s
  | .encCfgWrite v => Sys2Proof.Machine.execEncCfgWrite v s
  | .encCfgLock => Sys2Proof.Machine.execEncCfgLock s
  | .rightsWrite n w v => Sys2Proof.Machine.execRightsWrite n w v s
  | .hitsClr n => Sys2Proof.Machine.execHitsClr n s
  | .encStatusClr e inc => Sys2Proof.Machine.execEncStatusClr e inc s
  | .cabinetPowerOnReset test => Sys2Proof.Machine.execCabinetPowerOnReset test s
  | .cabRstN => Sys2Proof.Machine.execCabRstN s
  | .cabinetAuditRead items verifyFails logOk => Sys2Proof.Machine.execCabinetAuditRead items verifyFails logOk s
  | .cabinetNoImageRetry items verifyFails => Sys2Proof.Machine.execCabinetNoImageRetry items verifyFails s
  | .cabinetClockRequest src => Sys2Proof.Machine.execCabinetClockRequest src s
  | .sealedLoad src srcPort tag => Sys2Proof.Machine.execSealedLoad src srcPort tag s
  | .gatewayRollback src srcPort tag => Sys2Proof.Machine.execGatewayRollback src srcPort tag s
  | .token src srcPort tag => Sys2Proof.Machine.execToken src srcPort tag s
  | .exportAck src srcPort tag => Sys2Proof.Machine.execExportAck src srcPort tag s
  | .cabinetLoadChecked items verifyFails => Sys2Proof.Machine.execCabinetLoadChecked items verifyFails s
  | .auditRecordCounted verifies burn => Sys2Proof.Machine.execAuditRecordCounted verifies burn s
  | .cabinetCommitStrobe => Sys2Proof.Machine.execCabinetCommitStrobe s
  | .cabinetQuietWindowEnd => Sys2Proof.Machine.execCabinetQuietWindowEnd s
  | .ringBWrite verifies => Sys2Proof.Machine.execRingBWrite verifies s
  | .gatewayRead src srcPort tag => Sys2Proof.Machine.execGatewayRead src srcPort tag s
  | .stagingBufferWrite src srcPort tag => Sys2Proof.Machine.execStagingBufferWrite src srcPort tag s
  | .setpointWrite src srcPort tag => Sys2Proof.Machine.execSetpointWrite src srcPort tag s
  | .nonLegalParameterWrite src srcPort tag => Sys2Proof.Machine.execNonLegalParameterWrite src srcPort tag s
  | .timeAlign src srcPort tag => Sys2Proof.Machine.execTimeAlign src srcPort tag s
  | .ringEngineBlock words => Sys2Proof.Machine.execRingEngineBlock words s
  | .resultWrite k value poison => Sys2Proof.Machine.execResultWrite k value poison s
  | .sampleSlot inputs logOk => Sys2Proof.Machine.execSampleSlot inputs logOk s
  | .sampleDelivery t => Sys2Proof.Machine.execSampleDelivery t s
  | .sourceCodeLoad t code => Sys2Proof.Machine.execSourceCodeLoad t code s
  | .dacUpdate => Sys2Proof.Machine.execDacUpdate s
  | .calReq t => Sys2Proof.Machine.execCalReq t s
  | .calibrationComplete t fails logOk => Sys2Proof.Machine.execCalibrationComplete t fails logOk s
  | .crefRangeTimeout logOk => Sys2Proof.Machine.execCrefRangeTimeout logOk s
  | .srcFaultTimeout t logOk => Sys2Proof.Machine.execSrcFaultTimeout t logOk s
  | .samplePortPush word poison freed => Sys2Proof.Machine.execSamplePortPush word poison freed s
  | .spTake seen => Sys2Proof.Machine.execSpTake seen s
  | .sourcePortOffer data poison tiles freed => Sys2Proof.Machine.execSourcePortOffer data poison tiles freed s
  | .sourcePortAdmit seen => Sys2Proof.Machine.execSourcePortAdmit seen s
  | .laneCfgWrite n v => Sys2Proof.Machine.execLaneCfgWrite n v s
  | .laneRestart n => Sys2Proof.Machine.execLaneRestart n s
  | .laneQuadCfgWrite j v => Sys2Proof.Machine.execLaneQuadCfgWrite j v s
  | .detectPulse n found => Sys2Proof.Machine.execDetectPulse n found s
  | .phaseLock n => Sys2Proof.Machine.execPhaseLock n s
  | .blockLock n => Sys2Proof.Machine.execBlockLock n s
  | .exchangeComplete n => Sys2Proof.Machine.execExchangeComplete n s
  | .laneStageTimeout n => Sys2Proof.Machine.execLaneStageTimeout n s
  | .laneLoss n cause => Sys2Proof.Machine.execLaneLoss n cause s
  | .laneSelfTest fails => Sys2Proof.Machine.execLaneSelfTest fails s
  | .fltLanePll j => Sys2Proof.Machine.execFltLanePll j s
  | .laneErrClr n inc => Sys2Proof.Machine.execLaneErrClr n inc s
  | .rawTransmitWord n offers seen freed => Sys2Proof.Machine.execRawTransmitWord n offers seen freed s
  | .rawReceiveWord n word err errs taken seen freed => Sys2Proof.Machine.execRawReceiveWord n word err errs taken seen freed s
  | .pciePerstNRise q => Sys2Proof.Machine.execPciePerstNRise q s
  | .pciePerstNLow q => Sys2Proof.Machine.execPciePerstNLow q s
  | .pcieRetrain => Sys2Proof.Machine.execPcieRetrain s
  | .pcieLinkUp q link width => Sys2Proof.Machine.execPcieLinkUp q link width s
  | .outboundRequest q src srcPort tag lim => Sys2Proof.Machine.execOutboundRequest q src srcPort tag lim s
  | .hostCompletion q id ecrcOk st => Sys2Proof.Machine.execHostCompletion q id ecrcOk st s
  | .pcieCompletionTimeout q id => Sys2Proof.Machine.execPcieCompletionTimeout q id s
  | .dmaEnable q e v => Sys2Proof.Machine.execDmaEnable q e v s
  | .dmaStop q e => Sys2Proof.Machine.execDmaStop q e s
  | .ringTailWrite q e tail => Sys2Proof.Machine.execRingTailWrite q e tail s
  | .dmaDescriptor q e desc src lim => Sys2Proof.Machine.execDmaDescriptor q e desc src lim s
  | .dmaDescriptorComplete q e => Sys2Proof.Machine.execDmaDescriptorComplete q e s
  | .linkCfgWrite b v => Sys2Proof.Machine.execLinkCfgWrite b v s
  | .bundleForward b => Sys2Proof.Machine.execBundleForward b s
  | .parcelFrame b blocks lost => Sys2Proof.Machine.execParcelFrame b blocks lost s
  | .creditBlock b block => Sys2Proof.Machine.execCreditBlock b block s
  | .creditSend b => Sys2Proof.Machine.execCreditSend b s
  | .alignBlock b found inPlace => Sys2Proof.Machine.execAlignBlock b found inPlace s
  | .capBlock n words => Sys2Proof.Machine.execCapBlock n words s
  | .linkErrClr b inc => Sys2Proof.Machine.execLinkErrClr b inc s
  | .linkKeyLoad b wrapped => Sys2Proof.Machine.execLinkKeyLoad b wrapped s
  | .timeCode d1 d2 blocks => Sys2Proof.Machine.execTimeCode d1 d2 blocks s
  | .timeCodeTimeout => Sys2Proof.Machine.execTimeCodeTimeout s
  | .bankSupplyLoss b above mv => Sys2Proof.Machine.execBankSupplyLoss b above mv s
  | .bankSupplyReturn b mv => Sys2Proof.Machine.execBankSupplyReturn b mv s
  | .delayCalibration b tapFs ok => Sys2Proof.Machine.execDelayCalibration b tapFs ok s
  | .tbTimeSetApply => Sys2Proof.Machine.execTbTimeSetApply s
  | .captureEdge src falling stamp => Sys2Proof.Machine.execCaptureEdge src falling stamp s
  | .capturePop => Sys2Proof.Machine.execCapturePop s
  | .captureClr => Sys2Proof.Machine.execCaptureClr s
  | .timedTriggerArm n => Sys2Proof.Machine.execTimedTriggerArm n s
  | .timedTriggerDisarm n => Sys2Proof.Machine.execTimedTriggerDisarm n s
  | .timedTriggerFire n => Sys2Proof.Machine.execTimedTriggerFire n s
  | .triggerPulseEnd n => Sys2Proof.Machine.execTriggerPulseEnd n s
  | .faultRaise id detail scope => Sys2Proof.Machine.execFaultRaise id detail scope s
  | .escalationTimerExpiry g => Sys2Proof.Machine.execEscalationTimerExpiry g s
  | .e3ToE4Expiry g => Sys2Proof.Machine.execE3ToE4Expiry g s
  | .faultGroupAck g => Sys2Proof.Machine.execFaultGroupAck g s
  | .faultAck mask => Sys2Proof.Machine.execFaultAck mask s
  | .faultRecordFree g same => Sys2Proof.Machine.execFaultRecordFree g s same
  | .faultLock => Sys2Proof.Machine.execFaultLock s
  | .temperatureSample readings => Sys2Proof.Machine.execTemperatureSample readings s
  | .fltInjectWrite v => Sys2Proof.Machine.execFltInjectWrite v s
  | .ddrRetry n => Sys2Proof.Machine.execDdrRetry n s
  | .mailboxGo path => Sys2Proof.Machine.execMailboxGo path s
  | .mailboxResponse => Sys2Proof.Machine.execMailboxResponse s
  | .mbxClaim path => Sys2Proof.Machine.execMbxClaim path s
  | .mbxRelease path => Sys2Proof.Machine.execMbxRelease path s
  | .mspiTransfer bytes => Sys2Proof.Machine.execMspiTransfer bytes s
  | .faultLogRead count first => Sys2Proof.Machine.execFaultLogRead count first s
  | .unitMapRead => Sys2Proof.Machine.execUnitMapRead s
  | .cabSealedLoad newest slot copy => Sys2Proof.Machine.execCabSealedLoad newest slot copy s
  | .cabRollback => Sys2Proof.Machine.execCabRollback s
  | .cabExportLog count first => Sys2Proof.Machine.execCabExportLog count first s
  | .cabAckExport token => Sys2Proof.Machine.execCabAckExport token s
  | .keystoreDevkey key => Sys2Proof.Machine.execKeystoreDevkey key s
  | .keystoreImageKey e wrapped => Sys2Proof.Machine.execKeystoreImageKey e wrapped s
  | .keystoreSignAdd k hash => Sys2Proof.Machine.execKeystoreSignAdd k hash s
  | .keystoreSignRevoke k => Sys2Proof.Machine.execKeystoreSignRevoke k s
  | .keystoreSignFuse => Sys2Proof.Machine.execKeystoreSignFuse s
  | .msiXUnmask v => Sys2Proof.Machine.execMsiXUnmask v s
  | .jtagInstruction code => Sys2Proof.Machine.execJtagInstruction code s
  | .dbgAccessUpdate v => Sys2Proof.Machine.execDbgAccessUpdate v s
  | .mainPowerOnReset fails => Sys2Proof.Machine.execMainPowerOnReset fails s
  | .managementPorRelease straps => Sys2Proof.Machine.execManagementPorRelease straps s
  | .railsInRange banks => Sys2Proof.Machine.execRailsInRange banks s
  | .railWaitTimeout missing banks => Sys2Proof.Machine.execRailWaitTimeout missing banks s
  | .railDrop => Sys2Proof.Machine.execRailDrop s
  | .fltRailLimit rail => Sys2Proof.Machine.execFltRailLimit rail s
  | .groupAFall => Sys2Proof.Machine.execGroupAFall s
  | .warmReset => Sys2Proof.Machine.execWarmReset s
  | .warmResetQuiesced => Sys2Proof.Machine.execWarmResetQuiesced s
  | .warmResetEnd fails => Sys2Proof.Machine.execWarmResetEnd fails s
  | .flipFlopClockEdge target => Sys2Proof.Machine.execFlipFlopClockEdge target s
  | .levelSynchroniserSample sec h inp late via => Sys2Proof.Machine.execLevelSynchroniserSample sec h inp late s via
  | .counterAcknowledge sec h late => Sys2Proof.Machine.execCounterAcknowledge sec h late s
  | .inboundParcelPresent att => Sys2Proof.Machine.execInboundParcelPresent att s
  | .targetPortResponse att resp => Sys2Proof.Machine.execTargetPortResponse att resp s
  | .ddrSchedulerCycle n ready0 ready1 => Sys2Proof.Machine.execDdrSchedulerCycle n ready0 ready1 s
  | .sramPortCycle n => Sys2Proof.Machine.execSramPortCycle n s
  | .reinitComplete => Sys2Proof.Machine.execReinitComplete s
  | .cabinetQuietWindowBegin => Sys2Proof.Machine.execCabinetQuietWindowBegin s
  | .cabinetSupplyLoss => Sys2Proof.Machine.execCabinetSupplyLoss s
  | .cabRstNRelease test => Sys2Proof.Machine.execCabRstNRelease test s
  | .pcieLinkDown q link => Sys2Proof.Machine.execPcieLinkDown q link s
  | .pcieRateChange q link gen => Sys2Proof.Machine.execPcieRateChange q link gen s
  | .timebaseEdge => Sys2Proof.Machine.execTimebaseEdge s
  | .startupClocksStart => Sys2Proof.Machine.execStartupClocksStart s
  | .regionPowerUpClocksStart r => Sys2Proof.Machine.execRegionPowerUpClocksStart r s
  | .sourceCurrentLimit t on => Sys2Proof.Machine.execSourceCurrentLimit t on s

end Sys2Proof.Machine
end

