-- ==== Sys2Proof/Safety.lean ====
section
/-! DEFINITION. What a safe run of the block keeps: no escalation level is left to carry out between commands, and what was burned into
one-time memory stays. -/

namespace Sys2Proof.Machine

/-- Between commands no escalation level waits to be carried out (R492), and a reload waits only while a commit runs (R179, R216). -/
def Dev.settled (d : Dev) : Prop := d.due = [] ∧ (d.cfg.boot.reload = true → d.cfg.commit.isSome = true)

def State.settled (s : State) : Prop := s.dev.settled

/-- The main side runs and the block is settled: what a row of the main side needs to act (R523). -/
def State.ready (s : State) : Prop := mainUp s.dev = true ∧ s.settled

/-- The same, with the register file in canonical form (ascending addresses, no register listed at its
reset value), so that a register reads as what was last written to it. -/
def State.steady (s : State) : Prop := s.ready ∧ tWf regReset s.dev.regs = true

/-- No armed trigger unit waits to fire: the time has not reached any of theirs (R484). -/
def State.noneDue (s : State) : Prop := ∀ n : Fin 9, trigArmed s.dev n.val = true → time80 s.dev < trigTime s.dev n.val

/-- No fault applies an escalation level: FLT_TEMP_CRIT apart, whose reaction is fixed, every source's reaction is below 3 (R489). -/
def State.calm (s : State) : Prop := ∀ id, isSource id = true → id ≠ fltTempCrit → reactionOf s.dev id ≠ 3

/-- The positions of the scrubber's copies are in canonical form. -/
def Scrub.wf (c : Scrub) : Bool :=
  [c.pos, c.inPos, c.ratio, c.second.pos, c.second.inPos, c.second.ratio, c.third.pos, c.third.inPos, c.third.ratio].all (tWf zeroDflt)

/-- Memory engine `e`, a DDR5 channel or an SRAM die, has performed all that it accepted (R336). -/
def Dev.performed (d : Dev) (e : Nat) : Prop :=
  if e < 8 then
    let c := getCh d e
    c.state ≠ .ready ∨ (c.txns = [] ∧ c.ahead = [] ∧ c.sub0.reads = [] ∧ c.sub0.writes = [] ∧ c.sub1.reads = [] ∧ c.sub1.writes = [])
  else (getDie d (e - 8)).accs = []

/-! ## What a command leaves alone -/

/-- The parts of the device (Machine/Parts/Device.lean). -/
inductive Part where
  | regs
  | sectors
  | eccLog
  | thr
  | clk
  | cfg
  | net
  | mem
  | enc
  | cab
  | links
  | io
  | tb
  | groups
  | flog
  | units
  | power
  | bureau
  | free
  | due
  | out
  deriving DecidableEq, Repr

/-- Device `b` is `a` but for the parts of a list; it has sent nothing out unless `out` is listed. -/
structure sameBut (ps : List Part) (a b : Dev) : Prop where
  regs : .regs ∈ ps ∨ b.regs = a.regs
  sectors : .sectors ∈ ps ∨ b.sectors = a.sectors
  eccLog : .eccLog ∈ ps ∨ b.eccLog = a.eccLog
  thr : .thr ∈ ps ∨ b.thr = a.thr
  clk : .clk ∈ ps ∨ b.clk = a.clk
  cfg : .cfg ∈ ps ∨ b.cfg = a.cfg
  net : .net ∈ ps ∨ b.net = a.net
  mem : .mem ∈ ps ∨ b.mem = a.mem
  enc : .enc ∈ ps ∨ b.enc = a.enc
  cab : .cab ∈ ps ∨ b.cab = a.cab
  links : .links ∈ ps ∨ b.links = a.links
  io : .io ∈ ps ∨ b.io = a.io
  tb : .tb ∈ ps ∨ b.tb = a.tb
  groups : .groups ∈ ps ∨ b.groups = a.groups
  flog : .flog ∈ ps ∨ b.flog = a.flog
  units : .units ∈ ps ∨ b.units = a.units
  power : .power ∈ ps ∨ b.power = a.power
  bureau : .bureau ∈ ps ∨ b.bureau = a.bureau
  free : .free ∈ ps ∨ b.free = a.free
  due : .due ∈ ps ∨ b.due = a.due
  out : .out ∈ ps ∨ b.out = []

/-- The command runs to a next state: the queue as it was, the device changed in no part but those of the list, with `P` of
the new device. -/
def State.performs (s : State) (c : Instr) (ps : List Part) (P : Dev → Prop) : Prop :=
  ∃ d, exec c s = .next { s with dev := d } ∧ sameBut ps s.dev d ∧ P d

/-- The command runs to a next state: the queue as it was, the device what `f` makes of it, the last command's output
forgotten (assumption 5). -/
def State.becomes (s : State) (c : Instr) (f : Dev → Dev) : Prop := exec c s = .next { s with dev := f { s.dev with out := [] } }

/-- The mailbox runs a command of opcode `op` that has not ended, whose argument words hold these values under these masks
(R512, R515). -/
def State.mailbox (s : State) (op : Nat) (words : List (Nat × Nat)) : Prop :=
  s.dev.bureau.mbx.run.isSome = true ∧ mbxIs op words s.dev = true

/-- The mailbox command of `s` has ended in `d`, in a family of R513 with a result value and the data words of its response. -/
def Dev.ended (s : State) (d : Dev) (family value : Nat) (data : List Word := []) : Prop :=
  d.bureau.mbx = { run := s.dev.bureau.mbx.run, result := some { family, value, data } }

/-! ## Memory -/

/-- The words of the SRAM dies and DDR5 channels are in canonical form: dies and channels ascending, none at its unlisted value, and
the words of each ascending with none listed as absent. -/
def Memory.wf (d : Dev) : Bool :=
  tWf dieDflt d.mem.sram && tWf chDflt d.mem.ddr && d.mem.sram.all (fun e => tWf (fun _ => none) e.2.arr) &&
    d.mem.ddr.all fun e => tWf (fun _ => none) e.2.arr

/-! ## One-time memory -/

/-- A programmed entry keeps its hash, and a revoked one stays revoked (R516). -/
def entryKept (a b : SignEntry) : Prop :=
  a.programmed = true → b.programmed = true ∧ b.hash = a.hash ∧ (a.revoked = true → b.revoked = true)

/-- One-time memory of the key store goes forward only: the device key, the entries for signing keys, sign_fuse (R516). -/
structure KeysKept (a b : Dev) : Prop where
  devKey : ∀ k, a.bureau.keys.devKey = some k → b.bureau.keys.devKey = some k
  sign : ∀ n, entryKept (getSign a n) (getSign b n)
  fuse : a.bureau.keys.signFuse = true → b.bureau.keys.signFuse = true

end Sys2Proof.Machine
end

