-- ==== Sys2Proof/WellFormed.lean ====
section
/-! DEFINITION. Well-formed commands: the shapes that the operands' types leave open. -/

namespace Sys2Proof

/-- A list of one length. -/
def lengthIs (n : Nat) (l : List α) : Bool := l.length = n

/-- A frame number that exists: 1,536 frames in a leaf of a sector, 512 in one of the Cabinet (R163, R367). -/
def frameOk (sec : Sec) (frame : Fin 1536) : Bool := sec ≠ 64 || frame.val < 512

/-- Words of an image without a key: at most the main slot's size (R201). -/
def imageOk (img : ImageWords) : Bool := 8 * img.length ≤ 0x14000000

/-- What a load's source names exists. -/
def sourceOk : LoadFrom → Bool
  | .store area slot _ _ => area ≠ 0 || slot.val < 8
  | .host (some img) => imageOk img
  | .host none => true
  | .port => true

/-- The shape of a request (R261, R285): write data of len + 1 parcels of 4 words, the operands of an atomic. -/
def requestOk (r : Request) : Bool :=
  match r.op with
  | .rd => r.data.isEmpty && r.operands.isEmpty
  | .wr | .wrp => lengthIs (r.len.toNat + 1) r.data && r.data.all (lengthIs 4) && r.operands.isEmpty
  | .fadd | .swap => r.data.isEmpty && lengthIs 1 r.operands
  | .cas => r.data.isEmpty && lengthIs 2 r.operands

/-- The bytes of a host access stay within its BAR's offset, and there are some. -/
def accOk : HostAcc → Bool
  | .rd _ en => !en.isEmpty
  | .wr _ bytes _ => !bytes.isEmpty

/-- A well-formed command. -/
def Instr.wf : Instr → Bool
  | .registerWrite _ _ bytes _ _ => !bytes.isEmpty
  | .bar0Access _ _ acc => accOk acc
  | .bar2Access _ _ _ _ acc => accOk acc
  | .bar4Access _ _ acc => accOk acc
  | .configurationUpset sec _ frame flips _ => frameOk sec frame && flips.all (· < 24576)
  | .ledgerRecompute sec _ frame _ => frameOk sec frame
  | .storeRepair sec _ frame _ => frameOk sec frame
  | .loadImage src => sourceOk src
  | .loadPartial src => sourceOk src
  | .storeWrite area slot _ _ img _ =>
    imageOk img && decide (slot.val < (if area = 0 then 8 else if area = 1 then 32 else if area = 2 then 2 else 1))
  | .userRequest _ req => requestOk req
  | .targetPortResponse _ resp => resp.data.all (lengthIs 4)
  | .keyLoadLoad _ _ wrapped => lengthIs 10 wrapped
  | .linkKeyLoad _ wrapped => lengthIs 10 wrapped
  | .keystoreDevkey key => lengthIs 4 key
  | .keystoreImageKey _ wrapped => lengthIs 10 wrapped
  | .keystoreSignAdd _ hash => lengthIs 6 hash
  | .cabAckExport words => lengthIs 33 words
  | .ringEngineBlock words => lengthIs 256 words
  | .railsInRange banks => lengthIs 10 banks
  | .railWaitTimeout missing banks => !missing.isEmpty && lengthIs 10 banks
  | _ => true

end Sys2Proof
end

