-- ==== Sys2Proof/Certificates/Slice0/Obligations.lean ====
section
/-! DEFINITION. The statements for the provers. -/

open Sys2Proof Sys2Proof.Machine

/-- One step performs the command at the front of the queue on the state with the queue's rest. With no command waiting a step
changes nothing (the model's choice, assumption 9). -/
def Obligations.StepPerformsFront : Prop :=
  (∀ (c : Instr) (rest : List Instr) (d : Dev), step { pending := c :: rest, dev := d } = exec c { pending := rest, dev := d }) ∧
  (∀ d : Dev, step { pending := [], dev := d } = .next { pending := [], dev := d })

/-- Judging of the clock sources (R123 to R126, R138): a window that does not make the source FAILED leaves the judge that R123 and
R124 give; an eighth good window in a row of one class makes the XO STABLE at that class's frequency; rejudge starts the judging of
TRIPPED and FAILED sources again; the lock of the management PLLs requests the move of the management clock. PLLs (R129, R130): a
started PLL whose reference runs locks; a loss of lock that is not masked to reaction 3 leaves it unlocked, its outputs stopped. -/
def Obligations.ClockSourcesAndPlls : Prop :=
  (∀ (s : State) (count : BitVec 24), s.ready → s.dev.clk.xo.state = .judging →
    (judgeWindow (fldR s.dev rRefCfg 23 0) (tolSteps s.dev) count.toNat s.dev.clk.xo).state ≠ .failed →
    s.performs (.judgingWindow .xo count) [.clk, .regs] fun d =>
      d.clk.xo = judgeWindow (fldR s.dev rRefCfg 23 0) (tolSteps s.dev) count.toNat s.dev.clk.xo ∧ d.clk.chref = s.dev.clk.chref) ∧
  (∀ (s : State) (count : BitVec 24) (k : Nat), s.ready → s.dev.clk.xo.state = .judging →
    matchClass (fldR s.dev rRefCfg 23 0) (tolSteps s.dev) count.toNat = some k → s.dev.clk.xo.good = 7 → s.dev.clk.xo.last = k →
    s.performs (.judgingWindow .xo count) [.clk, .regs] fun d =>
      d.clk.xo.state = .stable ∧ d.clk.xo.good = 8 ∧ d.clk.xoKhz = classKhz (fldR s.dev rRefCfg 23 0) k) ∧
  (∀ s : State, s.ready → s.performs .rejudge [.clk] fun d =>
    d.clk.xo = judgeAgain s.dev.clk.xo ∧ d.clk.chref = judgeAgain s.dev.clk.chref ∧
      (s.dev.clk.xo.state = .tripped ∨ s.dev.clk.xo.state = .failed → d.clk.xo = { state := .judging }) ∧
      (s.dev.clk.xo.state = .stable → d.clk.xo = s.dev.clk.xo)) ∧
  (∀ s : State, s.ready → s.dev.clk.pll1Src = 0 → s.dev.clk.xo.state = .stable → s.dev.clk.reduced = false →
    s.dev.clk.mgmt = { cur := 0 } → s.performs .managementPllLocked [.clk] fun d =>
      d.clk.mgmt.cur = 0 ∧ d.clk.mgmt.target = some 1 ∧ d.clk.mgmt.connected = false) ∧
  (∀ (s : State) (p : Fin 63), s.ready → 2 < p.val → p.val < 31 → pllState s.dev p.val = .locking → pllHasRef s.dev p.val = true →
    s.performs (.pllLock p) [.clk] fun d => d.clk = { s.dev.clk with plls := tSet (fun _ => .off) s.dev.clk.plls p.val .locked }) ∧
  (∀ (s : State) (p : Fin 63), s.ready → p.val ≠ 1 → pllRuns s.dev p.val = true → reactionOf s.dev fltPllUnlock ≠ 3 →
    s.performs (.pllLossOfLock p) [.clk, .groups, .flog, .regs, .out] fun d =>
      d.clk = { s.dev.clk with plls := tSet (fun _ => .off) s.dev.clk.plls p.val .unlocked })

/-- Clock switches (R131 to R133): events 1, 1a and 3 of a switch of the management clock; a second request waits for event 3; the
run-time input of a global line; the gates of global and regional lines. It rests also on the model's choices of assumptions 6 and
53. -/
def Obligations.ClockSwitches : Prop :=
  (∀ (s : State) (t : Nat), s.ready → s.dev.clk.mgmt.target = some t →
    s.performs (.clockSwitchRequest .mgmt) [.clk] fun d =>
      d.clk.mgmt = { s.dev.clk.mgmt with connected := true } ∧ d.clk.tb = s.dev.clk.tb ∧ d.clk.glines = s.dev.clk.glines) ∧
  (∀ (s : State) (t : Nat), s.ready → s.dev.clk.mgmt.target = some t → s.dev.clk.mgmt.connected = false →
    s.performs (.switchForceTimeout .mgmt) [.clk] fun d =>
      d.clk.mgmt = { s.dev.clk.mgmt with connected := true, forced := true }) ∧
  (∀ (s : State) (t gap blocks : Nat), s.ready → s.dev.clk.mgmt.target = some t → s.dev.clk.mgmt.connected = true →
    s.dev.clk.mgmt.queued = none →
    s.performs (.clockSwitchComplete .mgmt gap blocks) [.clk] fun d => d.clk.mgmt = { cur := t } ∧ d.clk.plls = s.dev.clk.plls) ∧
  (∀ (s : State) (t q gap blocks : Nat), s.ready → s.dev.clk.mgmt.target = some t → s.dev.clk.mgmt.connected = true →
    s.dev.clk.mgmt.queued = some q → q ≠ t →
    s.performs (.clockSwitchComplete .mgmt gap blocks) [.clk] fun d => d.clk.mgmt = { cur := t, target := some q }) ∧
  (∀ (s : State) (q : Fin 4) (n : Fin 32) (side : Bool), s.ready →
    s.performs (.globalLineSourceChange q n side) [.clk] fun d =>
      d.clk.glines = tUpd glineDflt s.dev.clk.glines (32 * q.val + n.val) (fun l => { l with sw := requestSwitch side.toNat l.sw }) ∧
      d.clk.gates = s.dev.clk.gates ∧ d.clk.plls = s.dev.clk.plls) ∧
  (∀ (s : State) (q : Fin 4) (v : BitVec 32), s.ready → tWf (fun _ => 0) s.dev.clk.gates = true →
    s.performs (.gclkGateWrite q v) [.clk] fun d =>
      ∀ p : Fin 4, gclkGate d p.val = if p = q then v.toNat else gclkGate s.dev p.val) ∧
  (∀ (s : State) (sec : Sec) (line : Fin 8) (en : Bool), s.ready → tWf sectorDflt s.dev.sectors = true →
    s.performs (.regionalGateEnableChange sec line en) [.sectors] fun d =>
      (getSec d sec.val).lineEn = tSet (fun _ => false) (getSec s.dev sec.val).lineEn line.val en ∧
      ∀ i, i ≠ sec.val → getSec d i = getSec s.dev i)

/-- The timebase references (R135, R136): a go request for a good source requests the switch; for one that is not good, or a stream
that reduced service keeps out of reach (R127), it sets go_refused and moves nothing; the return after return_hold moves to a better
good source. Clock monitors (R140): an enabled monitor's missing-edge trip shows in its register; a frequency window records its
count. It rests also on the model's choice of assumption 45. -/
def Obligations.TimebaseReferencesAndMonitors : Prop :=
  (∀ s : State, s.ready → streamGood s.dev = true → s.dev.clk.reduced = false ∨ s.dev.clk.xo.state = .stable →
    s.performs .goStream [.clk] fun d => d.clk = { s.dev.clk with tb := requestSwitch 0 s.dev.clk.tb }) ∧
  (∀ s : State, s.ready → s.dev.clk.reduced = true → s.dev.clk.xo.state ≠ .stable → tWf regReset s.dev.regs = true →
    s.performs .goStream [.regs] fun d => bitR d rTbClkStatus 4 = true ∧ ∀ a, a ≠ rTbClkStatus → getR d a = getR s.dev a) ∧
  (∀ s : State, s.ready → s.dev.clk.xo.state = .stable → s.performs .goCrystal [.clk] fun d =>
    d.clk = { s.dev.clk with tb := requestSwitch 1 s.dev.clk.tb }) ∧
  (∀ s : State, s.ready → s.performs .goInternal [.clk] fun d =>
    d.clk = { s.dev.clk with tb := requestSwitch 2 s.dev.clk.tb }) ∧
  (∀ s : State, s.ready → s.dev.clk.xo.state ≠ .stable → tWf regReset s.dev.regs = true →
    s.performs .goCrystal [.regs] fun d => bitR d rTbClkStatus 4 = true ∧ ∀ a, a ≠ rTbClkStatus → getR d a = getR s.dev a) ∧
  (∀ s : State, s.ready → bitR s.dev rTbClkCtrl 8 = true → tbTarget s.dev ≤ 1 → s.dev.clk.xo.state = .stable →
    s.dev.clk.tb = { cur := 2 } → s.performs (.tbReturnHoldExpiry 1 false) [.clk] fun d =>
      d.clk = { s.dev.clk with tb := { cur := 2, target := some 1 } }) ∧
  (∀ (s : State) (n : Fin 13), s.ready → (n.val = 0 ∨ n.val = 9 ∨ n.val = 10) → bitR s.dev (rClkMon n.val) 63 = true →
    reactionOf s.dev fltClkMissing = 0 → tWf regReset s.dev.regs = true →
    s.performs (.clkMissingEdgeTrip n) [.regs] fun d =>
      bitR d (rClkMon n.val) 62 = true ∧ ∀ a, a ≠ rClkMon n.val → getR d a = getR s.dev a) ∧
  (∀ (s : State) (n : Fin 11) (count : BitVec 24), s.ready → bitR s.dev (rClkMon n.val) 63 = true →
    fldR s.dev (rClkMon n.val) 23 0 ≤ count.toNat → count.toNat ≤ fldR s.dev (rClkMon n.val) 47 24 →
    tWf regReset s.dev.regs = true →
    s.performs (.clkFrequencyWindow n count) [.regs] fun d =>
      fldR d (rClkMonLast n.val) 23 0 = count.toNat ∧ ∀ a, a ≠ rClkMonLast n.val → getR d a = getR s.dev a)

/-- Device time (R480, R481): an edge of the timebase clock adds the nominal period of the source in use, 5 ns of the internal
oscillator without a trim; TB_TIME_SET.apply sets the time, and in STREAM only set_refused. The timing stream at the receivers
(R469, R470, R481): a code that does not step the receiver leaves it as R469 says, and a valid one shows in TS_LAST; without a code
for 10 ms a LOCKED receiver holds, and the STREAM mode ends. It rests also on the model's choices of assumptions 86 to 88. -/
def Obligations.DeviceTimeAndStream : Prop :=
  (∀ s : State, s.ready → s.noneDue → s.dev.clk.tb.connected = false → s.dev.clk.tb.cur = 2 → fldR s.dev rTbCtrl 31 0 = 0 →
    s.becomes .timebaseEdge fun d => { d with tb := { d.tb with time := (d.tb.time + 92233720369) % 2 ^ 112 } }) ∧
  (∀ s : State, s.ready → s.dev.clk.tb.connected = true → s.becomes .timebaseEdge fun d => d) ∧
  (∀ (s : State) (lo hi : Nat), s.ready → s.noneDue → s.dev.tb.mode ≠ .stream → fldR s.dev (rTbSet 0) 63 0 = lo → fldR s.dev (rTbSet 1) 15 0 = hi →
    s.performs .tbTimeSetApply [.tb] fun d =>
      d.tb.mode = .running ∧ time80 d = lo + 2 ^ 64 * hi ∧ d.tb.queue = s.dev.tb.queue ∧ d.tb.level = s.dev.tb.level) ∧
  (∀ s : State, s.steady → s.dev.tb.mode = .stream → s.performs .tbTimeSetApply [.regs] fun d =>
    bitR d rTbCtrl 63 = true ∧ ∀ a, a ≠ rTbCtrl → getR d a = getR s.dev a) ∧
  (∀ (s : State) (d1 d2 : Word) (blocks : Nat), s.steady → streamActive s.dev = true → (timeCodeOf d1 d2).isCode = true →
    (rxCode s.dev.links.stream (timeCodeOf d1 d2) blocks).step = none →
    s.performs (.timeCode d1 d2 blocks) [.links, .regs, .tb, .cab] fun d =>
      d.links = { s.dev.links with stream := (rxCode s.dev.links.stream (timeCodeOf d1 d2) blocks).rx } ∧
      ((timeCodeOf d1 d2).ok = true → fldR d (rTsLast 1) 23 16 = (timeCodeOf d1 d2).seq)) ∧
  (∀ s : State, s.ready → s.dev.links.stream.state = .locked →
    s.performs .timeCodeTimeout [.links, .tb, .cab] fun d =>
      d.links = { s.dev.links with stream := { s.dev.links.stream with state := .hold } } ∧ d.tb.time = s.dev.tb.time ∧
      d.tb.mode = if s.dev.tb.mode = .stream then .running else s.dev.tb.mode)

/-- Capture (R483, R485): every sensed edge is the previous edge of the next one of its source; an enabled edge with no previous
edge less than 10 ns before enters a queue that is not full, behind the entries of other stamps, with its stamp, the time mode, its
direction and source; one that comes sooner counts as dropped; one that meets a full queue counts as dropped and sets the overflow
bit; one that is not enabled is not captured; CTRIG edges without the bank 8 supply do nothing; pop removes the head, clr empties
the queue and clears the count. Timed triggers (R484, R485): arm and disarm with no unit due, the lateness kept at arming; an armed
unit whose time has come acts on its pin, counts the fire, sets fired, and late where its time had passed; without a period it is
armed no longer, with one it waits for its next time; one that is not armed, or whose time has not come, does nothing; a pulse ends
at the other level. It rests also on the model's choices of assumptions 89 to 91 and 151. -/
def Obligations.CaptureAndTriggers : Prop :=
  (∀ (s : State) (src : Fin 9) (falling : Bool) (stamp : BitVec 80), s.ready →
    (src.val < 8 → tGet (fun _ => false) s.dev.io.bankHiZ 8 = false) → bitR s.dev rCapCfg (2 * src.val + falling.toNat) = true →
    (tGet (fun _ => none) s.dev.tb.lastEdge src.val).all (fun p => stamp.toNat < p || 10 * 2 ^ 32 ≤ (stamp.toNat - p) * 1000000000) = true →
    s.dev.tb.queue.length < 64 →
    s.becomes (.captureEdge src falling stamp) fun d => { d with tb := { d.tb with
      queue := enqueueCapture d.tb.queue { time := stamp.toNat, mode := d.tb.mode, falling, source := src.val }
      lastEdge := tSet (fun _ => none) d.tb.lastEdge src.val (some stamp.toNat) } }) ∧
  (∀ (q : List Capture) (c : Capture), (∀ x ∈ q, x.time ≠ c.time) → enqueueCapture q c = q ++ [c]) ∧
  (∀ (s : State) (src : Fin 9) (falling : Bool) (stamp : BitVec 80) (p : Nat), s.steady →
    (src.val < 8 → tGet (fun _ => false) s.dev.io.bankHiZ 8 = false) → bitR s.dev rCapCfg (2 * src.val + falling.toNat) = true →
    tGet (fun _ => none) s.dev.tb.lastEdge src.val = some p → p ≤ stamp.toNat → (stamp.toNat - p) * 1000000000 < 10 * 2 ^ 32 →
    s.performs (.captureEdge src falling stamp) [.tb, .regs] fun d =>
      d.tb = { s.dev.tb with lastEdge := tSet (fun _ => none) s.dev.tb.lastEdge src.val (some stamp.toNat) } ∧
      fldR d rCapStatus 15 0 = min (fldR s.dev rCapStatus 15 0 + 1) (2 ^ 16 - 1) ∧
      bitR d rCapStatus 63 = bitR s.dev rCapStatus 63 ∧ ∀ a, a ≠ rCapStatus → getR d a = getR s.dev a) ∧
  (∀ (s : State) (src : Fin 9) (falling : Bool) (stamp : BitVec 80), s.steady →
    (src.val < 8 → tGet (fun _ => false) s.dev.io.bankHiZ 8 = false) → bitR s.dev rCapCfg (2 * src.val + falling.toNat) = true →
    (tGet (fun _ => none) s.dev.tb.lastEdge src.val).all (fun p => stamp.toNat < p || 10 * 2 ^ 32 ≤ (stamp.toNat - p) * 1000000000) = true →
    64 ≤ s.dev.tb.queue.length →
    s.performs (.captureEdge src falling stamp) [.tb, .regs] fun d =>
      d.tb = { s.dev.tb with lastEdge := tSet (fun _ => none) s.dev.tb.lastEdge src.val (some stamp.toNat) } ∧
      fldR d rCapStatus 15 0 = min (fldR s.dev rCapStatus 15 0 + 1) (2 ^ 16 - 1) ∧ bitR d rCapStatus 63 = true ∧
      ∀ a, a ≠ rCapStatus → getR d a = getR s.dev a) ∧
  (∀ (s : State) (src : Fin 9) (falling : Bool) (stamp : BitVec 80), s.ready →
    (src.val < 8 → tGet (fun _ => false) s.dev.io.bankHiZ 8 = false) → bitR s.dev rCapCfg (2 * src.val + falling.toNat) = false →
    s.becomes (.captureEdge src falling stamp) fun d => { d with tb := { d.tb with
      lastEdge := tSet (fun _ => none) d.tb.lastEdge src.val (some stamp.toNat) } }) ∧
  (∀ (s : State) (src : Fin 9) (falling : Bool) (stamp : BitVec 80), s.ready → src.val < 8 →
    tGet (fun _ => false) s.dev.io.bankHiZ 8 = true → s.becomes (.captureEdge src falling stamp) fun d => d) ∧
  (∀ s : State, s.ready → s.becomes .capturePop fun d => { d with tb := { d.tb with queue := d.tb.queue.tail } }) ∧
  (∀ s : State, s.steady → s.performs .captureClr [.tb, .regs] fun d =>
    d.tb = { s.dev.tb with queue := [] } ∧ fldR d rCapStatus 15 0 = 0 ∧ bitR d rCapStatus 63 = bitR s.dev rCapStatus 63 ∧
    ∀ a, a ≠ rCapStatus → getR d a = getR s.dev a) ∧
  (∀ (s : State) (n : Fin 9), s.steady → s.noneDue → s.performs (.timedTriggerArm n) [.regs, .tb] fun d =>
    bitR d (rTrig n.val 1) 63 = true ∧
    d.tb = { s.dev.tb with lateDue := tSet (fun _ => 0) s.dev.tb.lateDue n.val (if trigTime s.dev n.val ≤ time80 s.dev then 1 else 0) } ∧
    ∀ a, a ≠ rTrig n.val 1 → getR d a = getR s.dev a) ∧
  (∀ (s : State) (n : Fin 9), s.steady → s.noneDue → s.performs (.timedTriggerDisarm n) [.regs, .tb] fun d =>
    bitR d (rTrig n.val 1) 63 = false ∧ d.tb = { s.dev.tb with lateDue := tSet (fun _ => 0) s.dev.tb.lateDue n.val 0 } ∧
    ∀ a, a ≠ rTrig n.val 1 → getR d a = getR s.dev a) ∧
  (∀ (s : State) (n : Fin 9), s.steady → trigArmed s.dev n.val = true → trigTime s.dev n.val ≤ time80 s.dev →
    s.performs (.timedTriggerFire n) [.regs, .tb] fun d =>
      (fldR s.dev (rTrig n.val 1) 60 59 = 1 →
        d.tb.level = tSet (fun _ => false) s.dev.tb.level n.val (bitR s.dev (rTrig n.val 1) 58) ∧ d.tb.pulse = s.dev.tb.pulse) ∧
      (fldR s.dev (rTrig n.val 1) 60 59 = 2 →
        d.tb.level = tSet (fun _ => false) s.dev.tb.level n.val !bitR s.dev (rTrig n.val 1) 58 ∧ d.tb.pulse = s.dev.tb.pulse) ∧
      (fldR s.dev (rTrig n.val 1) 60 59 = 0 ∨ fldR s.dev (rTrig n.val 1) 60 59 = 3 →
        d.tb.level = tSet (fun _ => false) s.dev.tb.level n.val (bitR s.dev (rTrig n.val 1) 58) ∧
        d.tb.pulse = tSet (fun _ => none) s.dev.tb.pulse n.val (some (bitR s.dev (rTrig n.val 1) 58))) ∧
      d.tb.time = s.dev.tb.time ∧ d.tb.queue = s.dev.tb.queue ∧ lateOf d n.val = 0 ∧
      bitR d (rTrig n.val 1) 61 = true ∧ bitR d (rTrig n.val 1) 62 = (bitR s.dev (rTrig n.val 1) 62 || lateOf s.dev n.val ≠ 0) ∧
      fldR d (rTrig n.val 2) 63 32 = min (fldR s.dev (rTrig n.val 2) 63 32 + 1) (2 ^ 32 - 1) ∧
      (fldR s.dev (rTrig n.val 2) 31 0 = 0 → trigArmed d n.val = false ∧ trigTime d n.val = trigTime s.dev n.val) ∧
      (fldR s.dev (rTrig n.val 2) 31 0 ≠ 0 → trigArmed d n.val = true ∧
        trigTime d n.val = (trigTime s.dev n.val + (if lateOf s.dev n.val = 2
          then ((time80 s.dev - trigTime s.dev n.val) / fldR s.dev (rTrig n.val 2) 31 0 + 1) * fldR s.dev (rTrig n.val 2) 31 0
          else fldR s.dev (rTrig n.val 2) 31 0)) % 2 ^ 80) ∧
      ∀ a, a ≠ rTrig n.val 0 → a ≠ rTrig n.val 1 → a ≠ rTrig n.val 2 → getR d a = getR s.dev a) ∧
  (∀ (s : State) (n : Fin 9), s.ready → (trigArmed s.dev n.val = false ∨ time80 s.dev < trigTime s.dev n.val) →
    s.becomes (.timedTriggerFire n) fun d => d) ∧
  (∀ (s : State) (n : Fin 9) (level : Bool), s.ready → tGet (fun _ => none) s.dev.tb.pulse n.val = some level →
    s.becomes (.triggerPulseEnd n) fun d => { d with tb := { d.tb with
      level := tSet (fun _ => false) d.tb.level n.val (!level), pulse := tSet (fun _ => none) d.tb.pulse n.val none } }) ∧
  (∀ (s : State) (n : Fin 9), s.ready → tGet (fun _ => none) s.dev.tb.pulse n.val = none → s.becomes (.triggerPulseEnd n) fun d => d)

/-- Supplies and delay taps of the I/O banks (R475, R477, R485): a bank that loses its supply shows the voltage and goes to high
impedance; one whose supply returns leaves it; a calibration shows its tap and whether it is valid. It rests also on the model's
choices of assumptions 103, 124 and 152. -/
def Obligations.IoBanks : Prop :=
  (∀ (s : State) (b : Fin 10) (above : Bool) (mv : BitVec 16), s.steady → reactionOf s.dev fltIoSupply = 0 →
    s.performs (.bankSupplyLoss b above mv) [.regs, .io] fun d =>
      d.io = { s.dev.io with bankHiZ := tSet (fun _ => false) s.dev.io.bankHiZ b.val true } ∧
      bitR d (rBank b.val) 63 = false ∧ fldR d (rBank b.val) 15 0 = mv.toNat ∧ ∀ a, a ≠ rBank b.val → getR d a = getR s.dev a) ∧
  (∀ (s : State) (b : Fin 10) (mv : BitVec 16), s.steady → s.dev.power.pinsHeld = true →
    s.performs (.bankSupplyReturn b mv) [.regs, .io] fun d =>
      d.io.bankHiZ = tSet (fun _ => false) s.dev.io.bankHiZ b.val false ∧
      bitR d (rBank b.val) 63 = true ∧ fldR d (rBank b.val) 15 0 = mv.toNat ∧ ∀ a, a ≠ rBank b.val → getR d a = getR s.dev a) ∧
  (∀ (s : State) (b : Fin 10) (tap : BitVec 16), s.steady →
    s.performs (.delayCalibration b tap true) [.regs] fun d =>
      bitR d (rBank b.val) 62 = true ∧ fldR d (rBank b.val) 47 32 = tap.toNat ∧
      bitR d (rBank b.val) 61 = bitR s.dev (rBank b.val) 61 ∧ ∀ a, a ≠ rBank b.val → getR d a = getR s.dev a) ∧
  (∀ (s : State) (b : Fin 10) (tap : BitVec 16), s.steady → reactionOf s.dev fltIoCal = 0 →
    s.performs (.delayCalibration b tap false) [.regs] fun d =>
      bitR d (rBank b.val) 62 = false ∧ bitR d (rBank b.val) 61 = true ∧ ∀ a, a ≠ rBank b.val → getR d a = getR s.dev a)

/-- Arrival at a router (R261, R267, R268): one response that arrives for a router whose attachment it names leaves the link and
waits at that endpoint; a parcel for another router leaves on its first productive output, one older; one whose parity or
destination is wrong goes to the fault port, whose register then shows it. Injection (R268 to R271): the head of a single endpoint's
outbound queue of class 1, a response, leaves on its first productive output one older than it was, and nothing else moves. It rests
also on the model's choice of assumption 26. -/
def Obligations.ParcelMovement : Prop :=
  (∀ (s : State) (r : Router) (d : Dir) (p : Parcel), s.ready → netRuns s.dev = true → s.dev.net.taken = [] →
    s.dev.net.links = [(4 * routerAddr r + d.val, [p])] → faultCause (routerAddr r) p = none → (pHdr p).dst = routerAddr r →
    isResponse (pHdr p).op = true → epState s.dev (4 * routerAddr r + (pHdr p).dstPort) = .active →
    (pHdr p).age ≤ fldR s.dev (rRtrCnt (routerAddr r)) 55 48 →
    s.performs (.parcelArrival r) [.net] fun t => t.net.links = [] ∧
      t.net.eps = tUpd epDflt s.dev.net.eps (4 * routerAddr r + (pHdr p).dstPort) fun e => { e with resp := e.resp ++ [p] }) ∧
  (∀ (s : State) (i : Fin 128) (d o : Dir) (n : Nat) (p : Parcel), s.ready → netRuns s.dev = true → s.dev.net.taken = [] →
    s.dev.net.links = [(4 * routerAddr (.fabric i) + d.val, [p])] → faultCause (routerAddr (.fabric i)) p = none →
    (pHdr p).dst ≠ routerAddr (.fabric i) → (productive (routerAddr (.fabric i)) (pHdr p).dst).head? = some o.val →
    neighbour (routerAddr (.fabric i)) o.val = some n → (pHdr p).age ≠ 254 →
    s.performs (.parcelArrival (.fabric i)) [.net] fun t =>
      t.net.links = [(4 * n + opposite o.val, [agedParcel p])] ∧ t.net.eps = s.dev.net.eps) ∧
  (∀ (s : State) (r : Router) (d : Dir) (p : Parcel) (c : Nat), s.steady → netRuns s.dev = true → s.dev.net.taken = [] →
    s.dev.net.links = [(4 * routerAddr r + d.val, [p])] → faultCause (routerAddr r) p = some c →
    reactionOf s.dev fltNocParity = 0 → reactionOf s.dev fltNocMisdirect = 0 →
    s.performs (.parcelArrival r) [.net, .regs] fun t => t.net.links = [] ∧ t.net.eps = s.dev.net.eps ∧
      bitR t (rNocFault (routerAddr r) + 8) 63 = true) ∧
  (∀ (s : State) (i : Fin 128) (o : Dir) (n : Nat) (p : Parcel) (rest : List Parcel), s.ready → netRuns s.dev = true →
    s.dev.net.taken = [] → (getEp s.dev (4 * routerAddr (.fabric i))).answers = [] →
    (getEp s.dev (4 * routerAddr (.fabric i))).outq = p :: rest → headOf (getEp s.dev (4 * routerAddr (.fabric i) + 1)) = none →
    routerState s.dev (4 * routerAddr (.fabric i)) = .active → (getEp s.dev (4 * routerAddr (.fabric i))).lag = [] →
    (getEp s.dev (4 * routerAddr (.fabric i) + 1)).lag = [] → isResponse (pHdr p).op = true → (pHdr p).bulk = true →
    (pHdr p).dst ≠ routerAddr (.fabric i) → (productive (routerAddr (.fabric i)) (pHdr p).dst).head? = some o.val →
    neighbour (routerAddr (.fabric i)) o.val = some n → (pHdr p).age ≠ 254 → tWf epDflt s.dev.net.eps = true →
    s.performs (.parcelInject (.fabric i)) [.net] fun t =>
      t.net.links = tUpd linkDflt s.dev.net.links (4 * n + opposite o.val) (fun l => l ++ [agedParcel p]) ∧
      getEp t (4 * routerAddr (.fabric i)) = { getEp s.dev (4 * routerAddr (.fabric i)) with outq := rest } ∧
      (∀ j, j ≠ 4 * routerAddr (.fabric i) → getEp t j = getEp s.dev j) ∧ t.net.taken = [])

/-- Die crossings, regulators and tags (R260, R271, R288): a stage that re-centres spoils the parity of the parcel in its slot; a
regulator gains a token up to its depth; a quarantined tag leaves the endpoint's transactions. Counters and registers of the network
(R44, R281, R300, R304): a write of clr leaves each count at 0, or at 1 where it increments in that cycle, and no other register
changes; NOC_EDGE_REG takes its fields. It rests also on the model's choice of assumption 13. -/
def Obligations.NetworkRegisters : Prop :=
  (∀ (s : State) (r : Router) (d : Dir) (p : Parcel) (rest : List Parcel), s.ready → netRuns s.dev = true →
    crossesDie (routerAddr r) d.val = true → getLink s.dev (routerAddr r) d.val = p :: rest → reactionOf s.dev fltNocCrossing = 0 →
    s.performs (.crossingRecentre r d false) [.net] fun t => t.net.eps = s.dev.net.eps ∧
      t.net.links = tSet linkDflt s.dev.net.links (4 * routerAddr r + d.val) ({ p with par := p.par ^^^ 1 } :: rest)) ∧
  (∀ (s : State) (i : Fin 128) (p : Fin 2), s.ready → netRuns s.dev = true →
    s.becomes (.tokenGain (.fabric i) p) fun d => updEp d (4 * routerAddr (.fabric i) + p.val) fun e =>
      { e with tokens := min (e.tokens + 1) (regulator s.dev (4 * routerAddr (.fabric i) + p.val)).depth }) ∧
  (∀ (s : State) (b : EdgeBlock), s.ready → netRuns s.dev = true →
    s.becomes (.tokenGain (.edge b) 0) fun d => updEp d (4 * routerAddr (.edge b)) fun e =>
      { e with tokens := min (e.tokens + 1) (regulator s.dev (4 * routerAddr (.edge b))).depth }) ∧
  (∀ (s : State) (i : Fin 128) (p : Fin 2) (tag : BitVec 12), s.ready →
    s.becomes (.tagQuarantineEnd (.fabric i) p tag) fun d => updEp d (4 * routerAddr (.fabric i) + p.val) fun e =>
      { e with txns := e.txns.filter fun t => !(t.tag = tag.toNat && t.quarantined) }) ∧
  (∀ (s : State) (b : EdgeBlock) (tag : BitVec 12), s.ready →
    s.becomes (.tagQuarantineEnd (.edge b) 0 tag) fun d => updEp d (4 * routerAddr (.edge b)) fun e =>
      { e with txns := e.txns.filter fun t => !(t.tag = tag.toNat && t.quarantined) }) ∧
  (∀ (s : State) (r : Router) (inc : BitVec 2), s.steady → s.performs (.nocRtrCntClr r inc) [.regs] fun d =>
    fldR d (rRtrCnt (routerAddr r)) 31 0 = (inc.getLsbD 0).toNat ∧ fldR d (rRtrCnt (routerAddr r)) 47 32 = (inc.getLsbD 1).toNat ∧
    fldR d (rRtrCnt (routerAddr r)) 55 48 = 0 ∧ ∀ a, a ≠ rRtrCnt (routerAddr r) → getR d a = getR s.dev a) ∧
  (∀ (s : State) (att : AttPoint) (inc : BitVec 2), s.steady → s.performs (.nocAttCntClr att inc) [.regs] fun d =>
    fldR d (rAttCnt (routerAddr (.fabric att.router)) att.port.val) 15 0 = (inc.getLsbD 0).toNat ∧
    fldR d (rAttCnt (routerAddr (.fabric att.router)) att.port.val) 31 16 = (inc.getLsbD 1).toNat ∧
    ∀ a, a ≠ rAttCnt (routerAddr (.fabric att.router)) att.port.val → getR d a = getR s.dev a) ∧
  (∀ (s : State) (r : Router) (inc : Bool), s.steady → s.performs (.nocFaultCntClr r inc) [.regs] fun d =>
    fldR d (rNocFault (routerAddr r) + 8) 47 32 = inc.toNat ∧
    bitR d (rNocFault (routerAddr r) + 8) 63 = bitR s.dev (rNocFault (routerAddr r) + 8) 63 ∧
    ∀ a, a ≠ rNocFault (routerAddr r) + 8 → getR d a = getR s.dev a) ∧
  (∀ (s : State) (i : Fin 128) (p : Fin 2) (inc : BitVec 4), s.steady → s.performs (.nocAttDropClr (.fabric i) p inc) [.regs] fun d =>
    (∀ j : Fin 4, fldR d (rDrop (routerAddr (.fabric i)) p.val) (12 * j.val + 11) (12 * j.val) = (inc.getLsbD j.val).toNat) ∧
    fldR d (rDrop (routerAddr (.fabric i)) p.val) 53 48 = fldR s.dev (rDrop (routerAddr (.fabric i)) p.val) 53 48 ∧
    ∀ a, a ≠ rDrop (routerAddr (.fabric i)) p.val → getR d a = getR s.dev a) ∧
  (∀ (s : State) (e : EdgeBlock) (v : Word), s.steady → s.performs (.nocEdgeRegWrite e v) [.regs, .net] fun d =>
    bitR d (rEdgeReg (routerAddr (.edge e))) 63 = bit v 63 ∧ fldR d (rEdgeReg (routerAddr (.edge e))) 51 48 = fld v 51 48 ∧
    fldR d (rEdgeReg (routerAddr (.edge e))) 33 32 = fld v 33 32 ∧ fldR d (rEdgeReg (routerAddr (.edge e))) 31 16 = fld v 31 16 ∧
    fldR d (rEdgeReg (routerAddr (.edge e))) 15 0 = fldR s.dev (rEdgeReg (routerAddr (.edge e))) 15 0 ∧
    ∀ a, a ≠ rEdgeReg (routerAddr (.edge e)) → getR d a = getR s.dev a)

/-- Requests of a user port (R229, R277, R288, R289, R291): one for a decoded destination whose credits are free is queued, and its
first parcel enters the outbound queue at that edge, the others waiting behind it; one of a group without credits completes with
UNMAPPED; at a FENCED attachment it completes with FENCED; a sub-read enters as one request parcel. Transactions at their ends
(R277, R278, R287, R293, R302): a response that belongs to a transaction of an ACTIVE attachment passes into its inbound queue; a
request parcel presented there enters reassembly; a complete request without poison is accepted by the target port; its response
leaves as response parcels. Timers of the network (R288, R295, R297): an incomplete transaction leaves reassembly at its timeout and
is counted; a request whose response does not come completes with TIMEOUT and its tag is quarantined. It rests also on the model's
choices of assumptions 16, 43, 65 and 128. -/
def Obligations.Transactions : Prop :=
  (∀ (s : State) (att : AttPoint) (q : Request) (dr dp : Nat) (ps : List Parcel), s.ready → bridgedAtt s.dev (attKey att) = false →
    userEdge s.dev (attKey att) = true → epState s.dev (attKey att) = .active → tWf epDflt s.dev.net.eps = true →
    decodeAddr s.dev false q.addr.toNat q.len.toNat q.firstMask.toNat q.lastMask.toNat = .to dr dp → q.op = .wr →
    portReady (getEp s.dev (attKey att)) = true → outstanding (getEp s.dev (attKey att)) < 64 →
    creditsUsed (getEp s.dev (attKey att)) (groupOfRouter dr) + 1 ≤ creditsOf (attFields s.dev (attKey att)) (groupOfRouter dr) →
    requestParcels (attKey att) (getEp s.dev (attKey att)).epoch ((getEp s.dev (attKey att)).nextId % 4096) dr dp (issueOf q) = ps →
    s.performs (.userRequest att q) [.net] fun d =>
      getEp d (attKey att) = { getEp s.dev (attKey att) with
        nextId := (getEp s.dev (attKey att)).nextId + 1
        outq := (getEp s.dev (attKey att)).outq ++ ps.take 1, entering := ps.drop 1
        requests := (getEp s.dev (attKey att)).requests ++
          [{ id := (getEp s.dev (attKey att)).nextId, op := .wr, addr := q.addr.toNat, len := q.len.toNat, dstR := dr, dstP := dp
             need := 1 }] } ∧
      ∀ j, j ≠ attKey att → getEp d j = getEp s.dev j) ∧
  (∀ (s : State) (att : AttPoint) (q : Request) (dr dp : Nat), s.ready → bridgedAtt s.dev (attKey att) = false →
    userEdge s.dev (attKey att) = true → epState s.dev (attKey att) = .active ∨ epState s.dev (attKey att) = .fenced → q.op ≠ .wrp →
    (getEp s.dev (attKey att)).entering = [] →
    decodeAddr s.dev false q.addr.toNat q.len.toNat q.firstMask.toNat q.lastMask.toNat = .to dr dp →
    creditsOf (attFields s.dev (attKey att)) (groupOfRouter dr) = 0 →
    s.becomes (.userRequest att q) fun d => updEp d (attKey att) fun e => { e with
      completions := e.completions ++ [{ user := .userPort, tag := e.nextTag, code := rspUnmapped, data := [] }] }) ∧
  (∀ (s : State) (att : AttPoint) (q : Request) (dr dp : Nat), s.ready → bridgedAtt s.dev (attKey att) = false →
    userEdge s.dev (attKey att) = true → epState s.dev (attKey att) = .fenced → q.op ≠ .wrp →
    (getEp s.dev (attKey att)).entering = [] →
    decodeAddr s.dev false q.addr.toNat q.len.toNat q.firstMask.toNat q.lastMask.toNat = .to dr dp →
    creditsOf (attFields s.dev (attKey att)) (groupOfRouter dr) ≠ 0 →
    s.becomes (.userRequest att q) fun d => updEp d (attKey att) fun e => { e with
      completions := e.completions ++ [{ user := .userPort, tag := e.nextTag, code := 3, data := [] }] }) ∧
  (∀ (s : State) (att : AttPoint) (sp : Split), s.ready → bridgedAtt s.dev (attKey att) = false → tWf epDflt s.dev.net.eps = true →
    (getEp s.dev (attKey att)).splits = [sp] → sp.issued < sp.total → sp.req.op = .rd → epState s.dev (attKey att) = .active →
    (getEp s.dev (attKey att)).txns = [] → (getEp s.dev (attKey att)).outq = [] → (getEp s.dev (attKey att)).entering = [] →
    (getEp s.dev (attKey att)).requests = [] → userEdge s.dev (attKey att) = true → sp.step ≤ creditsOf (attFields s.dev (attKey att)) (groupOfRouter sp.dstR) →
    s.performs (.subReadIssue att) [.net] fun d =>
      (getEp d (attKey att)).splits = [{ sp with issued := sp.issued + 1 }] ∧ (getEp d (attKey att)).outq.length = 1 ∧
      (getEp d (attKey att)).requests.length = 1 ∧ (getEp d (attKey att)).txns = [] ∧ (∀ j, j ≠ attKey att → getEp d j = getEp s.dev j) ∧ d.net.links = s.dev.net.links) ∧
  (∀ (s : State) (i : Fin 128) (port : Fin 2) (p : Parcel) (rest : List Parcel) (t : Txn), s.ready →
    tWf epDflt s.dev.net.eps = true →
    (getEp s.dev (4 * routerAddr (.fabric i) + port.val)).resp = p :: rest →
    (getEp s.dev (4 * routerAddr (.fabric i) + port.val)).txns = [t] → t.tag = (pHdr p).tag → t.quarantined = false →
    (pHdr p).epoch = (getEp s.dev (4 * routerAddr (.fabric i) + port.val)).epoch → (pHdr p).src = t.dstR → (pHdr p).srcPort = t.dstP →
    s.performs (.responseDelivery (.fabric i) port) [.net] fun d =>
      (getEp d (4 * routerAddr (.fabric i) + port.val)).resp = rest ∧
      (getEp d (4 * routerAddr (.fabric i) + port.val)).inq = (getEp s.dev (4 * routerAddr (.fabric i) + port.val)).inq ++ [p] ∧
      ∀ j, j ≠ 4 * routerAddr (.fabric i) + port.val → getEp d j = getEp s.dev j) ∧
  (∀ (s : State) (att : AttPoint) (p : Parcel) (rest : List Parcel), s.ready → bridgedAtt s.dev (attKey att) = false →
    userEdge s.dev (attKey att) = true → (getEp s.dev (attKey att)).inq = p :: rest → (pHdr p).op = 0 →
    (getEp s.dev (attKey att)).reasm = [] → tWf epDflt s.dev.net.eps = true →
    s.performs (.inboundParcelPresent att) [.net] fun d =>
      (getEp d (attKey att)).inq = rest ∧
      (getEp d (attKey att)).reasm = [{ src := (pHdr p).src, port := (pHdr p).srcPort, tag := (pHdr p).tag, req := some p, data := [] }] ∧
      (getEp d (attKey att)).presented = some { hdr := p.hdr, words := [] } ∧ ∀ j, j ≠ attKey att → getEp d j = getEp s.dev j) ∧
  (∀ (s : State) (i : Fin 128) (port : Fin 2) (x : Reasm) (p : Parcel) (src : RouterAddr) (sp : BitVec 2) (tag : BitVec 12), s.ready →
    bridgedAtt s.dev (4 * routerAddr (.fabric i) + port.val) = false → tWf epDflt s.dev.net.eps = true →
    (getEp s.dev (4 * routerAddr (.fabric i) + port.val)).reasm = [x] → x.src = src.toNat → x.port = sp.toNat → x.tag = tag.toNat →
    x.refused = false → x.req = some p → (pHdr p).op = 0 → (decodeWord (pWord p 0)).outcome = .clean →
    (decodeWord (pWord p 1)).outcome = .clean → reqPoisoned p = false →
    s.performs (.targetRequest (.fabric i) port src sp tag) [.net] fun d =>
      (getEp d (4 * routerAddr (.fabric i) + port.val)).reasm = [] ∧
      (getEp d (4 * routerAddr (.fabric i) + port.val)).accepted =
        (getEp s.dev (4 * routerAddr (.fabric i) + port.val)).accepted ++ [x] ∧
      ∀ j, j ≠ 4 * routerAddr (.fabric i) + port.val → getEp d j = getEp s.dev j) ∧
  (∀ (s : State) (att : AttPoint) (x : Reasm) (p : Parcel) (a : TargetResp), s.ready → bridgedAtt s.dev (attKey att) = false →
    userEdge s.dev (attKey att) = true → tWf epDflt s.dev.net.eps = true →
    (getEp s.dev (attKey att)).outq = [] → (getEp s.dev (attKey att)).entering = [] → (getEp s.dev (attKey att)).accepted = [x] → x.src = a.src.toNat →
    x.port = a.srcPort.toNat → x.tag = a.tag.toNat → x.req = some p → (pHdr p).op = 1 → a.code = 0 →
    s.performs (.targetPortResponse att a) [.net] fun d =>
      (getEp d (attKey att)).accepted = [] ∧
      (getEp d (attKey att)).outq = [mkParcel { epoch := (pHdr p).epoch, tag := (pHdr p).tag, bulk := (pHdr p).bulk
                                                prio := (pHdr p).prio, src := attKey att / 4, srcPort := attKey att % 4
                                                dst := (pHdr p).src, dstPort := (pHdr p).srcPort, op := 9, key := 0 } zeroPayload] ∧
      ∀ j, j ≠ attKey att → getEp d j = getEp s.dev j) ∧
  (∀ (s : State) (i : Fin 128) (port : Fin 2) (x : Reasm) (src : RouterAddr) (sp : BitVec 2) (tag : BitVec 12), s.steady →
    tWf epDflt s.dev.net.eps = true → (getEp s.dev (4 * routerAddr (.fabric i) + port.val)).reasm = [x] → x.src = src.toNat →
    x.port = sp.toNat → x.tag = tag.toNat → x.refused = false → x.early = none → complete x = false →
    s.performs (.reassemblyTimeout (.fabric i) port src sp tag) [.net, .regs] fun d =>
      (getEp d (4 * routerAddr (.fabric i) + port.val)).reasm = [] ∧
      fldR d (rDrop (routerAddr (.fabric i)) port.val) 47 36 =
        min (fldR s.dev (rDrop (routerAddr (.fabric i)) port.val) 47 36 + 1) 4095 ∧
      (∀ j, j ≠ 4 * routerAddr (.fabric i) + port.val → getEp d j = getEp s.dev j) ∧
      ∀ a, a ≠ rDrop (routerAddr (.fabric i)) port.val → getR d a = getR s.dev a) ∧
  (∀ (s : State) (i : Fin 128) (port : Fin 2) (t : Txn) (tag : BitVec 12), s.ready → tWf epDflt s.dev.net.eps = true →
    (getEp s.dev (4 * routerAddr (.fabric i) + port.val)).txns = [t] → t.tag = tag.toNat → t.injected = true → t.quarantined = false →
    ejectedParcels (getEp s.dev (4 * routerAddr (.fabric i) + port.val)) t < t.need → t.split = none → reactionOf s.dev fltNocTimeout = 0 →
    s.performs (.transactionTimeout (.fabric i) port tag) [.net] fun d =>
      (getEp d (4 * routerAddr (.fabric i) + port.val)).txns = [{ t with quarantined := true }] ∧
      (getEp d (4 * routerAddr (.fabric i) + port.val)).completions =
        (getEp s.dev (4 * routerAddr (.fabric i) + port.val)).completions ++ [{ user := t.user, tag := t.tag, code := 5, data := [], id := t.id }] ∧
      ∀ j, j ≠ 4 * routerAddr (.fabric i) + port.val → getEp d j = getEp s.dev j)

/-- Key slots (R335, R336, R357): KEY_LOAD writes the unwrapped key into the slot of every engine of the mask where none has it
bound, CLEAR empties it; both end with code 0, and change no other part. A bound slot is refused with KEY_ERR_IN_USE. It rests also
on the model's choices of assumptions 4 and 8. -/
def Obligations.KeySlots : Prop :=
  (∀ (s : State) (mask : BitVec 12) (slot : Fin 64) (wrapped : List Word) (m : Nat) (k : List Nat), s.ready →
    s.mailbox 0x0401 ((0xC0000000003F0FFF, 2 ^ 62 + slot.val * 2 ^ 16 + mask.toNat) :: wholeWords wrapped) →
    s.dev.enc.reinit = none → unwrapKey s.dev wrapped = (0, m, k) → (maskEngines mask.toNat).any (slotBound s.dev slot.val) = false →
    mask ≠ 0 → s.performs (.keyLoadLoad mask slot wrapped) [.enc, .bureau] fun d =>
      d.ended s 6 0 ∧ d.bureau.keys = s.dev.bureau.keys ∧ d.enc.ranges = s.dev.enc.ranges ∧ d.enc.loads = s.dev.enc.loads + 1 ∧
      d.enc.engines = (maskEngines mask.toNat).foldl (fun t e => tUpd engDflt t e fun g => { g with
        slots := tUpd slotDflt g.slots slot.val fun _ => { mode := if m = 1 then .xts else .gcm, key := k, load := s.dev.enc.loads + 1 } })
        s.dev.enc.engines) ∧
  (∀ (s : State) (mask : BitVec 12) (slot : Fin 64), s.ready →
    s.mailbox 0x0401 [(0xC0000000003F0FFF, 2 ^ 63 + slot.val * 2 ^ 16 + mask.toNat)] → s.dev.enc.reinit = none →
    (maskEngines mask.toNat).any (slotBound s.dev slot.val) = false → mask ≠ 0 →
    s.performs (.keyLoadClear mask slot) [.enc, .bureau] fun d =>
      d.ended s 6 0 ∧ d.bureau.keys = s.dev.bureau.keys ∧ d.enc.ranges = s.dev.enc.ranges ∧
      d.enc.engines = (maskEngines mask.toNat).foldl (fun t e => tUpd engDflt t e fun g => { g with
        slots := tUpd slotDflt g.slots slot.val fun _ => {} }) s.dev.enc.engines) ∧
  (∀ (s : State) (mask : BitVec 12) (slot : Fin 64), s.ready →
    s.mailbox 0x0401 [(0xC0000000003F0FFF, 2 ^ 63 + slot.val * 2 ^ 16 + mask.toNat)] → s.dev.enc.reinit = none →
    (maskEngines mask.toNat).any (slotBound s.dev slot.val) = true →
    s.performs (.keyLoadClear mask slot) [.bureau] fun d => d.ended s 6 5 ∧ d.bureau.keys = s.dev.bureau.keys)

/-- Encryption ranges (R355 to R357): a DEFINE that no check refuses, of a range without integrity, enters it; DISABLE returns a
range to undefined; REINIT starts and runs until its completion, both on engines that have performed what they accepted; a range
that is INITIALISING becomes READY. The engine registers (R341, R342, R360): what unlocked writes of ENC_CFG and of the rights table
hold afterwards, that the lock is kept and shuts both, and the clearing of the counts. It rests also on the model's choices of
assumptions 20, 38, 39, 144 and 145. -/
def Obligations.KeyRangesAndRegisters : Prop :=
  (∀ (s : State) (m : Fin 2) (r : Fin 8) (slot : Fin 64) (base size metaBase : Word) (g : KeyRange), s.ready →
    s.mailbox 0x0402 ((0xD73F000000000000, packNat [(1, 62), (m.val, 60), (r.val, 56), (slot.val, 48)]) ::
      wholeWords [base, size, metaBase]) →
    defineCheck s.dev m.val r.val slot.val base.toNat size.toNat metaBase.toNat = (0, g) → g.integrity = false →
    s.performs (.keyRangeDefine m r slot base size metaBase) [.enc, .bureau] fun d =>
      d.ended s 6 0 ∧ d.bureau.keys = s.dev.bureau.keys ∧
      d.enc = { s.dev.enc with ranges := tSet rangeDflt s.dev.enc.ranges (8 * m.val + r.val) g }) ∧
  (∀ (s : State) (m : Fin 2) (r : Fin 8), s.ready →
    s.mailbox 0x0402 [(0xD700000000000000, packNat [(2, 62), (m.val, 60), (r.val, 56)])] →
    (getRange s.dev (8 * m.val + r.val)).state ≠ .undefined → (getRange s.dev (8 * m.val + r.val)).state ≠ .initialising →
    (∀ e ∈ (getRange s.dev (8 * m.val + r.val)).engines, s.dev.performed e) →
    s.dev.enc.reinit = none → bitR s.dev rEncCfg 63 = false →
    s.performs (.keyRangeDisable m r) [.enc, .mem, .bureau] fun d =>
      d.ended s 6 0 ∧ d.bureau.keys = s.dev.bureau.keys ∧ (∀ n, getCh d n = getCh s.dev n) ∧ (∀ n, getDie d n = getDie s.dev n) ∧
      d.enc.ranges = tSet rangeDflt s.dev.enc.ranges (8 * m.val + r.val) {} ∧ d.enc.reinit = none) ∧
  (∀ (s : State) (m : Fin 2) (r : Fin 8) (e level : Fin 16) (node : BitVec 26), s.ready →
    s.mailbox 0x0402 [(0xD7000F0F03FFFFFF, packNat [(3, 62), (m.val, 60), (r.val, 56), (e.val, 40), (level.val, 32), (node.toNat, 0)])] →
    s.dev.enc.reinit = none → (getRange s.dev (8 * m.val + r.val)).state = .ready →
    (getRange s.dev (8 * m.val + r.val)).integrity = true → e.val < (getRange s.dev (8 * m.val + r.val)).engines.length →
    level.val ≠ 0 → level.val ≤ (shareOf s.dev (nth 99 (getRange s.dev (8 * m.val + r.val)).engines e.val) (8 * m.val + r.val)).top →
    node.toNat < (shareOf s.dev (nth 99 (getRange s.dev (8 * m.val + r.val)).engines e.val) (8 * m.val + r.val)).nodes level.val →
    s.dev.performed (nth 99 (getRange s.dev (8 * m.val + r.val)).engines e.val) →
    s.performs (.keyRangeReinit m r e level node) [.enc, .mem] fun d =>
      d.enc = { s.dev.enc with reinit := some { rng := 8 * m.val + r.val, share := e.val, level := level.val, idx := node.toNat } } ∧
      (∀ n, getCh d n = getCh s.dev n) ∧ ∀ n, getDie d n = getDie s.dev n) ∧
  (∀ (s : State) (m : Fin 2) (r : Fin 8), s.ready → (getRange s.dev (8 * m.val + r.val)).state = .initialising →
    s.becomes (.rangeInitialisationComplete m r) fun d => updRange d (8 * m.val + r.val) fun g => { g with state := .ready }) ∧
  (∀ (s : State) (x : ReinitRun), s.ready → s.mailbox 0x0402 [] → s.dev.enc.reinit = some x →
    (getRange s.dev x.rng).state = .ready →
    (shareOf s.dev (nth 99 (getRange s.dev x.rng).engines x.share) x.rng).top ≤ x.level →
    rootCounter s.dev (nth 99 (getRange s.dev x.rng).engines x.share) x.rng x.idx + 1 ≠ counterLimit →
    s.performs .reinitComplete [.enc, .mem, .bureau] fun d => d.ended s 6 0 ∧ d.enc.reinit = none ∧ d.enc.loads = s.dev.enc.loads) ∧
  (∀ (s : State) (v : Word), s.steady → bitR s.dev rEncCfg 63 = false → anyRange s.dev 0 = false → anyRange s.dev 1 = false →
    s.performs (.encCfgWrite v) [.regs] fun d =>
      fldR d rEncCfg 21 20 = fld v 21 20 ∧ fldR d rEncCfg 17 16 = fld v 17 16 ∧ fldR d rEncCfg 13 8 = fld v 13 8 ∧
      fldR d rEncCfg 5 0 = fld v 5 0 ∧ bitR d rEncCfg 63 = bit v 63 ∧
      bitR d rEncCfg 62 = (bitR s.dev rEncCfg 62 && !bit v 62) ∧ ∀ a, a ≠ rEncCfg → getR d a = getR s.dev a) ∧
  (∀ (s : State) (v : Word), s.steady → bitR s.dev rEncCfg 63 = true → s.performs (.encCfgWrite v) [.regs] fun d =>
    fldR d rEncCfg 21 20 = fldR s.dev rEncCfg 21 20 ∧ fldR d rEncCfg 17 16 = fldR s.dev rEncCfg 17 16 ∧
    fldR d rEncCfg 13 8 = fldR s.dev rEncCfg 13 8 ∧ fldR d rEncCfg 5 0 = fldR s.dev rEncCfg 5 0 ∧ bitR d rEncCfg 63 = true ∧
    bitR d rEncCfg 62 = (anyRange s.dev 0 || anyRange s.dev 1 || bitR s.dev rEncCfg 62 && !bit v 62) ∧
    ∀ a, a ≠ rEncCfg → getR d a = getR s.dev a) ∧
  (∀ s : State, s.steady → s.performs .encCfgLock [.regs] fun d =>
    bitR d rEncCfg 63 = true ∧ fldR d rEncCfg 62 0 = fldR s.dev rEncCfg 62 0 ∧ ∀ a, a ≠ rEncCfg → getR d a = getR s.dev a) ∧
  (∀ (s : State) (n : Fin 64) (w : Fin 4) (v : Word), s.steady → bitR s.dev rEncCfg 63 = false → (w = 1 ∨ w = 2) →
    s.performs (.rightsWrite n w v) [.regs] fun d =>
      getR d (rRights n.val w.val) = v ∧ ∀ a, a ≠ rRights n.val w.val → getR d a = getR s.dev a) ∧
  (∀ (s : State) (n : Fin 64) (v : Word), s.steady → bitR s.dev rEncCfg 63 = false →
    s.performs (.rightsWrite n 0 v) [.regs] fun d =>
      bitR d (rRights n.val 0) 63 = bit v 63 ∧ fldR d (rRights n.val 0) 34 32 = fld v 34 32 ∧
      bitR d (rRights n.val 0) 31 = bit v 31 ∧ fldR d (rRights n.val 0) 27 26 = fld v 27 26 ∧
      bitR d (rRights n.val 0) 25 = bit v 25 ∧ fldR d (rRights n.val 0) 17 0 = fld v 17 0 ∧
      ∀ a, a ≠ rRights n.val 0 → getR d a = getR s.dev a) ∧
  (∀ (s : State) (n : Fin 64) (w : Fin 4) (v : Word), s.steady → bitR s.dev rEncCfg 63 = true → w ≠ 3 →
    s.performs (.rightsWrite n w v) [.regs] fun d => ∀ a, getR d a = getR s.dev a) ∧
  (∀ (s : State) (n : Fin 64), s.steady → s.performs (.hitsClr n) [.regs] fun d =>
    fldR d (rRights n.val 3) 31 0 = 0 ∧ ∀ a, a ≠ rRights n.val 3 → getR d a = getR s.dev a) ∧
  (∀ (s : State) (e : Fin 12) (inc : BitVec 6), s.steady → s.performs (.encStatusClr e inc) [.regs] fun d =>
    fldR d (rEncStatus e.val 0) 47 32 = (inc.getLsbD 0).toNat ∧ fldR d (rEncStatus e.val 0) 31 16 = (inc.getLsbD 1).toNat ∧
    fldR d (rEncStatus e.val 0) 15 0 = (inc.getLsbD 2).toNat ∧ fldR d (rEncStatus e.val 1) 63 48 = (inc.getLsbD 3).toNat ∧
    fldR d (rEncStatus e.val 1) 47 32 = (inc.getLsbD 4).toNat ∧ fldR d (rEncStatus e.val 1) 31 0 = (inc.getLsbD 5).toNat ∧
    ∀ a, a ≠ rEncStatus e.val 0 → a ≠ rEncStatus e.val 1 → getR d a = getR s.dev a)

/-- The mailbox (R511, R512): claim and release of its owner, a go that takes the command area, a go by another path that collides,
and the response that ends a command with done and vector 8. It rests also on the model's choices of assumptions 8 and 113. -/
def Obligations.MailboxInterface : Prop :=
  (∀ (s : State) (p : Path), s.steady → fldR s.dev rMbxClaim 1 0 = 0 → s.performs (.mbxClaim p) [.regs] fun d =>
    fldR d rMbxClaim 1 0 = pathCode p ∧ ∀ a, a ≠ rMbxClaim → getR d a = getR s.dev a) ∧
  (∀ (s : State) (p : Path), s.steady → fldR s.dev rMbxClaim 1 0 = pathCode p → s.performs (.mbxRelease p) [.regs] fun d =>
    fldR d rMbxClaim 1 0 = 0 ∧ ∀ a, a ≠ rMbxClaim → getR d a = getR s.dev a) ∧
  (∀ (s : State) (p q : Path), s.steady → q ≠ .network → q ≠ p → fldR s.dev rMbxClaim 1 0 = pathCode q →
    s.performs (.mailboxGo p) [.regs] fun d => bitR d rMbxStatus 61 = true ∧ ∀ a, a ≠ rMbxStatus → getR d a = getR s.dev a) ∧
  (∀ (s : State) (p : Path), s.steady → fldR s.dev rMbxClaim 1 0 = pathCode p → bitR s.dev rMbxStatus 63 = false →
    getR s.dev (rMbxCmd 0) = 0x0603 → getR s.dev (rMbxCmd 1) = 0 → s.performs (.mailboxGo p) [.regs, .bureau] fun d =>
      bitR d rMbxStatus 63 = true ∧ fldR d rMbxStatus 31 0 = 0x0603 ∧ d.bureau.keys = s.dev.bureau.keys ∧
      d.bureau.mbx.run = some { opcode := 0x0603, seq := 0, args := (List.range 254).map fun i => getR s.dev (rMbxCmd (i + 2)) } ∧
      d.bureau.mbx.result = none ∧ ∀ a, a ≠ rMbxStatus → getR d a = getR s.dev a) ∧
  (∀ (s : State) (c : MbxCmd) (r : MbxResult), s.steady → s.dev.bureau.mbx = { run := some c, result := some r } → r.data.length < 256 →
    s.performs .mailboxResponse [.regs, .bureau, .free, .out] fun d =>
      bitR d rMbxStatus 63 = false ∧ bitR d rMbxStatus 62 = true ∧ d.bureau.mbx = {} ∧ d.bureau.keys = s.dev.bureau.keys ∧
      getR d (rMbxResp 0) = packW [(c.seq % 2 ^ 32, 32), (r.family % 256, 24), (r.value % 2 ^ 16, 0)] ∧
      ∀ i, (h : i < r.data.length) → i + 1 < 256 → getR d (rMbxResp (i + 1)) = r.data[i])

/-- The key store (R516): what each KEYSTORE operation burns where the entry allows it, and that a burned device key is refused and
kept; every one answers the mailbox. It rests also on the model's choices of assumptions 4 and 8. -/
def Obligations.KeyStoreCommands : Prop :=
  (∀ (s : State) (key : List Word), s.ready → s.mailbox 0x0404 ((15 * 2 ^ 60, 2 ^ 60) :: wholeWords key) → key.length = 4 →
    s.dev.bureau.keys.devKey = none → s.performs (.keystoreDevkey key) [.bureau] fun d =>
      d.ended s 6 0 ∧ d.bureau.keys = { s.dev.bureau.keys with devKey := some (wordBytes key) }) ∧
  (∀ (s : State) (key : List Word), s.ready → s.mailbox 0x0404 ((15 * 2 ^ 60, 2 ^ 60) :: wholeWords key) →
    s.dev.bureau.keys.devKey ≠ none → s.performs (.keystoreDevkey key) [.bureau] fun d =>
      d.ended s 6 12 ∧ d.bureau.keys = s.dev.bureau.keys) ∧
  (∀ (s : State) (e : Fin 16) (wrapped : List Word) (k : List Nat), s.ready →
    s.mailbox 0x0404 ((15 * 2 ^ 60 + 15, 2 * 2 ^ 60 + e.val) :: wholeWords wrapped) → unwrapKey s.dev wrapped = (0, 2, k) →
    s.performs (.keystoreImageKey e wrapped) [.bureau] fun d => d.ended s 6 0 ∧
      d.bureau.keys = { s.dev.bureau.keys with imageKeys := tSet (fun _ => []) s.dev.bureau.keys.imageKeys e.val (k.take 32) }) ∧
  (∀ (s : State) (k : Fin 4) (hash : List Word), s.ready →
    s.mailbox 0x0404 ((15 * 2 ^ 60 + 3, 3 * 2 ^ 60 + k.val) :: wholeWords hash) → hash.length = 6 →
    getSign s.dev k.val = {} → s.performs (.keystoreSignAdd k hash) [.bureau] fun d => d.ended s 6 0 ∧
      d.bureau.keys = { s.dev.bureau.keys with
        sign := tSet signDflt s.dev.bureau.keys.sign k.val { hash := ofLe (wordBytes hash), programmed := true, revoked := false } }) ∧
  (∀ (s : State) (k : Fin 4), s.ready → s.mailbox 0x0404 [(15 * 2 ^ 60 + 3, 4 * 2 ^ 60 + k.val)] →
    (getSign s.dev k.val).programmed = true → (getSign s.dev k.val).revoked = false →
    s.performs (.keystoreSignRevoke k) [.bureau] fun d => d.ended s 6 0 ∧
      d.bureau.keys = { s.dev.bureau.keys with
        sign := tSet signDflt s.dev.bureau.keys.sign k.val { getSign s.dev k.val with revoked := true } }) ∧
  (∀ (s : State) (k : Fin 4), s.steady → s.mailbox 0x0404 [(15 * 2 ^ 60, 5 * 2 ^ 60)] →
    (getSign s.dev k.val).programmed = true → (getSign s.dev k.val).revoked = false →
    s.performs .keystoreSignFuse [.bureau, .regs] fun d => d.ended s 6 0 ∧
      d.bureau.keys = { s.dev.bureau.keys with signFuse := true } ∧ bitR d rBootCfg 21 = true ∧
      ∀ a, a ≠ rBootCfg → getR d a = getR s.dev a)

/-- Reading commands of the mailbox (R499, R506, R515): FAULT_LOG_READ answers with the next record number and the records asked
for, and where a record is missing with words that no statement gives a value (assumption 3); UNIT_MAP_READ with the eight words of
the map; CAB_EXPORT_LOG with the Cabinet's counters and its records. Interrupts and debug ports (R509, R517 to R519): unmasking
sends a pending message, which is pending no longer; a JTAG instruction is selected, an unknown code as BYPASS, and IDCODE presents
its code; a read transfer of the management SPI port answers a word; a debug scan presents the last access and, where none is under
way, starts the one it names. -/
def Obligations.ReadingAndDebug : Prop :=
  (∀ (s : State) (first : BitVec 32), s.ready → s.mailbox 0x0602 [(2 ^ 38 - 1, 2 ^ 32 + first.toNat)] →
    (tGet (fun _ => []) s.dev.flog.recs (first.toNat % 2048)).length = 4 →
    s.performs (.faultLogRead 1 first) [.bureau] fun d => d.bureau.keys = s.dev.bureau.keys ∧
      d.ended s 0 0 (BitVec.ofNat 64 (s.dev.flog.next % 2 ^ 32) :: tGet (fun _ => []) s.dev.flog.recs (first.toNat % 2048))) ∧
  (∀ (s : State) (first : BitVec 32), s.ready → s.mailbox 0x0602 [(2 ^ 38 - 1, 2 ^ 32 + first.toNat)] →
    (tGet (fun _ => []) s.dev.flog.recs (first.toNat % 2048)).length ≠ 4 →
    s.performs (.faultLogRead 1 first) [.bureau, .free] fun d => d.bureau.keys = s.dev.bureau.keys ∧ d.free = s.dev.free + 4 ∧
      d.ended s 0 0 [BitVec.ofNat 64 (s.dev.flog.next % 2 ^ 32), Config.freeWord s.dev.free, Config.freeWord (s.dev.free + 1),
        Config.freeWord (s.dev.free + 2), Config.freeWord (s.dev.free + 3)]) ∧
  (∀ s : State, s.ready → s.mailbox 0x0603 [] → s.performs .unitMapRead [.bureau] fun d => d.bureau.keys = s.dev.bureau.keys ∧
    d.ended s 0 0 [unitMap s.dev 0, unitMap s.dev 1, unitMap s.dev 2, unitMap s.dev 3, unitMap s.dev 4, unitMap s.dev 5,
      unitMap s.dev 6, unitMap s.dev 7]) ∧
  (∀ (s : State) (first : BitVec 32), s.ready → s.mailbox 0x0503 [(2 ^ 38 - 1, 2 ^ 32 + first.toNat)] → cabUp s.dev = true →
    (tGet (fun _ => []) s.dev.cab.onDie ((first.toNat + 1023) % 1024)).length = 4 →
    s.performs (.cabExportLog 1 first) [.bureau] fun d => d.bureau.keys = s.dev.bureau.keys ∧
      d.ended s 0 0 (packW [(s.dev.cab.c % 2 ^ 32, 32), (s.dev.cab.e % 2 ^ 32, 0)] ::
        tGet (fun _ => []) s.dev.cab.onDie ((first.toNat + 1023) % 1024))) ∧
  (∀ (s : State) (v : Fin 32), s.steady → hostLinkUp s.dev = true → getR s.dev rPba = BitVec.ofNat 64 (2 ^ v.val) →
    s.performs (.msiXUnmask v) [.regs, .out] fun d =>
      d.out = [.msix v.val (getR s.dev (rMsix v.val 0)).toNat (fldR s.dev (rMsix v.val 1) 31 0)] ∧
      bitR d (rMsix v.val 1) 32 = false ∧ getR d rPba = 0) ∧
  (∀ (s : State) (v : Fin 32), s.steady → hostLinkUp s.dev = false → s.performs (.msiXUnmask v) [.regs] fun d =>
    bitR d (rMsix v.val 1) 32 = false ∧ ∀ a, a ≠ rMsix v.val 1 → getR d a = getR s.dev a) ∧
  (∀ s : State, s.ready → s.becomes (.jtagInstruction 1) fun d =>
    { d with bureau := { d.bureau with jtag := 1 }, out := [.idcode 0x112609E7] }) ∧
  (∀ (s : State) (c : BitVec 8), s.ready → c ≠ 1 → jtagCodes.contains c.toNat = true → s.becomes (.jtagInstruction c) fun d =>
    { d with bureau := { d.bureau with jtag := c.toNat } }) ∧
  (∀ (s : State) (c : BitVec 8), s.ready → jtagCodes.contains c.toNat = false → s.becomes (.jtagInstruction c) fun d =>
    { d with bureau := { d.bureau with jtag := 0xFF } }) ∧
  (∀ s : State, s.ready → s.performs (.mspiTransfer [0x0B, 0x00, 0x10, 0x10, 0x10, 0, 0, 0, 0, 0, 0, 0, 0, 0, 0]) [.out] fun d =>
    d.out = [.mspi (BitVec.ofNat 64 (fldR s.dev rMbxClaim 1 0))]) ∧
  (∀ (s : State) (v : BitVec 120), s.ready → s.dev.bureau.jtag = 0x20 → s.dev.bureau.dbg.waiting = true →
    s.becomes (.dbgAccessUpdate v) fun d =>
      { d with out := [.debug d.bureau.dbg.done d.bureau.dbg.code d.bureau.dbg.data] }) ∧
  (∀ (s : State) (v : BitVec 120), s.ready → s.dev.bureau.jtag = 0x20 → s.dev.bureau.dbg.waiting = false →
    s.performs (.dbgAccessUpdate v) [.bureau, .net, .out] fun d =>
      d.out = [.debug s.dev.bureau.dbg.done s.dev.bureau.dbg.code s.dev.bureau.dbg.data] ∧ d.bureau.keys = s.dev.bureau.keys ∧
      d.bureau.dbg.addr = fld v 111 64 / 8 * 8 ∧ d.bureau.dbg.isWrite = bit v 112 ∧ d.bureau.dbg.waiting = !d.bureau.dbg.done)

/-- COMMIT and ROLLBACK at their checks (R174, R175, R181, R515): one that a condition refuses answers the reason of the first that
fails and changes nothing else; while another runs the reason is BUSY; one that passes begins its drain with the attachments of the
set FENCED. It rests also on the model's choices of assumptions 8 and 52. -/
def Obligations.CommitChecks : Prop :=
  (∀ (s : State) (t : CommitTarget) (k : Nat), s.steady → s.mailbox 0x0103 [(0x10F, targetWord t)] →
    commitRefusal s.dev (targetRecord t) = k → k ≠ 0 → s.performs (.commit t) [.regs, .bureau] fun d =>
      d.ended s 2 k ∧ fldR d rCommitStatus 23 20 = k ∧ d.bureau.keys = s.dev.bureau.keys ∧
      ∀ a, a ≠ rCommitStatus → getR d a = getR s.dev a) ∧
  (∀ (s : State) (t : CommitTarget) (k : Nat), s.steady → s.mailbox 0x0104 [(0x10F, targetWord t)] →
    rollbackRefusal s.dev (targetRecord t) = k → k ≠ 0 → s.performs (.rollback t) [.regs, .bureau] fun d =>
      d.ended s 3 k ∧ fldR d rCommitStatus 23 20 = k ∧ d.bureau.keys = s.dev.bureau.keys ∧
      ∀ a, a ≠ rCommitStatus → getR d a = getR s.dev a) ∧
  (∀ (s : State) (t : CommitTarget), s.steady → s.mailbox 0x0103 [(0x10F, targetWord t)] → s.dev.cfg.commit.isSome = true →
    s.performs (.commit t) [.regs, .bureau] fun d => d.ended s 2 1 ∧ fldR d rCommitStatus 23 20 = 1) ∧
  (∀ (s : State) (r : Fin 16) (l : LoadRecord), s.steady → tWf epDflt s.dev.net.eps = true →
    s.mailbox 0x0103 [(0x10F, r.val)] → commitRefusal s.dev r.val = 0 → recordOf s.dev r.val = some l →
    s.performs (.commit (.region r)) [.regs, .cfg, .net] fun d =>
      (∃ c, d.cfg.commit = some c ∧ c.set = l.sectors.map (·.1) ∧ c.event = 1 ∧ c.rollback = false ∧ c.region = r.val) ∧
      (∀ i ∈ l.sectors.map (·.1), ∀ k ∈ sectorAtts i, (getEp d k).state = .fenced) ∧
      d.cfg.active = s.dev.cfg.active ∧ d.cfg.leaves = s.dev.cfg.leaves ∧ bitR d rCommitStatus 31 = true ∧
      fldR d rCommitStatus 30 29 = 1 ∧ ∀ a, a ≠ rCommitStatus → getR d a = getR s.dev a) ∧
  (∀ (s : State) (r : Fin 16), s.steady → tWf epDflt s.dev.net.eps = true → s.mailbox 0x0104 [(0x10F, r.val)] →
    rollbackRefusal s.dev r.val = 0 → s.dev.cfg.health.running = false →
    s.performs (.rollback (.region r)) [.regs, .cfg, .net] fun d =>
      (∃ c, d.cfg.commit = some c ∧ c.set = rollbackSet s.dev r.val ∧ c.event = 1 ∧ c.rollback = true ∧ c.region = r.val) ∧
      (∀ i ∈ rollbackSet s.dev r.val, ∀ k ∈ sectorAtts i, (getEp d k).state = .fenced) ∧
      d.cfg.active = s.dev.cfg.active ∧ bitR d rCommitStatus 31 = true ∧ fldR d rCommitStatus 30 29 = 1 ∧
      ∀ a, a ≠ rCommitStatus → getR d a = getR s.dev a)

/-- Events of a commit (R175, R177, R179): the drain completes or times out under drain_policy; the quiet window begins with the
clocks of the set stopped and its I/O cells holding what they drive, and ends with every held cell released; after the epoch hold
the attachments return to their states and the mailbox has OK. The commit strobe over a set that is not the whole device (R171,
R175, R176, R180): the active-leaf select of every sector of the set flips, its new leaf is ACTIVE with the new count as its
commit_id, and no other select moves. It rests also on the model's choices of assumptions 56 and 109. -/
def Obligations.CommitSequence : Prop :=
  (∀ (s : State) (us : Nat) (c : CommitRun), s.steady → s.dev.cfg.commit = some c → c.event = 1 →
    c.set.all (sectorDrained s.dev) = true → s.performs (.commitDrainComplete us) [.regs, .cfg] fun d =>
      d.cfg = { s.dev.cfg with commit := some { c with event := 2 } } ∧ fldR d rCommitStatus 19 0 = min us (2 ^ 20 - 1) ∧
      ∀ a, a ≠ rCommitStatus → getR d a = getR s.dev a) ∧
  (∀ (s : State) (c : CommitRun), s.steady → s.dev.cfg.commit = some c → c.event = 1 →
    c.set.all (sectorDrained s.dev) = false → bitR s.dev rCommitCfg 20 = true →
    s.performs .commitDrainTimeout [.regs, .cfg] fun d =>
      d.cfg = { s.dev.cfg with commit := some { c with event := 2 } } ∧
      fldR d rCommitStatus 19 0 = min (max (fldR s.dev rCommitCfg 19 0) 1) 1000000 ∧
      ∀ a, a ≠ rCommitStatus → getR d a = getR s.dev a) ∧
  (∀ (s : State) (c : CommitRun) (k : Nat) (st : AttState), s.steady → tWf epDflt s.dev.net.eps = true →
    s.dev.cfg.commit = some c → c.event = 1 → c.set.all (sectorDrained s.dev) = false → bitR s.dev rCommitCfg 20 = false →
    c.prior = [(k, st)] → c.mailbox = true → c.rollback = false → s.mailbox 0x0103 [] →
    tWf sectorDflt s.dev.sectors = true → tWf cellDflt s.dev.io.cells = true → s.dev.cfg.boot.reload = false →
    s.performs .commitDrainTimeout [.regs, .cfg, .net, .sectors, .io, .bureau] fun d =>
      (∀ i, getSec d i = { getSec s.dev i with quiet := (getSec s.dev i).quiet && !c.set.contains i, iso := [] }) ∧
      (∀ n, getCell d n = { getCell s.dev n with hold := none }) ∧ d.ended s 2 8 ∧ d.cfg = { s.dev.cfg with commit := none } ∧ (getEp d k).state = st ∧
      (∀ j, j ≠ k → getEp d j = getEp s.dev j) ∧ bitR d rCommitStatus 31 = false ∧ fldR d rCommitStatus 23 20 = 8) ∧
  (∀ (s : State) (c : CommitRun) (pins : List (Fin 480 × Bool × Bool)), s.steady → tWf sectorDflt s.dev.sectors = true →
    tWf cellDflt s.dev.io.cells = true →
    s.dev.cfg.commit = some c → c.event = 2 → s.performs (.commitQuietWindowBegin pins) [.regs, .cfg, .sectors, .io] fun d =>
      d.cfg = { s.dev.cfg with commit := some { c with event := 4 } } ∧ fldR d rCommitStatus 30 29 = 2 ∧
      (∀ i, getSec d i = { getSec s.dev i with quiet := (getSec s.dev i).quiet || c.set.contains i, iso := (getSec d i).iso }) ∧
      (∀ i ∈ c.set, ∀ n ∈ ownedCells s.dev i, (getCell d n).hold =
        some (let p := ((pins.find? fun p => p.1.val = n).map (·.2)).getD (false, false); cellDrives s.dev n p.1 p.2)) ∧
      ∀ n, (∀ i ∈ c.set, n ∉ ownedCells s.dev i) → getCell d n = getCell s.dev n) ∧
  (∀ (s : State) (c : CommitRun), s.steady → tWf sectorDflt s.dev.sectors = true → s.dev.cfg.commit = some c → c.event = 5 →
    c.fenceAfter = [] → reactionOf s.dev fltIoStandard = 0 → tWf cellDflt s.dev.io.cells = true →
    s.performs .commitQuietWindowEnd [.regs, .cfg, .sectors, .io] fun d =>
      d.cfg = { s.dev.cfg with commit := some { c with event := 6 } } ∧ fldR d rCommitStatus 30 29 = 3 ∧
      (∀ i, getSec d i = { getSec s.dev i with quiet := (getSec s.dev i).quiet && !c.set.contains i, iso := [] }) ∧
      ∀ n, getCell d n = { getCell s.dev n with hold := none, stdErr := (getCell d n).stdErr }) ∧
  (∀ (s : State) (c : CommitRun) (k : Nat) (st : AttState), s.steady → tWf epDflt s.dev.net.eps = true →
    s.dev.cfg.commit = some c → c.event = 6 → c.region < 16 → c.prior = [(k, st)] →
    (getSec s.dev (sectorOfAddr (k / 4))).state ≠ .fenced → c.mailbox = true → c.rollback = false → s.mailbox 0x0103 [] →
    s.dev.cfg.boot.reload = false → s.performs .commitEpochHoldEnd [.regs, .cfg, .net, .bureau] fun d =>
      d.ended s 2 0 ∧ d.cfg = { s.dev.cfg with commit := none } ∧ (getEp d k).state = st ∧
      (∀ j, j ≠ k → getEp d j = getEp s.dev j) ∧ bitR d rCommitStatus 31 = false ∧ fldR d rCommitStatus 30 29 = 0 ∧
      fldR d rCommitStatus 23 20 = 0) ∧
  (∀ (s : State) (c : CommitRun), s.steady → s.dev.cfg.commit = some c → c.event = 4 → c.region < 16 → c.set.Nodup →
    tWf (fun _ => 0) s.dev.cfg.active = true → tWf leafDflt s.dev.cfg.leaves = true → (∀ i ∈ c.set, activeLeaf s.dev i ≤ 1) →
    s.performs .commitStrobe [.regs, .cfg, .sectors, .net, .mem, .links, .io, .cab] fun d =>
      fldR d rCommitStatus 63 32 = (fldR s.dev rCommitStatus 63 32 + 1) % 2 ^ 32 ∧
      d.cfg.commit = some { c with event := 5 } ∧ d.cfg.frames = s.dev.cfg.frames ∧ d.cfg.base = s.dev.cfg.base ∧
      (∀ i ∈ c.set, activeLeaf d i = 1 - activeLeaf s.dev i ∧ (getLeaf d i (activeLeaf d i)).state = .active ∧
        (getLeaf d i (activeLeaf d i)).commitId = (fldR s.dev rCommitStatus 63 32 + 1) % 2 ^ 32) ∧
      ∀ i, i ∉ c.set → activeLeaf d i = activeLeaf s.dev i)

/-- A read of a ledger entry (R186): of a leaf that is not EMPTY, a clean word is answered as its data and nothing changes, an
uncorrectable one is answered as ones, and the entry is scheduled; of an EMPTY leaf, a value whose seq_tag is not the leaf's
sequence 0 is answered, and nothing changes. Stored words (R43, R44, R47, R62): ECC_CNT.clr with the threshold disabled; a fill that
ends; an upset of configuration bits inverts them, and the frame then configures what its words say. It rests also on the model's
choices of assumptions 49 and 64. -/
def Obligations.StoredWordsAndLedger : Prop :=
  (∀ (s : State) (l : LeafId) (i : Fin 64) (f : Fin 1536), s.ready → (getLeaf s.dev i.val l.val).state ≠ .empty →
    (decodeWord (getLedger s.dev (frameKey i.val l.val f.val))).outcome = .clean →
    s.becomes (.ledgerRead l i f) fun d =>
      { d with out := [.ledger (decodeWord (getLedger s.dev (frameKey i.val l.val f.val))).data] }) ∧
  (∀ (s : State) (l : LeafId) (i : Fin 64) (f : Fin 1536), s.ready → (getLeaf s.dev i.val l.val).state = .empty →
    s.performs (.ledgerRead l i f) [.free, .out] fun d => ∃ v : Word, d.out = [.ledger v] ∧ fld v 15 0 ≠ 0) ∧
  (∀ (s : State) (l : LeafId) (i : Fin 64) (f : Fin 1536), s.ready → (getLeaf s.dev i.val l.val).state ≠ .empty →
    (decodeWord (getLedger s.dev (frameKey i.val l.val f.val))).outcome = .uncorrectable →
    s.performs (.ledgerRead l i f) [.regs, .eccLog, .cfg, .out] fun d =>
      d.out = [.ledger (BitVec.ofNat 64 (2 ^ 64 - 1))] ∧ frameKey i.val l.val f.val ∈ d.cfg.scrub.scheduled ∧
      d.cfg.ledger = s.dev.cfg.ledger ∧ d.cfg.frames = s.dev.cfg.frames) ∧
  (∀ (s : State) (u : Fin 104) (inc : BitVec 2), s.steady → hasEccCnt u.val = true → fldR s.dev (rEccCnt u.val) 47 32 = 0 →
    s.performs (.eccCntClr u inc) [.regs, .thr] fun d =>
      fldR d (rEccCnt u.val) 15 0 = (inc.getLsbD 0).toNat ∧ fldR d (rEccCnt u.val) 31 16 = (inc.getLsbD 1).toNat ∧
      fldR d (rEccCnt u.val) 63 32 = fldR s.dev (rEccCnt u.val) 63 32 ∧ u.val ∉ d.thr ∧
      ∀ a, a ≠ rEccCnt u.val → getR d a = getR s.dev a) ∧
  (∀ (s : State) (n : Fin 4), s.steady → sramOut s.dev n.val = false → (getDie s.dev n.val).filled = false →
    tWf dieDflt s.dev.mem.sram = true → s.performs (.startUpFillComplete (.sram n)) [.regs, .mem] fun d =>
      getDie d n.val = { getDie s.dev n.val with filled := true } ∧ bitR d rFill (8 + n.val) = true ∧
      d.mem.ddr = s.dev.mem.ddr ∧ ∀ a, a ≠ rFill → getR d a = getR s.dev a) ∧
  (∀ (s : State) (n : Fin 8), s.steady → (getCh s.dev n.val).state = .filling → (getCh s.dev n.val).retry = false →
    tWf chDflt s.dev.mem.ddr = true → s.performs (.startUpFillComplete (.ddr n)) [.regs, .mem] fun d =>
      getCh d n.val = { getCh s.dev n.val with state := .ready, boot := false, firstFill := true } ∧
      bitR d rFill n.val = true ∧ bitR d rFill (16 + n.val) = false ∧ d.mem.sram = s.dev.mem.sram) ∧
  (∀ (s : State) (sec : Fin 64) (l : LeafId) (f : Fin 1536) (bit : Fin 24576) (now : List Setting), s.ready →
    (getSec s.dev sec.val).cfgPower = true → tWf frameDflt s.dev.cfg.frames = true →
    tWf (fun _ => 0) (getFrame s.dev sec.val l.val f.val).words = true →
    s.performs (.configurationUpset (sec.castLT (Nat.lt_trans sec.isLt (by decide))) l f [bit.val] now) [.cfg, .regs, .links] fun d =>
      (getFrame d sec.val l.val f.val).meaning = now ∧
      (getFrame d sec.val l.val f.val).written = (getFrame s.dev sec.val l.val f.val).written ∧
      (∀ w, tGet (fun _ => 0) (getFrame d sec.val l.val f.val).words w =
        if w = bit.val / 64 then tGet (fun _ => 0) (getFrame s.dev sec.val l.val f.val).words w ^^^ BitVec.ofNat 64 (2 ^ (bit.val % 64))
        else tGet (fun _ => 0) (getFrame s.dev sec.val l.val f.val).words w) ∧
      d.cfg.ledger = s.dev.cfg.ledger)

/-- A load starts (R198, R200, R205, R208, R515): an image that fits its copy's header and passes the checks before writing is
taken, and no leaf changes; the configuration port is armed, takes an image of the armed kind, and holds words until they make up a
header; with another load running the command ends with LOAD_ERR_BUSY and LOAD_STATUS stays. The store (R203, R204, R515):
STORE_WRITE to an empty slot gives copy A the image under store_seq 1, with its length, CRC, id and version in the header, and both
wear counts one higher; a retired older copy without single_copy is refused; STORE_SELECT writes both copies of the boot record. It
rests also on the model's choices of assumptions 8, 50, 119, 138 and 140. -/
def Obligations.LoadStartsAndStore : Prop :=
  (∀ (s : State) (slot : Fin 32) (copy : Fin 2) (img : ImageWords), s.steady → slot.val < areaSlots 0 →
    s.mailbox 0x0101 [(0xC00000000000FF03, slot.val * 256 + copy.val)] → jtagHolds s.dev = false → selfTestPending s.dev = false →
    loadWaits s.dev (.store 0 slot copy false) false = false → s.dev.cfg.load = none →
    getCopy s.dev (2 * slot.val + copy.val) = { getCopy s.dev (2 * slot.val + copy.val) with valid := true, image := img } →
    copyFits (getCopy s.dev (2 * slot.val + copy.val)) = true → precheck s.dev img false = 0 →
    s.performs (.loadImage (.store 0 slot copy false)) [.regs, .cfg] fun d =>
      (∃ l, d.cfg.load = some l ∧ l.image = img ∧ l.copy = some (2 * slot.val + copy.val) ∧ l.isPartial = false ∧ l.next = 0 ∧
        l.started = false) ∧
      d.cfg.leaves = s.dev.cfg.leaves ∧ d.cfg.frames = s.dev.cfg.frames ∧ bitR d rLoadStatus 63 = true ∧
      fldR d rLoadStatus 62 61 = 0 ∧ bitR d rLoadStatus 60 = false ∧ fldR d rLoadStatus 31 0 = 0 ∧
      ∀ a, a ≠ rLoadStatus → getR d a = getR s.dev a) ∧
  (∀ (s : State) (slot : Fin 32) (copy : Fin 2) (img : ImageWords), s.steady →
    s.mailbox 0x0102 [(0xC00000000000FF03, 2 ^ 14 + slot.val * 256 + copy.val)] → jtagHolds s.dev = false →
    selfTestPending s.dev = false → loadWaits s.dev (.store 1 slot copy false) true = false → s.dev.cfg.load = none →
    getCopy s.dev (64 + 2 * slot.val + copy.val) = { getCopy s.dev (64 + 2 * slot.val + copy.val) with valid := true, image := img } →
    copyFits (getCopy s.dev (64 + 2 * slot.val + copy.val)) = true → precheck s.dev img true = 0 →
    s.performs (.loadPartial (.store 1 slot copy false)) [.regs, .cfg] fun d =>
      (∃ l, d.cfg.load = some l ∧ l.image = img ∧ l.copy = some (64 + 2 * slot.val + copy.val) ∧ l.isPartial = true ∧ l.next = 0 ∧
        l.region = hRegion (imgWords img)) ∧
      d.cfg.leaves = s.dev.cfg.leaves ∧ d.cfg.frames = s.dev.cfg.frames ∧ bitR d rLoadStatus 63 = true ∧
      bitR d rLoadStatus 60 = true ∧ fldR d rLoadStatus 59 56 = hRegion (imgWords img)) ∧
  (∀ s : State, s.steady → s.mailbox 0x0102 [(3 * 2 ^ 62, 2 ^ 63)] → jtagHolds s.dev = false → selfTestPending s.dev = false →
    s.dev.cfg.load = none → s.performs (.loadPartial .port) [.regs, .cfg] fun d =>
      d.cfg.port = { s.dev.cfg.port with armed := true, armedPartial := true } ∧ d.cfg.load.isSome = true ∧
      d.cfg.leaves = s.dev.cfg.leaves ∧ bitR d rLoadStatus 63 = true ∧ fldR d rLoadStatus 62 61 = 1) ∧
  (∀ (s : State) (l : Load), s.ready → s.mailbox 0x0101 [(3 * 2 ^ 62, 2 ^ 63)] → jtagHolds s.dev = false →
    selfTestPending s.dev = false → s.dev.cfg.load = some l → reactionOf s.dev fltLoadFailed = 0 →
    s.performs (.loadImage .port) [.bureau] fun d => d.ended s 1 1) ∧
  (∀ (s : State) (free : Nat), s.ready → s.performs (.configurationPortImage (.level free)) [.cfg] fun d =>
    d.cfg = { s.dev.cfg with port := { s.dev.cfg.port with busy := decide (free < 64) } }) ∧
  (∀ (s : State) (img : ImageWords) (l : Load), s.steady → s.dev.cfg.load = some l → l.source = .port → l.header = [] →
    s.dev.cfg.port.armed = true → (hGroups (imgWords img)).testBit s.dev.power.cfgGrp = true →
    hPartial (imgWords img) = s.dev.cfg.port.armedPartial → portWaits img s.dev = false → l.isPartial = hPartial (imgWords img) →
    precheck s.dev img l.isPartial = 0 → s.dev.cfg.boot.running = false →
    s.performs (.configurationPortImage (.image img)) [.regs, .cfg] fun d =>
      (∃ m, d.cfg.load = some m ∧ m.image = img ∧ m.source = .port ∧ m.next = 0) ∧ d.cfg.port.armed = false ∧
      d.cfg.leaves = s.dev.cfg.leaves ∧ d.cfg.frames = s.dev.cfg.frames) ∧
  (∀ (s : State) (slot : Fin 32) (img : ImageWords), s.ready → tWf copyDflt s.dev.cfg.store = true →
    s.mailbox 0x0201 [(0xFF03, 2 ^ 14 + slot.val * 256), (2 ^ 32 - 1, 8 * img.length)] → 8 * img.length ≤ 0x5000000 →
    (getCopy s.dev (64 + 2 * slot.val)).valid = false → (getCopy s.dev (64 + 2 * slot.val + 1)).valid = false →
    max (getCopy s.dev (64 + 2 * slot.val)).wear (getCopy s.dev (64 + 2 * slot.val)).wearB < 10000 → s.dev.cfg.load = none → s.dev.cab.run = none →
    copyActive s.dev (64 + 2 * slot.val) = false → repairReads s.dev (64 + 2 * slot.val) = false →
    s.performs (.storeWrite 1 slot false false img .ok) [.cfg, .bureau] fun d =>
      d.ended s 4 0 ∧ getCopy d (64 + 2 * slot.val) =
        { valid := true, seq := 1, length := 8 * img.length, crc := crc32c (imgBytes img), imageId := hImageId (imgWords img)
          version := fld (hword (imgWords img) 2) 31 0, image := img, wear := (getCopy s.dev (64 + 2 * slot.val)).wear + 1
          wearB := (getCopy s.dev (64 + 2 * slot.val)).wearB + 1 } ∧
      ∀ k, k ≠ 64 + 2 * slot.val → getCopy d k = getCopy s.dev k) ∧
  (∀ (s : State) (slot : Fin 32) (img : ImageWords) (res : StoreOutcome), s.ready →
    s.mailbox 0x0201 [(0xFF03, 2 ^ 14 + slot.val * 256), (2 ^ 32 - 1, 8 * img.length)] → 8 * img.length < 2 ^ 32 →
    (getCopy s.dev (64 + 2 * slot.val)).valid = false → (getCopy s.dev (64 + 2 * slot.val + 1)).valid = false →
    10000 ≤ max (getCopy s.dev (64 + 2 * slot.val)).wear (getCopy s.dev (64 + 2 * slot.val)).wearB →
    s.performs (.storeWrite 1 slot false false img res) [.bureau] fun d => d.ended s 4 1 ∧ d.bureau.keys = s.dev.bureau.keys) ∧
  (∀ (s : State) (size : BitVec 6), s.ready → s.mailbox 0x0202 [(0x3F, size.toNat)] →
    s.performs (.storeSelect size) [.cfg, .bureau] fun d =>
      d.ended s 4 0 ∧ d.cfg = { s.dev.cfg with
        bootRecord := some (BootRecord.mk (getR s.dev rBootCfg).toNat (getR s.dev rRefCfg).toNat (fldR s.dev rTbClkCtrl 17 16) size.toNat)
        bootRecordB := some (BootRecord.mk (getR s.dev rBootCfg).toNat (getR s.dev rRefCfg).toNat (fldR s.dev rTbClkCtrl 17 16) size.toNat) }) ∧
  (∀ (s : State) (ds : List (BitVec 16)), s.ready → s.dev.cfg.boot.running = false → s.dev.cfg.port.part.length + ds.length < 64 →
    s.performs (.configurationPortImage (.words ds)) [.cfg] fun d =>
      d.cfg = { s.dev.cfg with port := { s.dev.cfg.port with part := s.dev.cfg.port.part ++ ds } })

/-- A running load (R167, R183, R185, R189, R190, R198, R512): a signature section is passed; a REGIONS section whose checks hold
gives the region masks; a frame record writes its content, its ledger entry and the items that the frame can hold to the leaf being
loaded and counts it, and no other frame changes; an abort makes the leaves being written ABORTED. The end of a load (R171, R173,
R198): a load whose final checks pass leaves every leaf that it wrote SEALED and its record in place of the one of its kind; no
select moves. One whose stream check fails ends with LOAD_ERR_STREAM, its leaves ABORTED. It rests also on the model's choices of
assumptions 29, 50, 51, 64, 137 and 140. -/
def Obligations.LoadRuns : Prop :=
  (∀ (s : State) (l : Load) (e : SectionEntry), s.ready → s.dev.cfg.load = some l → l.plain = [] → l.sections[l.next]? = some e →
    e.kind = 5 → (sectionWords l.image e).any (·.2) = false → writingWaits s.dev l = false → s.dev.cfg.boot.running = false →
    s.performs .imageSection [.cfg] fun d =>
      d.cfg = { s.dev.cfg with load := some { l with next := l.next + 1 } }) ∧
  (∀ (s : State) (l : Load) (e : SectionEntry), s.ready → s.dev.cfg.load = some l → l.plain = [] → l.sections[l.next]? = some e →
    e.kind = 2 → e.encrypted = false → (sectionWords l.image e).any (·.2) = false →
    crc32c (imgBytes (sectionWords l.image e)) = e.crc → writingWaits s.dev l = false → s.dev.cfg.boot.running = false →
    regionsOk (hMask l.header) ((imgWords (sectionWords l.image e)).map (·.toNat)) = true →
    s.performs .imageSection [.cfg] fun d =>
      d.cfg = { s.dev.cfg with load := some { l with next := l.next + 1, base := { l.base with
        regions := (imgWords (sectionWords l.image e)).map (·.toNat) } } }) ∧
  (∀ (s : State) (l : Load) (r : FrameRec) (a lf : Nat) (g : List Setting), s.steady → s.dev.cfg.load = some l →
    parseRecord (l.plain.drop l.pos) = some r → r.addrs = [a] → namesFrame a = true → a ∉ l.seen → l.isPartial = false →
    (hMask l.header).testBit (a / 2048) = true → s.dev.cfg.gate.testBit (a / 2048) = true →
    crc32c (wordBytes r.content) = r.crc → recordPoisoned (l.plain.drop l.pos) = false → s.dev.cfg.boot.running = false →
    l.leaves = [(a / 2048, lf)] → l.pos + r.used < l.plain.length →
    tWf frameDflt s.dev.cfg.frames = true → tWf (ledgerDflt s.dev) s.dev.cfg.ledger = true →
    s.performs (.frameRecord [g] 0) [.regs, .cfg] fun d =>
      (getFrame d (a / 2048) lf (a % 2048)).meaning = g.filter (frameHolds (a / 2048) (a % 2048)) ∧
      (getFrame d (a / 2048) lf (a % 2048)).written = g.filter (frameHolds (a / 2048) (a % 2048)) ∧
      (∀ w : Nat, w < 384 → tGet (fun _ => 0) (getFrame d (a / 2048) lf (a % 2048)).words w = nth 0 r.content w) ∧
      getLedger d (frameKey (a / 2048) lf (a % 2048)) =
        encodeWord (ledgerOf r.content (getLeaf s.dev (a / 2048) lf).seq) false ∧
      (∀ j n k, frameKey j n k ≠ frameKey (a / 2048) lf (a % 2048) → getFrame d j n k = getFrame s.dev j n k) ∧
      d.cfg.leaves = s.dev.cfg.leaves ∧ d.cfg.active = s.dev.cfg.active ∧
      fldR d rLoadStatus 31 0 = min (fldR s.dev rLoadStatus 31 0 + 1) (2 ^ 32 - 1)) ∧
  (∀ (s : State) (p : Path) (l : Load) (i lf : Nat), s.steady → s.dev.cfg.load = some l → l.mailbox = true → l.boot = false →
    fldR s.dev rMbxClaim 1 0 = 0 → l.leaves = [(i, lf)] → (getLeaf s.dev i lf).state = .loading → l.isPartial = false →
    s.mailbox 0x0101 [] → reactionOf s.dev fltLoadFailed = 0 → tWf leafDflt s.dev.cfg.leaves = true →
    s.performs (.loadAbort p) [.regs, .cfg, .bureau] fun d =>
      d.ended s 1 0x12 ∧ d.cfg.load = none ∧ (getLeaf d i lf).state = .aborted ∧ d.cfg.frames = s.dev.cfg.frames ∧
      d.cfg.active = s.dev.cfg.active ∧ bitR d rLoadStatus 63 = false ∧ fldR d rLoadStatus 55 48 = 0x12) ∧
  (∀ (s : State) (l : Load) (i lf : Nat), s.steady → s.dev.cfg.load = some l → l.sections ≠ [] → l.sections.length ≤ l.next →
    l.plain = [] → l.started = true → (l.image.drop (l.image.length - 4)).any (·.2) = false → trailerOk (imgWords l.image) = true →
    (nth 0 (trailer (imgWords l.image)) 2).toNat = l.seen.length →
    (nth 0 (trailer (imgWords l.image)) 1).toNat = streamCrc s.dev l → hSigned l.header = false → l.leaves = [(i, lf)] →
    l.mailbox = true → l.boot = false → l.isPartial = false → s.mailbox 0x0101 [] → tWf leafDflt s.dev.cfg.leaves = true →
    s.performs .loadComplete [.regs, .cfg, .bureau] fun d =>
      d.ended s 1 0 ∧ d.cfg.load = none ∧ (getLeaf d i lf) = { getLeaf s.dev i lf with state := .sealed } ∧
      (∀ j k, 2 * j + k ≠ 2 * i + lf → getLeaf d j k = getLeaf s.dev j k) ∧
      (∃ r, recordOf d 16 = some r ∧ r.imageId = hImageId l.header ∧ r.sectors = [(i, (getLeaf s.dev i lf).seq)]) ∧
      d.cfg.active = s.dev.cfg.active ∧ d.cfg.frames = s.dev.cfg.frames ∧ bitR d rLoadStatus 63 = false ∧
      fldR d rLoadStatus 55 48 = 0) ∧
  (∀ (s : State) (l : Load) (i lf : Nat), s.steady → s.dev.cfg.load = some l → l.sections ≠ [] → l.sections.length ≤ l.next →
    l.plain = [] → l.started = true → (l.image.drop (l.image.length - 4)).any (·.2) = false → trailerOk (imgWords l.image) = false →
    l.leaves = [(i, lf)] → (getLeaf s.dev i lf).state = .loading → l.mailbox = true → l.boot = false → l.isPartial = false →
    s.mailbox 0x0101 [] → reactionOf s.dev fltLoadFailed = 0 → tWf leafDflt s.dev.cfg.leaves = true →
    s.dev.cfg.boot.running = false → s.performs .loadComplete [.regs, .cfg, .bureau] fun d =>
      d.ended s 1 0x13 ∧ d.cfg.load = none ∧ (getLeaf d i lf).state = .aborted ∧ d.cfg.records = s.dev.cfg.records)

/-- Start-up (R210, R213, R214): the boot procedure waits for the host where boot_source says so, and arms the port where it says
that; events 2 to 4, 6 once every Drawer has been initialised, 7 and 8, and the time-out of event 2. It rests also on the model's
choice of assumption 63. -/
def Obligations.StartUp : Prop :=
  (∀ s : State, s.ready → s.dev.cfg.boot.due = true → selfTestPending s.dev = false → s.dev.cfg.regions = [] →
    s.dev.clk.mgmt.cur = 1 → 2 ≤ fldR s.dev rBootCfg 17 16 → s.performs .bootProcedure [.cfg] fun d =>
      d.cfg = { s.dev.cfg with boot := { s.dev.cfg.boot with due := false, running := false, attempt := none, waitHost := true } }) ∧
  (∀ s : State, s.ready → s.dev.cfg.boot.due = true → selfTestPending s.dev = false → s.dev.cfg.regions = [] →
    s.dev.clk.mgmt.cur = 1 → s.dev.clk.reduced = false → s.dev.cfg.load = none → jtagHolds s.dev = false →
    fldR s.dev rBootCfg 17 16 = 1 → s.performs .bootProcedure [.regs, .cfg] fun d =>
      d.cfg.boot.due = false ∧ d.cfg.boot.running = true ∧ d.cfg.port = { s.dev.cfg.port with armed := true, armedPartial := false } ∧
      (∃ l, d.cfg.load = some l ∧ l.source = .port ∧ l.boot = true) ∧ d.cfg.leaves = s.dev.cfg.leaves) ∧
  (∀ (s : State) (u : StartupRun), s.steady → s.dev.cfg.startup = some u → u.event = 1 → u.warm = true → s.dev.cfg.base = none →
    s.performs .startupPllsLocked [.regs, .cfg] fun d =>
      d.cfg = { s.dev.cfg with startup := some { u with event := 2 } } ∧ bitR d rBar4 63 = false) ∧
  (∀ (s : State) (u : StartupRun) (r : LoadRecord), s.steady → s.dev.cfg.startup = some u → u.event = 1 → u.warm = false →
    (enabledPlls s.dev.cfg.loadedBase).all (fun p => pllState s.dev p ≠ .off && pllHasRef s.dev p) = true →
    recordOf s.dev 16 = some r → (r.sectors.map (·.1)).Nodup → tWf (fun _ => 0) s.dev.cfg.active = true →
    tWf leafDflt s.dev.cfg.leaves = true → (∀ e ∈ r.sectors, activeLeaf s.dev e.1 ≤ 1) →
    s.performs .startupPllsLocked [.regs, .clk, .cfg, .sectors, .net, .mem, .links, .io, .cab] fun d =>
      d.cfg.startup = some { u with event := 3 } ∧ d.cfg.base = s.dev.cfg.loadedBase ∧ d.cfg.prevBase = s.dev.cfg.base ∧
      fldR d rCommitStatus 63 32 = (fldR s.dev rCommitStatus 63 32 + 1) % 2 ^ 32 ∧
      (∀ i ∈ r.sectors.map (·.1), activeLeaf d i = 1 - activeLeaf s.dev i ∧ (getLeaf d i (activeLeaf d i)).state = .active) ∧
      ∀ i, i ∉ r.sectors.map (·.1) → activeLeaf d i = activeLeaf s.dev i) ∧
  (∀ (s : State) (u : StartupRun), s.steady → s.dev.cfg.startup = some u → u.event = 1 → u.fromCommit = true → u.boot = false →
    s.dev.cfg.boot.running = false → s.mailbox 0x0103 [] → reactionOf s.dev fltLoadFailed = 0 → s.performs .startupPllTimeout [.regs, .cfg, .bureau] fun d =>
      d.ended s 2 13 ∧ d.cfg = { s.dev.cfg with startup := none } ∧ fldR d rLoadStatus 55 48 = 0x15 ∧
      fldR d rCommitStatus 23 20 = 13 ∧ bitR d rCommitStatus 31 = false) ∧
  (∀ (s : State) (u : StartupRun), s.ready → s.dev.cfg.startup = some u → u.event = 3 → u.warm = false →
    tWf sectorDflt s.dev.sectors = true → s.performs .startupClocksStart [.cfg, .sectors] fun d =>
      d.cfg = { s.dev.cfg with startup := some { u with event := 4 } } ∧
      (∀ i ∈ startSectors s.dev, (getSec d i).clocks = true ∧ (getSec d i).gsr = (getSec s.dev i).gsr) ∧
      ∀ i, i ∉ startSectors s.dev → getSec d i = getSec s.dev i) ∧
  (∀ (s : State) (u : StartupRun) (q : Fin 4), s.ready → s.dev.cfg.startup = some u → u.event = 4 → q.val ∉ u.released →
    (startSectors s.dev).all (initsEnded ((startSectors s.dev).foldl finishInit s.dev)) = true →
    tWf sectorDflt s.dev.sectors = true → tWf epDflt s.dev.net.eps = true →
    s.performs (.startupQuadrantRelease q) [.cfg, .sectors, .net] fun d =>
      d.cfg = { s.dev.cfg with startup := some { u with released := q.val :: u.released } } ∧
      (∀ i ∈ startSectors s.dev, quadrantOf i = q.val →
        (getSec d i).state = .active ∧ (getSec d i).gsrDue = true ∧ ∀ k ∈ sectorAtts i, (getEp d k).state = .active) ∧
      ∀ i, quadrantOf i ≠ q.val → getSec d i = getSec s.dev i) ∧
  (∀ (s : State) (u : StartupRun), s.ready → s.dev.cfg.startup = some u → u.event = 4 →
    (startSectors s.dev).all (fun i => u.released.contains (quadrantOf i)) = true → reactionOf s.dev fltIoStandard = 0 →
    s.performs .startupOutputRelease [.regs, .cfg, .io, .power] fun d =>
      d.cfg = { s.dev.cfg with startup := some { u with event := 7 } } ∧ d.power = { s.dev.power with pinsHeld := false }) ∧
  (∀ (s : State) (u : StartupRun), s.ready → s.calm → s.dev.cfg.startup = some u → u.event = 7 → u.fromCommit = true →
    s.mailbox 0x0103 [] → s.dev.cfg.base = some { healthMs := 5 } →
    s.performs .startupDone [.regs, .cfg, .bureau, .links, .net, .power, .groups, .flog, .out] fun d =>
      d.ended s 2 0 ∧ d.cfg.done = true ∧ d.cfg.confErrN = true ∧ d.cfg.startup = none ∧ d.cfg.active = s.dev.cfg.active ∧
      d.cfg.health = { running := true, afterBoot := u.boot, afterCommit := true, ms := 5, count := fldR s.dev rCommitStatus 63 32 })

/-- The health check (R216 to R218): it passes when USER_OK is seen; its time-out without health_rollback raises the fault and
leaves the image running. RECONFIGURE (R212, R216, R515): it is answered OK, every sector that does not stay OFF enters the
initial-load state with its attachments RESETTING, the pins are held, DONE is low, and the boot procedure is due. It rests also on
the model's choice of assumption 110. -/
def Obligations.HealthAndReconfigure : Prop :=
  (∀ (s : State) (inputs : BitVec 64), s.steady → s.dev.cfg.health.running = true → userOk s.dev inputs = true →
    s.performs (.healthCheckPass inputs) [.regs, .cfg, .sectors] fun d =>
      d.cfg = { s.dev.cfg with health := { s.dev.cfg.health with running := false } } ∧ bitR d rHealth 63 = true ∧
      bitR d rHealth 62 = true ∧ bitR d rHealth 60 = false ∧ fldR d rHealth 31 0 = 0 ∧
      ∀ a, a ≠ rHealth → getR d a = getR s.dev a) ∧
  (∀ s : State, s.steady → s.dev.cfg.health.running = true → bitR s.dev rBootCfg 12 = false → reactionOf s.dev fltHealth = 0 →
    s.performs .healthTimeout [.regs, .cfg] fun d =>
      d.cfg = { s.dev.cfg with health := { s.dev.cfg.health with running := false } } ∧ bitR d rHealth 61 = true ∧
      bitR d rHealth 60 = false ∧ ∀ a, a ≠ rHealth → getR d a = getR s.dev a) ∧
  (∀ s : State, s.ready → s.calm → s.mailbox 0x0105 [] → s.dev.cfg.commit = none → s.dev.cfg.regions = [] →
    tWf sectorDflt s.dev.sectors = true → tWf epDflt s.dev.net.eps = true →
    s.performs .reconfigure [.regs, .sectors, .clk, .cfg, .net, .mem, .cab, .links, .io, .groups, .flog, .power, .bureau, .free, .out]
      fun d => d.ended s 0 0 ∧ d.cfg.done = false ∧ d.cfg.confErrN = true ∧ d.cfg.boot = {} ∧ d.power.pinsHeld = true ∧
        d.cfg.load = none ∧ d.cfg.startup = none ∧ d.cfg.active = s.dev.cfg.active ∧
        ∀ i, i < 64 → staysOff s.dev i = false →
          (getSec d i).state = .initialLoad ∧ (getSec d i).gsr = true ∧ ∀ k ∈ sectorAtts i, (getEp d k).state = .resetting)

/-- Region commands at acceptance (R232, R233, R235, R236, R237, R515): FENCE and UNFENCE move every sector of the region and its
attachments; a check that fails gives its result and changes nothing else; RESET, POWER off and POWER on start their sequences. It
rests also on the model's choices of assumptions 8 and 59. -/
def Obligations.RegionCommands : Prop :=
  (∀ (s : State) (r : Fin 16), s.steady → tWf sectorDflt s.dev.sectors = true → tWf epDflt s.dev.net.eps = true →
    s.mailbox 0x0301 [(0xF, r.val)] → regionCheck s.dev r.val false [.active, .fenced] = 0 → s.dev.cfg.commit = none →
    s.performs (.regionFence r) [.regs, .cfg, .sectors, .net, .bureau] fun d =>
      d.ended s 5 0 ∧ fldR d (rRegionStatus r.val) 51 44 = 0 ∧
      (∀ i ∈ regionLive s.dev r.val, (getSec s.dev i).state = .active →
        (getSec d i).state = .fenced ∧ ∀ k ∈ sectorAtts i, (getEp d k).state = .fenced) ∧
      ∀ i, i ∉ regionLive s.dev r.val → getSec d i = getSec s.dev i) ∧
  (∀ (s : State) (r : Fin 16) (e : Nat), s.steady → s.mailbox 0x0301 [(0xF, r.val)] →
    regionCheck s.dev r.val false [.active, .fenced] = e → e ≠ 0 → s.performs (.regionFence r) [.regs, .bureau] fun d =>
      d.ended s 5 e ∧ fldR d (rRegionStatus r.val) 51 44 = e ∧ ∀ a, a ≠ rRegionStatus r.val → getR d a = getR s.dev a) ∧
  (∀ (s : State) (r : Fin 16), s.steady → tWf sectorDflt s.dev.sectors = true → tWf epDflt s.dev.net.eps = true →
    s.mailbox 0x0302 [(0xF, r.val)] → regionCheck s.dev r.val false [.fenced] = 0 → s.dev.cfg.commit = none →
    (regionSectors s.dev r.val).any (secEscalated s.dev) = false →
    s.performs (.regionUnfence r) [.regs, .sectors, .net, .bureau] fun d =>
      d.ended s 5 0 ∧ (∀ i ∈ regionLive s.dev r.val,
        (getSec d i).state = .active ∧ ∀ k ∈ sectorAtts i, (getEp d k).state = .active) ∧
      ∀ i, i ∉ regionLive s.dev r.val → getSec d i = getSec s.dev i) ∧
  (∀ (s : State) (r : Fin 16), s.steady → s.mailbox 0x0302 [(0xF, r.val)] → regionCheck s.dev r.val false [.fenced] = 0 →
    s.dev.cfg.commit = none → (regionSectors s.dev r.val).any (secEscalated s.dev) = true →
    s.performs (.regionUnfence r) [.regs, .bureau] fun d =>
      d.ended s 5 4 ∧ fldR d (rRegionStatus r.val) 51 44 = 4 ∧ ∀ a, a ≠ rRegionStatus r.val → getR d a = getR s.dev a) ∧
  (∀ (s : State) (r : Fin 16), s.steady → tWf sectorDflt s.dev.sectors = true → s.mailbox 0x0303 [(0x10F, r.val + 0x100)] →
    regionCheck s.dev r.val false [.active, .fenced] = 0 → s.dev.cfg.commit = none →
    s.performs (.regionResetAssert r) [.regs, .cfg, .sectors, .net] fun d =>
      d.cfg.regions = s.dev.cfg.regions ++ [{ region := r.val, cmd := .reset, event := 1, prior := regionState s.dev r.val }] ∧
      bitR d (rRegionStatus r.val) 63 = true ∧ fldR d (rRegionStatus r.val) 59 56 = 1 ∧
      (∀ i ∈ regionLive s.dev r.val, (getSec s.dev i).state = .active → (getSec d i).state = .fenced) ∧
      ∀ i, i ∉ regionLive s.dev r.val → getSec d i = getSec s.dev i) ∧
  (∀ (s : State) (r : Fin 16), s.steady → tWf sectorDflt s.dev.sectors = true → tWf epDflt s.dev.net.eps = true →
    s.mailbox 0x0303 [(0x10F, r.val)] → regionCheck s.dev r.val false [.resetting] = 0 →
    s.performs (.regionResetRelease r) [.regs, .sectors, .net, .bureau] fun d =>
      d.ended s 5 0 ∧ (∀ i ∈ regionLive s.dev r.val,
        (getSec d i).state = .fenced ∧ (getSec d i).gsrDue = true ∧ ∀ k ∈ sectorAtts i, (getEp d k).state = .fenced) ∧
      ∀ i, i ∉ regionLive s.dev r.val → getSec d i = getSec s.dev i) ∧
  (∀ (s : State) (r : Fin 16), s.steady → tWf sectorDflt s.dev.sectors = true → s.mailbox 0x0304 [(0x30F, r.val)] →
    regionCheck s.dev r.val false [.active, .fenced, .resetting] = 0 → s.dev.cfg.commit = none →
    s.performs (.regionPowerOffRetain r) [.regs, .cfg, .sectors, .net] fun d =>
      d.cfg.regions = s.dev.cfg.regions ++ [{ region := r.val, cmd := .offRetain, event := 1, prior := regionState s.dev r.val }] ∧
      bitR d (rRegionStatus r.val) 63 = true ∧
      (∀ i ∈ regionLive s.dev r.val, (getSec s.dev i).state = .active → (getSec d i).state = .fenced) ∧
      ∀ i, i ∉ regionLive s.dev r.val → getSec d i = getSec s.dev i) ∧
  (∀ (s : State) (r : Fin 16), s.steady → s.mailbox 0x0304 [(0x30F, r.val + 0x100)] →
    regionCheck s.dev r.val true [.active, .fenced, .resetting, .offRetained] = 0 → s.dev.cfg.commit = none →
    regionState s.dev r.val = .offRetained → s.performs (.regionPowerOffLose r) [.regs, .cfg] fun d =>
      d.cfg = { s.dev.cfg with regions := s.dev.cfg.regions ++ [{ region := r.val, cmd := .offLose, event := 6, prior := .offRetained }] } ∧
      bitR d (rRegionStatus r.val) 63 = true ∧ fldR d (rRegionStatus r.val) 59 56 = 6) ∧
  (∀ (s : State) (r : Fin 16), s.steady → tWf sectorDflt s.dev.sectors = true → tWf epDflt s.dev.net.eps = true →
    s.mailbox 0x0304 [(0x30F, r.val + 0x200)] → regionCheck s.dev r.val false [.offRetained, .offLost] = 0 →
    regionState s.dev r.val = .offRetained →
    s.performs (.regionPowerOn r) [.regs, .cfg, .sectors, .net, .mem, .cab, .links] fun d =>
      d.cfg.regions = s.dev.cfg.regions ++
        [{ region := r.val, cmd := .on, event := 1, prior := .offRetained, switches := 1 }] ∧
      (∀ i ∈ regionLive s.dev r.val, (getSec d i).state = .resetting ∧ ∀ k ∈ sectorAtts i, (getEp d k).state = .resetting) ∧
      ∀ i, i ∉ regionLive s.dev r.val → getSec d i = getSec s.dev i) ∧
  (∀ (s : State) (r : Fin 16), s.steady → s.mailbox 0x0304 [(0x30F, r.val + 0x200)] →
    regionCheck s.dev r.val false [.offRetained, .offLost] = 0 → regionState s.dev r.val = .offLost →
    regionLoaded s.dev r.val = false → s.performs (.regionPowerOn r) [.regs, .bureau] fun d =>
      d.ended s 5 5 ∧ fldR d (rRegionStatus r.val) 51 44 = 5 ∧ ∀ a, a ≠ rRegionStatus r.val → getR d a = getR s.dev a)

/-- Power-down and region reset (R233, R234, R236): each event of the sequence, and the drain time-out under both values of
drain_policy: the queues are emptied, or the region returns to its state. Power-up (R57, R231, R237): the next supply switch closes;
VCC_FAB good; VCC_FAB not good gives REGION_ERR_POWER and the earlier OFF state; clocks start; once every Drawer has been
initialised, global set/reset is released and the attachments are FENCED. It rests also on the model's choices of assumptions 55 to
58. -/
def Obligations.RegionSequences : Prop :=
  (∀ (s : State) (r : Fin 16) (us : Nat) (q : RegionSeq), s.steady → s.dev.cfg.regions = [q] → q.region = r.val → q.cmd ≠ .on →
    q.event = 1 → (regionLive s.dev r.val).all (sectorDrained s.dev) = true →
    s.performs (.regionDrainComplete r us) [.regs, .cfg] fun d =>
      d.cfg = { s.dev.cfg with regions := [{ q with event := 2 }] } ∧ fldR d (rRegionStatus r.val) 59 56 = 2 ∧
      fldR d (rRegionStatus r.val) 19 0 = min us (2 ^ 20 - 1)) ∧
  (∀ (s : State) (r : Fin 16) (q : RegionSeq), s.steady → s.dev.cfg.regions = [q] → q.region = r.val → q.cmd ≠ .on →
    q.event = 1 → (regionLive s.dev r.val).all (sectorDrained s.dev) = false → bitR s.dev rRegionCfg 20 = true →
    tWf epDflt s.dev.net.eps = true → s.performs (.regionDrainTimeout r) [.regs, .cfg, .net] fun d =>
      d.cfg = { s.dev.cfg with regions := [{ q with event := 2 }] } ∧ fldR d (rRegionStatus r.val) 59 56 = 2 ∧
      fldR d (rRegionStatus r.val) 19 0 = min (max (fldR s.dev rRegionCfg 19 0) 1) 1000000 ∧
      (∀ i ∈ regionLive s.dev r.val, ∀ k ∈ sectorAtts i, (getEp d k).inq = [] ∧ (getEp d k).outq = []) ∧
      ∀ k, (∀ i ∈ regionLive s.dev r.val, k ∉ sectorAtts i) → getEp d k = getEp s.dev k) ∧
  (∀ (s : State) (r : Fin 16) (q : RegionSeq), s.steady → tWf sectorDflt s.dev.sectors = true → tWf epDflt s.dev.net.eps = true →
    s.dev.cfg.regions = [q] → q.region = r.val → q.cmd = .offRetain → q.prior = .active → q.ended = false → q.event = 1 →
    s.mailbox 0x0304 [] → (regionLive s.dev r.val).all (sectorDrained s.dev) = false → bitR s.dev rRegionCfg 20 = false →
    s.performs (.regionDrainTimeout r) [.regs, .cfg, .sectors, .net, .bureau] fun d =>
      d.ended s 5 6 ∧ d.cfg = { s.dev.cfg with regions := [] } ∧ bitR d (rRegionStatus r.val) 63 = false ∧
      fldR d (rRegionStatus r.val) 51 44 = 6 ∧
      ∀ i ∈ regionLive s.dev r.val, (getSec d i).state = .active ∧ ∀ k ∈ sectorAtts i, (getEp d k).state = .active) ∧
  (∀ (s : State) (r : Fin 16) (q : RegionSeq), s.steady → tWf sectorDflt s.dev.sectors = true → tWf epDflt s.dev.net.eps = true →
    s.dev.cfg.regions = [q] → q.region = r.val → q.cmd = .reset → q.ended = false → q.event = 2 → s.mailbox 0x0303 [] →
    s.performs (.regionClocksStopped r) [.regs, .cfg, .sectors, .net, .mem, .cab, .links, .io, .bureau] fun d =>
      d.ended s 5 0 ∧ d.cfg = { s.dev.cfg with regions := [] } ∧ fldR d (rRegionStatus r.val) 59 56 = 0 ∧
      (∀ i ∈ regionLive s.dev r.val, (getSec d i).state = .resetting ∧ (getSec d i).gsr = true ∧ (getSec d i).clocks = true ∧
        ∀ k ∈ sectorAtts i, (getEp d k).state = .resetting ∧ (getEp d k).epoch = ((getEp s.dev k).epoch + 1) % 4 ∧
          (getEp d k).inq = [] ∧ (getEp d k).outq = []) ∧
      ∀ i, i ∉ regionLive s.dev r.val → getSec d i = getSec s.dev i) ∧
  (∀ (s : State) (r : Fin 16) (q : RegionSeq), s.steady → tWf sectorDflt s.dev.sectors = true → s.dev.cfg.regions = [q] →
    q.region = r.val → q.cmd = .offRetain → q.event = 2 → s.performs (.regionClocksStopped r) [.regs, .cfg, .sectors] fun d =>
      d.cfg = { s.dev.cfg with regions := [{ q with event := 4 }] } ∧
      ∀ i, getSec d i = if i ∈ regionLive s.dev r.val then { getSec s.dev i with clocks := false } else getSec s.dev i) ∧
  (∀ (s : State) (r : Fin 16) (q : RegionSeq), s.steady → tWf sectorDflt s.dev.sectors = true → tWf epDflt s.dev.net.eps = true →
    s.dev.cfg.regions = [q] → q.region = r.val → q.cmd = .offLose → q.event = 4 →
    s.performs (.regionAttachmentsOff r) [.regs, .cfg, .sectors, .net, .mem, .cab, .links] fun d =>
      d.cfg = { s.dev.cfg with regions := [{ q with event := 5 }] } ∧
      (∀ i ∈ regionLive s.dev r.val, (getSec d i).state = .offRetained ∧
        ∀ k ∈ sectorAtts i, (getEp d k).state = .off ∧ (getEp d k).epoch = ((getEp s.dev k).epoch + 1) % 4) ∧
      ∀ i, i ∉ regionLive s.dev r.val → getSec d i = getSec s.dev i) ∧
  (∀ (s : State) (r : Fin 16) (q : RegionSeq), s.steady → tWf sectorDflt s.dev.sectors = true → s.dev.cfg.regions = [q] →
    q.region = r.val → q.cmd = .offRetain → q.ended = false → q.event = 5 → s.mailbox 0x0304 [] →
    s.performs (.vccFabSwitchOpen r) [.regs, .cfg, .sectors, .bureau] fun d =>
      d.ended s 5 0 ∧ d.cfg = { s.dev.cfg with regions := [] } ∧
      (∀ i ∈ regionLive s.dev r.val, (getSec d i).vcc = false ∧ (getSec d i).ffs = [] ∧ (getSec d i).benches = [] ∧ (getSec d i).drawers = [] ∧
        (getSec d i).hinges = [] ∧
        (getSec d i).state = (getSec s.dev i).state) ∧
      ∀ i, i ∉ regionLive s.dev r.val → getSec d i = getSec s.dev i) ∧
  (∀ (s : State) (r : Fin 16) (q : RegionSeq), s.steady → tWf sectorDflt s.dev.sectors = true →
    tWf leafDflt s.dev.cfg.leaves = true → s.dev.cfg.regions = [q] → q.region = r.val → q.cmd = .offLose → q.ended = false →
    q.event = 6 → s.mailbox 0x0304 [] → s.performs (.configurationUnpowered r) [.regs, .cfg, .sectors, .links, .bureau] fun d =>
      d.ended s 5 0 ∧ d.cfg.regions = [] ∧
      (∀ i ∈ regionLive s.dev r.val, (getSec d i).state = .offLost ∧ getLeaf d i 0 = {} ∧ getLeaf d i 1 = {}) ∧
      ∀ i, i ∉ regionLive s.dev r.val → getSec d i = getSec s.dev i ∧ getLeaf d i 0 = getLeaf s.dev i 0 ∧
        getLeaf d i 1 = getLeaf s.dev i 1) ∧
  (∀ (s : State) (r : Fin 16) (q : RegionSeq) (i : Nat), s.steady → tWf sectorDflt s.dev.sectors = true →
    s.dev.cfg.regions = [q] → q.region = r.val → q.cmd = .on → q.event = 1 →
    (regionLive s.dev r.val)[q.switches]? = some i → s.performs (.vccFabSwitchClose r) [.regs, .cfg, .sectors] fun d =>
      d.cfg = { s.dev.cfg with regions := [{ q with switches := q.switches + 1, event := 1 }] } ∧ (getSec d i).vcc = true ∧
      (getSec d i).gsr = true ∧ ∀ j, j ≠ i → getSec d j = getSec s.dev j) ∧
  (∀ (s : State) (r : Fin 16) (q : RegionSeq), s.steady → s.dev.cfg.regions = [q] → q.region = r.val → q.cmd = .on →
    q.event = 1 → q.prior = .offRetained → q.ended = false → (regionLive s.dev r.val).length ≤ q.switches →
    s.performs (.vccFabGood r) [.regs, .cfg] fun d =>
      d.cfg = { s.dev.cfg with regions := [{ q with event := 2 }] } ∧ fldR d (rRegionStatus r.val) 59 56 = 2) ∧
  (∀ (s : State) (r : Fin 16) (q : RegionSeq) (sec : Fin 64) (mv : BitVec 16), s.steady → tWf sectorDflt s.dev.sectors = true →
    tWf epDflt s.dev.net.eps = true → s.dev.cfg.regions = [q] → q.region = r.val → q.cmd = .on → q.event = 1 → q.ended = false →
    s.mailbox 0x0304 [] → reactionOf s.dev fltSectorPower = 0 →
    s.performs (.fltSectorPower r sec mv) [.regs, .cfg, .sectors, .net, .bureau] fun d =>
      d.ended s 5 7 ∧ d.cfg = { s.dev.cfg with regions := [] } ∧ fldR d (rRegionStatus r.val) 51 44 = 7 ∧
      (∀ i ∈ regionLive s.dev r.val, (getSec d i).state = q.prior ∧ (getSec d i).vcc = false ∧
        ∀ k ∈ sectorAtts i, (getEp d k).state = .off) ∧
      ∀ i, i ∉ regionLive s.dev r.val → getSec d i = getSec s.dev i) ∧
  (∀ (s : State) (r : Fin 16) (q : RegionSeq), s.steady → tWf sectorDflt s.dev.sectors = true → s.dev.cfg.regions = [q] →
    q.region = r.val → q.cmd = .on → q.event = 2 → s.performs (.regionPowerUpClocksStart r) [.regs, .cfg, .sectors] fun d =>
      (∃ p, d.cfg = { s.dev.cfg with regions := [{ q with event := p }] } ∧ (p = 4 ∨ p = 5)) ∧
      (∀ i ∈ regionLive s.dev r.val, (getSec d i).clocks = true ∧ (getSec d i).fresh = false) ∧
      ∀ i, i ∉ regionLive s.dev r.val → getSec d i = getSec s.dev i) ∧
  (∀ (s : State) (r : Fin 16) (q : RegionSeq), s.steady → tWf sectorDflt s.dev.sectors = true → tWf epDflt s.dev.net.eps = true →
    s.dev.cfg.regions = [q] → q.region = r.val → q.cmd = .on → q.event = 5 → q.ended = false → s.mailbox 0x0304 [] →
    (regionLive s.dev r.val).all (initsEnded ((regionLive s.dev r.val).foldl finishInit s.dev)) = true →
    reactionOf s.dev fltIoStandard = 0 → s.performs (.regionPowerUpRelease r) [.regs, .cfg, .sectors, .net, .bureau, .io] fun d =>
      d.ended s 5 0 ∧ d.cfg = { s.dev.cfg with regions := [] } ∧ bitR d (rRegionStatus r.val) 63 = false ∧
      (∀ i ∈ regionLive s.dev r.val, (getSec d i).state = .fenced ∧ (getSec d i).gsrDue = true ∧
        ∀ k ∈ sectorAtts i, (getEp d k).state = .fenced) ∧
      ∀ i, i ∉ regionLive s.dev r.val → getSec d i = getSec s.dev i)

/-- A fault is raised (R487, R489, R490, R492, R499): with reaction 0 nothing happens; with reaction 1 a free record takes it, and a
full one counts it; with reaction 2 the group's vector is sent; with reaction 3 the group starts timing with the affected set.
Acknowledgement and the collector's registers (R493, R495, R498, R500, R502, R515): a group that is timing or escalated returns to
IDLE and its holds end; a sector that no group holds and that belongs to no region returns to ACTIVE; FAULT_ACK does so for the
groups of its mask; freeing a record, which a fault of the same cycle fills again (R2); the lock; FLT_INJECT does nothing on a
shipped part, and raises the source that it names in factory test mode. It rests also on the model's choices of assumptions 104, 105
and 126. -/
def Obligations.FaultCollector : Prop :=
  (∀ (s : State) (id : Fin 4096) (detail scope : Word), s.ready → reactionOf s.dev id.val = 0 →
    s.becomes (.faultRaise id detail scope) fun d => d) ∧
  (∀ (s : State) (id : Fin 4096) (detail scope : Word), s.ready → isSource id.val = true → reactionOf s.dev id.val = 1 →
    tWf groupDflt s.dev.groups = true → (getGroup s.dev (id.val / 512)).valid = false →
    s.performs (.faultRaise id detail scope) [.groups, .flog] fun d =>
      getGroup d (id.val / 512) = { getGroup s.dev (id.val / 512) with
        valid := true, overflow := false, count := 1, source := id.val, detail := detail.toNat
        time := time80 s.dev % 2 ^ 64 } ∧
      (∀ g, g ≠ id.val / 512 → getGroup d g = getGroup s.dev g) ∧ d.flog.next = s.dev.flog.next + 1) ∧
  (∀ (s : State) (id : Fin 4096) (detail scope : Word), s.ready → isSource id.val = true → reactionOf s.dev id.val = 1 →
    tWf groupDflt s.dev.groups = true → (getGroup s.dev (id.val / 512)).valid = true →
    s.performs (.faultRaise id detail scope) [.groups] fun d =>
      getGroup d (id.val / 512) = { getGroup s.dev (id.val / 512) with
        count := min ((getGroup s.dev (id.val / 512)).count + 1) 0xFFFF, overflow := true } ∧
      ∀ g, g ≠ id.val / 512 → getGroup d g = getGroup s.dev g) ∧
  (∀ (s : State) (id : Fin 4096) (detail scope : Word), s.ready → isSource id.val = true → reactionOf s.dev id.val = 2 →
    tWf groupDflt s.dev.groups = true → (getGroup s.dev (id.val / 512)).valid = false →
    (getGroup s.dev (id.val / 512)).sent = false → hostLinkUp s.dev = true → bitR s.dev (rMsix (id.val / 512) 1) 32 = false →
    s.performs (.faultRaise id detail scope) [.groups, .flog, .out] fun d =>
      d.out = [.msix (id.val / 512) (getR s.dev (rMsix (id.val / 512) 0)).toNat (fldR s.dev (rMsix (id.val / 512) 1) 31 0)] ∧
      (getGroup d (id.val / 512)).sent = true ∧ (getGroup d (id.val / 512)).source = id.val ∧
      ∀ g, g ≠ id.val / 512 → getGroup d g = getGroup s.dev g) ∧
  (∀ (s : State) (id : Fin 4096) (detail scope : Word), s.ready → isSource id.val = true → id.val ≠ fltTempCrit →
    reactionOf s.dev id.val = 3 → tWf groupDflt s.dev.groups = true → (getGroup s.dev (id.val / 512)).esc = .idle →
    s.performs (.faultRaise id detail scope) [.groups, .flog, .regs, .out] fun d =>
      (getGroup d (id.val / 512)).esc = .timing ∧
      (getGroup d (id.val / 512)).affected = extendRegions s.dev scope.toNat ∧
      (getGroup d (id.val / 512)).pinHold = (getGroup s.dev (id.val / 512)).pinHold ∧
      ∀ g, g ≠ id.val / 512 → getGroup d g = getGroup s.dev g) ∧
  (∀ (s : State) (g : Fin 8), s.ready → (getGroup s.dev g.val).esc = .timing → s.becomes (.faultGroupAck g) fun d =>
    updGroup d g.val fun r => { r with esc := .idle, affected := 0 }) ∧
  (∀ (s : State) (g : Fin 8), s.ready → (getGroup s.dev g.val).esc = .idle → s.becomes (.faultGroupAck g) fun d => d) ∧
  (∀ (s : State) (g : Fin 8), s.ready → tWf groupDflt s.dev.groups = true → tWf sectorDflt s.dev.sectors = true →
    tWf epDflt s.dev.net.eps = true → (getGroup s.dev g.val).esc = .escalated → (getGroup s.dev g.val).crit = false →
    (getGroup s.dev g.val).e3 = false → (∀ h : Nat, h < 8 → h ≠ g.val → (getGroup s.dev h).secHold = 0 ∧ (getGroup s.dev h).e3 = false) →
    s.dev.cfg.commit = none → s.performs (.faultGroupAck g) [.groups, .sectors, .net] fun d =>
      (getGroup d g.val).esc = .idle ∧ (getGroup d g.val).affected = 0 ∧ (getGroup d g.val).pinHold = 0 ∧
      (getGroup d g.val).secHold = 0 ∧
      (∀ i : Nat, i < 64 → (getGroup s.dev g.val).secHold.testBit i = true → regionOf s.dev i = none →
        (getSec s.dev i).state = .fenced → (getSec d i).state = .active ∧ ∀ k ∈ sectorAtts i, (getEp d k).state = .active) ∧
      ∀ i, regionOf s.dev i ≠ none → getSec d i = getSec s.dev i) ∧
  (∀ (s : State) (mask : BitVec 8), s.ready → tWf groupDflt s.dev.groups = true → s.mailbox 0x0601 [(0xFF, mask.toNat)] →
    (∀ g : Nat, g < 8 → (getGroup s.dev g).esc ≠ .escalated) → s.performs (.faultAck mask) [.groups, .bureau] fun d =>
      d.ended s 0 0 ∧ d.bureau.keys = s.dev.bureau.keys ∧
      ∀ g : Fin 8, mask.getLsbD g.val = true → (getGroup d g.val).esc = .idle) ∧
  (∀ (s : State) (g : Fin 8), s.ready → s.becomes (.faultRecordFree g []) fun d =>
    updGroup d g.val fun r => { r with valid := false, overflow := false, count := 0, source := 0, detail := 0, time := 0 }) ∧
  (∀ (s : State) (id : BitVec 12) (detail scope : Word), s.ready → tWf groupDflt s.dev.groups = true → isSource id.toNat = true →
    reactionOf s.dev id.toNat = 1 →
    s.performs (.faultRecordFree ⟨id.toNat / 512, by omega⟩ [(id, detail, scope)]) [.groups, .flog] fun d =>
      getGroup d (id.toNat / 512) = { getGroup s.dev (id.toNat / 512) with
        valid := true, overflow := false, count := 1, source := id.toNat, detail := detail.toNat, time := time80 s.dev % 2 ^ 64 } ∧
      ∀ g, g ≠ id.toNat / 512 → getGroup d g = getGroup s.dev g) ∧
  (∀ s : State, s.steady → s.performs .faultLock [.regs] fun d =>
    bitR d rFltSummary 63 = true ∧ fldR d rFltSummary 62 0 = fldR s.dev rFltSummary 62 0 ∧
    ∀ a, a ≠ rFltSummary → getR d a = getR s.dev a) ∧
  (∀ (s : State) (v : Word), s.ready → s.dev.bureau.keys.testFuse = false → s.becomes (.fltInjectWrite v) fun d => d) ∧
  (∀ (s : State) (v : Word), s.ready → s.dev.bureau.keys.testFuse = true → s.dev.power.testMode = true → bit v 63 = true →
    isSource (fld v 11 0) = true → reactionOf s.dev (fld v 11 0) = 1 → tWf groupDflt s.dev.groups = true →
    (getGroup s.dev (fld v 11 0 / 512)).valid = false → s.performs (.fltInjectWrite v) [.groups, .flog, .free] fun d =>
      (getGroup d (fld v 11 0 / 512)).valid = true ∧ (getGroup d (fld v 11 0 / 512)).source = fld v 11 0 ∧
      (getGroup d (fld v 11 0 / 512)).count = 1 ∧ ∀ g, g ≠ fld v 11 0 / 512 → getGroup d g = getGroup s.dev g)

/-- Escalation (R492, R494, R498): at the timer's expiry level E1 holds the pins of the affected set, and E2 fences its sectors as
well; E3 without acknowledgement becomes E4, a warm reset; a sensor's reading that reaches 110 °C applies E3 at once. It rests also
on the model's choices of assumptions 111 and 153. -/
def Obligations.Escalation : Prop :=
  (∀ (s : State) (g : Fin 8), s.ready → tWf groupDflt s.dev.groups = true → (getGroup s.dev g.val).esc = .timing →
    levelOf s.dev g.val = 1 → s.performs (.escalationTimerExpiry g) [.groups, .flog, .regs, .out] fun d =>
      getGroup d g.val = { getGroup s.dev g.val with
        esc := .escalated, applied := 1, sent := true
        pinHold := (getGroup s.dev g.val).pinHold ||| (getGroup s.dev g.val).affected } ∧
      ∀ h, h ≠ g.val → getGroup d h = getGroup s.dev h) ∧
  (∀ (s : State) (g : Fin 8), s.ready → tWf groupDflt s.dev.groups = true → tWf sectorDflt s.dev.sectors = true →
    tWf epDflt s.dev.net.eps = true → (getGroup s.dev g.val).esc = .timing → levelOf s.dev g.val = 2 → s.dev.cfg.commit = none →
    s.performs (.escalationTimerExpiry g) [.groups, .flog, .regs, .out, .sectors, .net, .cfg] fun d =>
      (getGroup d g.val).esc = .escalated ∧ (getGroup d g.val).applied = 2 ∧
      (∀ i : Nat, i < 64 → (getGroup s.dev g.val).affected.testBit i = true → (getSec s.dev i).state = .active →
        (getSec d i).state = .fenced ∧ ∀ k ∈ sectorAtts i, (getEp d k).state = .fenced) ∧
      ∀ i, i < 64 → (getGroup s.dev g.val).affected.testBit i = false → getSec d i = getSec s.dev i) ∧
  (∀ (s : State) (g : Fin 8), s.ready → s.calm → tWf groupDflt s.dev.groups = true → (getGroup s.dev g.val).esc = .escalated →
    levelInForce s.dev g.val = 3 → (getGroup s.dev g.val).applied = 3 → bitR s.dev (rFltCfg g.val) 62 = true →
    s.dev.power.warm = none → s.performs (.e3ToE4Expiry g)
      [.regs, .sectors, .clk, .cfg, .net, .mem, .cab, .links, .io, .tb, .groups, .flog, .power, .bureau, .free, .out] fun d =>
      d.power.warm = some { event := 2, byE4 := true, rstLow := false } ∧ d.power.e4FaultN = true ∧
      (getGroup d g.val).applied = 4 ∧ d.cfg.done = false ∧
      ∀ h, h < 8 → (getGroup d h).esc = .idle ∧ (getGroup d h).e3 = false ∧ (getGroup d h).pinHold = 0) ∧
  (∀ (s : State) (k : Fin 39) (v : BitVec 8), s.steady → s.calm → tWf groupDflt s.dev.groups = true →
    tWf sectorDflt s.dev.sectors = true → 110 ≤ v.toNat → v.toNat < 128 → sint 8 (tGet (fun _ => 0) s.dev.power.temps k.val) < 110 →
    s.dev.cfg.commit = none →
    s.performs (.temperatureSample [(k, v)])
      [.regs, .sectors, .clk, .cfg, .net, .mem, .cab, .links, .io, .tb, .groups, .flog, .power, .bureau, .free, .out] fun d =>
      (getGroup d 3).esc = .escalated ∧ (getGroup d 3).applied = 3 ∧ (getGroup d 3).e3 = true ∧ (getGroup d 3).crit = true ∧
      d.links.lanes.heldE3 = true ∧ fldR d rFltTherm 7 0 = v.toNat ∧
      ∀ i, i < 64 → (getSec s.dev i).state = .active → (getSec d i).state = .fenced) ∧
  (∀ (s : State) (k : Fin 39) (v : BitVec 8), s.steady → v.toNat < 100 → v.toNat < fldR s.dev rFltTherm 31 24 →
    s.performs (.temperatureSample [(k, v)]) [.regs, .power] fun d =>
      fldR d rFltTherm 7 0 = v.toNat ∧ d.power.temps = tSet (fun _ => 0) s.dev.power.temps k.val v.toNat ∧
      d.power.warm = s.dev.power.warm ∧ ∀ a, a ≠ rFltTherm → getR d a = getR s.dev a)

/-- The scrubber (R241, R243, R244, R246, R248, R250, R252). A slot whose frame agrees with its ledger entry writes the next
position to the three copies and does no more; one whose frame differs in a single bit restores it and counts it; one whose frame
differs otherwise leaves it waiting for a repair; one whose entry cannot be used leaves it waiting and the entry scheduled; while
the scrubber does not run it only votes; a copy of the sequencer that an upset has changed is outvoted, overwritten and counted. A
store repair writes back the content that the source gives; without one the frame is unrestored, its leaf damaged, and the first
such frame recorded; a frame that does not wait is left alone. An entry is recomputed from the source and counted, and the frame
checked again; without a source the frame is unrestored. The counts are cleared. It rests also on the model's choices of assumptions
60, 61 and 139. -/
def Obligations.Scrubbing : Prop :=
  (∀ (s : State) (q : Fin 4) (p ip n l : Nat) (e : Word) (v : Bool), s.ready → scrubRuns s.dev = true →
    scrubCopies s.dev = List.replicate 3 (nth {} (scrubCopies s.dev) 0) →
    seqOf q.val (nth {} (scrubCopies s.dev) 0) = [p, ip, n, (getR s.dev rScrubCfg).toNat] → n < effRatio s.dev →
    (q.val ≠ 0 ∨ p ≠ 24575) → slotLeaves s.dev (16 * q.val + p / 1536) false = [l] → l < 2 →
    frameKey (16 * q.val + p / 1536) l (p % 1536) ∉ s.dev.cfg.scrub.waiting →
    frameKey (16 * q.val + p / 1536) l (p % 1536) ∉ s.dev.cfg.scrub.scheduled →
    frameKey (16 * q.val + p / 1536) l (p % 1536) ∉ s.dev.cfg.scrub.unrestored →
    (decodeWord (getLedger s.dev (frameKey (16 * q.val + p / 1536) l (p % 1536)))).outcome = .clean →
    (decodeWord (getLedger s.dev (frameKey (16 * q.val + p / 1536) l (p % 1536)))).data = e →
    fld e 15 0 = (getLeaf s.dev (16 * q.val + p / 1536) l).seq % 2 ^ 16 →
    crc32c (wordBytes (frameWords (getFrame s.dev (16 * q.val + p / 1536) l (p % 1536)).words)) = fld e 63 32 →
    frameSyndrome (frameWords (getFrame s.dev (16 * q.val + p / 1536) l (p % 1536)).words) = fld e 31 17 →
    frameParity (frameWords (getFrame s.dev (16 * q.val + p / 1536) l (p % 1536)).words) = bit e 16 →
    s.performs (.scrubSlot ⟨q.val, Nat.lt_trans q.isLt (by decide)⟩ [] v) [.cfg] fun d =>
      d.cfg = (seqWrite q.val [(p + 1) % 24576, ip, n + 1, (getR s.dev rScrubCfg).toNat] s.dev).cfg) ∧
  (∀ (s : State) (q : Fin 4) (p ip n l : Nat) (e : Word) (b : Fin 24576), s.steady → scrubRuns s.dev = true →
    tWf frameDflt s.dev.cfg.frames = true → scrubCopies s.dev = List.replicate 3 (nth {} (scrubCopies s.dev) 0) →
    seqOf q.val (nth {} (scrubCopies s.dev) 0) = [p, ip, n, (getR s.dev rScrubCfg).toNat] → n < effRatio s.dev →
    slotLeaves s.dev (16 * q.val + p / 1536) false = [l] → l < 2 →
    frameKey (16 * q.val + p / 1536) l (p % 1536) ∉ s.dev.cfg.scrub.waiting →
    frameKey (16 * q.val + p / 1536) l (p % 1536) ∉ s.dev.cfg.scrub.scheduled →
    (decodeWord (getLedger s.dev (frameKey (16 * q.val + p / 1536) l (p % 1536)))).outcome = .clean →
    (decodeWord (getLedger s.dev (frameKey (16 * q.val + p / 1536) l (p % 1536)))).data = e →
    fld e 15 0 = (getLeaf s.dev (16 * q.val + p / 1536) l).seq % 2 ^ 16 →
    frameSyndrome (frameWords (getFrame s.dev (16 * q.val + p / 1536) l (p % 1536)).words) ^^^ fld e 31 17 = b.val + 1 →
    frameParity (frameWords (getFrame s.dev (16 * q.val + p / 1536) l (p % 1536)).words) = !bit e 16 →
    crc32c (wordBytes (flipBit (frameWords (getFrame s.dev (16 * q.val + p / 1536) l (p % 1536)).words) b.val)) = fld e 63 32 →
    s.performs (.scrubSlot ⟨q.val, Nat.lt_trans q.isLt (by decide)⟩ [] false) [.cfg, .regs, .links] fun d =>
      (∀ w : Nat, w < 384 → tGet (fun _ => 0) (getFrame d (16 * q.val + p / 1536) l (p % 1536)).words w =
        nth 0 (flipBit (frameWords (getFrame s.dev (16 * q.val + p / 1536) l (p % 1536)).words) b.val) w) ∧
      (getFrame d (16 * q.val + p / 1536) l (p % 1536)).meaning =
        (getFrame s.dev (16 * q.val + p / 1536) l (p % 1536)).written ∧
      fldR d rScrubCounts 63 48 = min (fldR s.dev rScrubCounts 63 48 + 1) 0xFFFF ∧ d.cfg.ledger = s.dev.cfg.ledger ∧
      frameKey (16 * q.val + p / 1536) l (p % 1536) ∉ d.cfg.scrub.waiting) ∧
  (∀ (s : State) (q : Fin 4) (p ip n l : Nat) (e : Word) (v : Bool), s.ready → scrubRuns s.dev = true →
    scrubCopies s.dev = List.replicate 3 (nth {} (scrubCopies s.dev) 0) →
    seqOf q.val (nth {} (scrubCopies s.dev) 0) = [p, ip, n, (getR s.dev rScrubCfg).toNat] → n < effRatio s.dev →
    (q.val ≠ 0 ∨ p ≠ 24575) → slotLeaves s.dev (16 * q.val + p / 1536) false = [l] → l < 2 →
    frameKey (16 * q.val + p / 1536) l (p % 1536) ∉ s.dev.cfg.scrub.waiting →
    frameKey (16 * q.val + p / 1536) l (p % 1536) ∉ s.dev.cfg.scrub.scheduled →
    (decodeWord (getLedger s.dev (frameKey (16 * q.val + p / 1536) l (p % 1536)))).outcome = .clean →
    (decodeWord (getLedger s.dev (frameKey (16 * q.val + p / 1536) l (p % 1536)))).data = e →
    fld e 15 0 = (getLeaf s.dev (16 * q.val + p / 1536) l).seq % 2 ^ 16 →
    frameSyndrome (frameWords (getFrame s.dev (16 * q.val + p / 1536) l (p % 1536)).words) ≠ fld e 31 17 →
    frameParity (frameWords (getFrame s.dev (16 * q.val + p / 1536) l (p % 1536)).words) = bit e 16 →
    s.performs (.scrubSlot ⟨q.val, Nat.lt_trans q.isLt (by decide)⟩ [] v) [.cfg] fun d =>
      frameKey (16 * q.val + p / 1536) l (p % 1536) ∈ d.cfg.scrub.waiting ∧ d.cfg.frames = s.dev.cfg.frames ∧
      d.cfg.ledger = s.dev.cfg.ledger ∧ d.cfg.scrub.scheduled = s.dev.cfg.scrub.scheduled) ∧
  (∀ (s : State) (q : Fin 4) (p ip n l : Nat) (v : Bool), s.ready → scrubRuns s.dev = true →
    scrubCopies s.dev = List.replicate 3 (nth {} (scrubCopies s.dev) 0) →
    seqOf q.val (nth {} (scrubCopies s.dev) 0) = [p, ip, n, (getR s.dev rScrubCfg).toNat] → n < effRatio s.dev →
    (q.val ≠ 0 ∨ p ≠ 24575) → slotLeaves s.dev (16 * q.val + p / 1536) false = [l] → l < 2 →
    frameKey (16 * q.val + p / 1536) l (p % 1536) ∉ s.dev.cfg.scrub.waiting →
    (decodeWord (getLedger s.dev (frameKey (16 * q.val + p / 1536) l (p % 1536)))).outcome = .clean →
    fld (decodeWord (getLedger s.dev (frameKey (16 * q.val + p / 1536) l (p % 1536)))).data 15 0 ≠
      (getLeaf s.dev (16 * q.val + p / 1536) l).seq % 2 ^ 16 →
    s.performs (.scrubSlot ⟨q.val, Nat.lt_trans q.isLt (by decide)⟩ [] v) [.cfg] fun d =>
      frameKey (16 * q.val + p / 1536) l (p % 1536) ∈ d.cfg.scrub.waiting ∧
      frameKey (16 * q.val + p / 1536) l (p % 1536) ∈ d.cfg.scrub.scheduled ∧ d.cfg.frames = s.dev.cfg.frames ∧
      d.cfg.ledger = s.dev.cfg.ledger) ∧
  (∀ (s : State) (q : Fin 4) (v : Bool), s.ready → scrubRuns s.dev = false →
    scrubCopies s.dev = List.replicate 3 (nth {} (scrubCopies s.dev) 0) →
    s.becomes (.scrubSlot ⟨q.val, Nat.lt_trans q.isLt (by decide)⟩ [] v) fun d => d) ∧
  (∀ (s : State) (q : Fin 4) (c : Fin 3) (k : Fin 4) (b : Fin 64) (v : Bool), s.steady → scrubRuns s.dev = false →
    s.dev.cfg.scrub.wf = true →
    scrubCopies s.dev = List.replicate 3 (nth {} (scrubCopies s.dev) 0) →
    s.performs (.scrubSlot ⟨q.val, Nat.lt_trans q.isLt (by decide)⟩ [(c, k, b)] v) [.cfg, .regs] fun d =>
      (∀ x ∈ scrubCopies d, seqOf q.val x = seqOf q.val (nth {} (scrubCopies s.dev) 0)) ∧
      fldR d rScrubStatus 47 32 = min (fldR s.dev rScrubStatus 47 32 + 1) 0xFFFF ∧
      d.cfg.frames = s.dev.cfg.frames ∧ ∀ a, a ≠ rScrubStatus → getR d a = getR s.dev a) ∧
  (∀ (s : State) (sec : Fin 64) (l : LeafId) (f : Fin 1536) (ws : List Word), s.steady → repairRuns s.dev sec.val = true →
    tWf frameDflt s.dev.cfg.frames = true → frameKey sec.val l.val f.val ∈ s.dev.cfg.scrub.waiting →
    frameKey sec.val l.val f.val ∉ s.dev.cfg.scrub.scheduled →
    repairContent (frameKey sec.val l.val f.val) s.dev = .content ws →
    ledgerOf ws (fld (decodeWord (getLedger s.dev (frameKey sec.val l.val f.val))).data 15 0) =
      (decodeWord (getLedger s.dev (frameKey sec.val l.val f.val))).data →
    s.performs (.storeRepair (sec.castLT (Nat.lt_trans sec.isLt (by decide))) l f false) [.cfg, .regs, .links] fun d =>
      (∀ w : Nat, w < 384 → tGet (fun _ => 0) (getFrame d sec.val l.val f.val).words w = nth 0 ws w) ∧
      (getFrame d sec.val l.val f.val).meaning = (getFrame s.dev sec.val l.val f.val).written ∧
      frameKey sec.val l.val f.val ∉ d.cfg.scrub.waiting ∧
      fldR d rScrubCounts 47 32 = min (fldR s.dev rScrubCounts 47 32 + 1) 0xFFFF) ∧
  (∀ (s : State) (sec : Fin 64) (l : LeafId) (f : Fin 1536) (kind : Fin 2) (v : Bool), s.steady → repairRuns s.dev sec.val = true →
    frameKey sec.val l.val f.val ∈ s.dev.cfg.scrub.waiting → frameKey sec.val l.val f.val ∉ s.dev.cfg.scrub.scheduled →
    frameKey sec.val l.val f.val ∉ s.dev.cfg.scrub.unrestored →
    repairContent (frameKey sec.val l.val f.val) s.dev = (if kind = 0 then .noSource else .bad) →
    countsActive s.dev sec.val l.val = true → tWf leafDflt s.dev.cfg.leaves = true → reactionOf s.dev fltScrubDamaged = 0 →
    bitR s.dev rScrubFirst 63 = false →
    s.performs (.storeRepair (sec.castLT (Nat.lt_trans sec.isLt (by decide))) l f v) [.cfg, .regs] fun d =>
      (getLeaf d sec.val l.val).damaged = true ∧ d.cfg.frames = s.dev.cfg.frames ∧
      frameKey sec.val l.val f.val ∈ d.cfg.scrub.unrestored ∧ frameKey sec.val l.val f.val ∉ d.cfg.scrub.waiting ∧
      getR d rScrubFirst = BitVec.ofNat 64 (2 ^ 63 + l.val * 2 ^ 62 + kind.val * 2 ^ 60 + sec.val * 2048 + f.val) ∧
      fldR d rScrubCounts 15 0 = min (fldR s.dev rScrubCounts 15 0 + 1) 0xFFFF) ∧
  (∀ (s : State) (sec : Fin 64) (l : LeafId) (f : Fin 1536) (v : Bool), s.ready →
    (repairRuns s.dev sec.val = false ∨ frameKey sec.val l.val f.val ∉ s.dev.cfg.scrub.waiting) →
    s.becomes (.storeRepair (sec.castLT (Nat.lt_trans sec.isLt (by decide))) l f v) fun d => d) ∧
  (∀ (s : State) (sec : Fin 64) (l : LeafId) (f : Fin 1536) (ws : List Word) (v : Bool), s.steady → repairRuns s.dev sec.val = true →
    tWf (ledgerDflt s.dev) s.dev.cfg.ledger = true → frameKey sec.val l.val f.val ∈ s.dev.cfg.scrub.waiting →
    frameKey sec.val l.val f.val ∈ s.dev.cfg.scrub.scheduled →
    repairContent (frameKey sec.val l.val f.val) s.dev = .content ws →
    s.performs (.ledgerRecompute (sec.castLT (Nat.lt_trans sec.isLt (by decide))) l f v) [.cfg, .regs, .links] fun d =>
      getLedger d (frameKey sec.val l.val f.val) = encodeWord (ledgerOf ws (getLeaf s.dev sec.val l.val).seq) false ∧
      frameKey sec.val l.val f.val ∉ d.cfg.scrub.scheduled ∧
      (frameWords (getFrame s.dev sec.val l.val f.val).words = ws → frameKey sec.val l.val f.val ∉ d.cfg.scrub.waiting) ∧
      fldR d rScrubCounts 31 16 = min (fldR s.dev rScrubCounts 31 16 + 1) 0xFFFF) ∧
  (∀ (s : State) (sec : Fin 64) (l : LeafId) (f : Fin 1536) (v : Bool), s.steady → repairRuns s.dev sec.val = true →
    frameKey sec.val l.val f.val ∈ s.dev.cfg.scrub.waiting → frameKey sec.val l.val f.val ∈ s.dev.cfg.scrub.scheduled →
    frameKey sec.val l.val f.val ∉ s.dev.cfg.scrub.unrestored → repairContent (frameKey sec.val l.val f.val) s.dev = .noSource →
    countsActive s.dev sec.val l.val = true → tWf leafDflt s.dev.cfg.leaves = true → reactionOf s.dev fltScrubDamaged = 0 →
    s.performs (.ledgerRecompute (sec.castLT (Nat.lt_trans sec.isLt (by decide))) l f v) [.cfg, .regs] fun d =>
      (getLeaf d sec.val l.val).damaged = true ∧ d.cfg.frames = s.dev.cfg.frames ∧ d.cfg.ledger = s.dev.cfg.ledger ∧
      frameKey sec.val l.val f.val ∈ d.cfg.scrub.unrestored ∧ frameKey sec.val l.val f.val ∉ d.cfg.scrub.waiting ∧
      fldR d rScrubCounts 15 0 = min (fldR s.dev rScrubCounts 15 0 + 1) 0xFFFF) ∧
  (∀ (s : State) (inc : BitVec 4), s.steady → s.performs (.scrubCntClr inc) [.regs] fun d =>
    (∀ j : Fin 4, fldR d rScrubCounts (16 * j.val + 15) (16 * j.val) = (inc.getLsbD j.val).toNat) ∧
    ∀ a, a ≠ rScrubCounts → getR d a = getR s.dev a)

/-- Accesses of management space (R1, R2, R22, R23, R39, R180, R542): a whole write of CFG_COMMIT_CFG takes its RW fields, and its
reserved bits and every other register stay; a write of 1 to a W1C bit clears it, unless hardware sets it in the same cycle; a
poisoned write is refused. A host read at BAR0 is answered with the register; a host write at BAR0 writes it. Host reads of device
addresses (R24, R27, R28, R446): through a segment of BAR2, or at the target of BAR4, a read within one parcel becomes one RD
request of agent 4, which the controller keeps until its response; a segment that is not enabled completes with Unsupported Request
and injects nothing. It rests also on the model's choices of assumptions 96, 98, 126, 129 and 143. -/
def Obligations.HostAccesses : Prop :=
  (∀ (s : State) (p : Path) (v now : Word), s.steady →
    s.performs (.registerWrite p (BitVec.ofNat 26 rCommitCfg) ((List.range 8).map fun k => some (BitVec.ofNat 8 (fld v (8 * k + 7) (8 * k))))
      false now) [.regs] fun d =>
      fldR d rCommitCfg 20 0 = fld v 20 0 ∧ fldR d rCommitCfg 63 21 = fldR s.dev rCommitCfg 63 21 ∧
      ∀ a, a ≠ rCommitCfg → getR d a = getR s.dev a) ∧
  (∀ (s : State) (p : Path) (v now : Word), s.steady →
    s.performs (.registerWrite p (BitVec.ofNat 26 rHealth) ((List.range 8).map fun k => some (BitVec.ofNat 8 (fld v (8 * k + 7) (8 * k))))
      false now) [.regs] fun d =>
      bitR d rHealth 61 = (bitR s.dev rHealth 61 && !(bit v 61 && !bit now 61)) ∧ fldR d rHealth 63 62 = fldR s.dev rHealth 63 62 ∧
      fldR d rHealth 60 0 = fldR s.dev rHealth 60 0 ∧ ∀ a, a ≠ rHealth → getR d a = getR s.dev a) ∧
  (∀ (s : State) (p : Path) (a : BitVec 26) (b : List (Option (BitVec 8))) (now : Word), s.ready →
    reactionOf s.dev fltPoisonRefused = 0 → s.becomes (.registerWrite p a b true now) fun d => d) ∧
  (∀ (s : State) (id : Nat), s.ready → linkUp s.dev 0 0 = true →
    s.performs (.bar0Access id true (.rd (BitVec.ofNat 36 rCommitCfg) (List.replicate 8 true))) [.out] fun d =>
      d.out = [.completion 0 0 id 0 [getR s.dev rCommitCfg] false]) ∧
  (∀ (s : State) (id : Nat) (v : Word), s.steady → linkUp s.dev 0 0 = true →
    s.performs (.bar0Access id true (.wr (BitVec.ofNat 36 rCommitCfg)
      ((List.range 8).map fun k => some (BitVec.ofNat 8 (fld v (8 * k + 7) (8 * k)))) false)) [.regs] fun d =>
      fldR d rCommitCfg 20 0 = fld v 20 0 ∧ ∀ a, a ≠ rCommitCfg → getR d a = getR s.dev a) ∧
  (∀ (s : State) (id : Nat) (off : BitVec 36) (x : Issue) (dr dp : Nat), s.ready → linkUp s.dev 0 0 = true →
    (getPcie s.dev 0).full = true → pcieIn s.dev 0 = true → (getPcie s.dev 0).links = 1 → (getPcie s.dev 0).host = [] →
    off.toNat % 8 = 0 → bitR s.dev (rXlate (off.toNat / 2 ^ 32)) 63 = true →
    x = rangeIssue .rd (fldR s.dev (rXlate (off.toNat / 2 ^ 32)) 47 32 * 2 ^ 32 + off.toNat % 2 ^ 32)
      (List.replicate 8 (some (0, false))) (fldR s.dev (rXlate (off.toNat / 2 ^ 32)) 5 0) →
    decodeAddr s.dev false x.addr x.len x.first x.last = .to dr dp → (getEp s.dev (pcieKey 0)).requests = [] →
    (getEp s.dev (pcieKey 0)).outq = [] → tWf epDflt s.dev.net.eps = true → tWf pcieDflt s.dev.links.pcie = true →
    s.performs (.bar2Access 0 0 id true (.rd off (List.replicate 8 true))) [.net, .links] fun d =>
      (getPcie d 0).host = [{ id, link := 0, tags := [(getEp s.dev (pcieKey 0)).nextId], en := List.replicate 8 true, lo := fldR s.dev (rXlate (off.toNat / 2 ^ 32)) 47 32 * 2 ^ 32 + off.toNat % 2 ^ 32 }] ∧
      (getEp d (pcieKey 0)).requests.map (fun y => (y.id, y.op, y.dstR, y.dstP, y.agent, y.user)) =
        [((getEp s.dev (pcieKey 0)).nextId, .rd, dr, dp, some 4, .host 0)] ∧
      (getEp d (pcieKey 0)).outq.length = 1 ∧ ∀ k, k ≠ pcieKey 0 → getEp d k = getEp s.dev k) ∧
  (∀ (s : State) (id : Nat) (off : BitVec 36) (x : Issue) (dr dp : Nat), s.ready → linkUp s.dev 0 0 = true →
    (getPcie s.dev 0).full = true → pcieIn s.dev 0 = true → (getPcie s.dev 0).host = [] → off.toNat % 8 = 0 →
    20 ≤ fldR s.dev rBar4 21 16 → bitR s.dev rBar4 63 = true → off.toNat < 2 ^ fldR s.dev rBar4 21 16 →
    x = rangeIssue .rd (windowBase (fldR s.dev rBar4 8 0) (fldR s.dev rBar4 10 9) + off.toNat / 2 ^ 32 * 2 ^ 32 + off.toNat % 2 ^ 32)
      (List.replicate 8 (some (0, false))) 0 →
    decodeAddr s.dev false x.addr x.len x.first x.last = .to dr dp → (getEp s.dev (pcieKey 0)).requests = [] →
    (getEp s.dev (pcieKey 0)).outq = [] → tWf epDflt s.dev.net.eps = true → tWf pcieDflt s.dev.links.pcie = true →
    s.performs (.bar4Access id true (.rd off (List.replicate 8 true))) [.net, .links] fun d =>
      (getPcie d 0).host = [{ id, link := 0, tags := [(getEp s.dev (pcieKey 0)).nextId], en := List.replicate 8 true, lo := windowBase (fldR s.dev rBar4 8 0) (fldR s.dev rBar4 10 9) + off.toNat / 2 ^ 32 * 2 ^ 32 + off.toNat % 2 ^ 32 }] ∧
      (getEp d (pcieKey 0)).requests.map (fun y => (y.id, y.op, y.dstR, y.dstP, y.agent, y.user)) =
        [((getEp s.dev (pcieKey 0)).nextId, .rd, dr, dp, some 4, .host 0)] ∧
      (getEp d (pcieKey 0)).outq.length = 1 ∧ ∀ k, k ≠ pcieKey 0 → getEp d k = getEp s.dev k) ∧
  (∀ (s : State) (id : Nat) (off : BitVec 36), s.ready → linkUp s.dev 0 0 = true → (getPcie s.dev 0).links = 1 →
    bitR s.dev (rXlate (off.toNat / 2 ^ 32)) 63 = false →
    s.performs (.bar2Access 0 0 id true (.rd off (List.replicate 8 true))) [.out] fun d => d.out = [.completion 0 0 id 1 [] false])

/-- Flip-flops (R52, R55, R56, R66, R70, R71, R474), with what the multiplexers of their inputs select: at an active edge of its
half-block's clock a flip-flop with direct data takes its set/reset value where SR acts, its data where it is enabled, and keeps its
value otherwise; no flip-flop of another half-block changes; a dynamic lane samples its index; the registers of an I/O cell in the
single-rate modes take pad and data; the release of global set/reset gives every flip-flop its init value. Wires (R64 to R66): a
wire carries what its multiplexer selects, ends in its own quadrant, and in its own sector unless it is a thirty-two. Benches (R75,
R77 to R82, R90, R91): at an enabled edge a Bench captures its operands, and in DUAL mode without pre-adders accumulates the
products captured three edges before; RST clears it. It rests also on the model's choices of assumptions 11, 54, 125 and 136. -/
def Obligations.FlipFlopsAndBenches : Prop :=
  (∀ (s : State) (sec : Sec) (u : Fin 138) (v : Fin 96) (h : Fin 2) (ce sr : Bool) (b : BlockIn) (below : List BlockIn) (i : Fin 8),
    s.ready → tWf sectorDflt s.dev.sectors = true → tWf (fun _ => false) (getSec s.dev sec.val).ffs = true →
    edgeAt s.dev sec.val (halfCfg (items s.dev sec.val) u.val v.val h.val).clk = true → isLogicColumn u.val = true →
    (cellCfg (items s.dev sec.val) u.val v.val (8 * h.val + i.val)).ff0d = 2 →
    s.performs (.flipFlopClockEdge (.half sec u v h true ce sr b below)) [.sectors] fun d =>
      tGet (fun _ => false) (getSec d sec.val).ffs (ffKey u.val v.val (8 * h.val + i.val) 0) =
        (let g := cellCfg (items s.dev sec.val) u.val v.val (8 * h.val + i.val)
         if g.ff0srUse && pinLevel s.dev (items s.dev sec.val) sec.val u.val v.val 1 b.via (131 + 2 * h.val) sr then g.ff0sr
         else if !g.ff0ceUse || pinLevel s.dev (items s.dev sec.val) sec.val u.val v.val 1 b.via (130 + 2 * h.val) ce then
           pinLevel s.dev (items s.dev sec.val) sec.val u.val v.val 1 b.via (8 * (8 * h.val + i.val) + 6)
             (nth {} b.cells (8 * h.val + i.val)).dx0
         else tGet (fun _ => false) (getSec s.dev sec.val).ffs (ffKey u.val v.val (8 * h.val + i.val) 0)) ∧
      (∀ k, k / 16 ≠ (u.val * 96 + v.val) * 2 + h.val →
        tGet (fun _ => false) (getSec d sec.val).ffs k = tGet (fun _ => false) (getSec s.dev sec.val).ffs k) ∧
      ∀ j, j ≠ sec.val → getSec d j = getSec s.dev j) ∧
  (∀ (s : State) (sec : Sec) (col : Fin 10) (lane : Fin 2) (index : BitVec 6) (via : List PinMux), s.ready →
    (laneCfgOf (items s.dev sec.val) col.val lane.val).dynamic = true →
    edgeAt s.dev sec.val (laneCfgOf (items s.dev sec.val) col.val lane.val).clk = true →
    s.becomes (.flipFlopClockEdge (.lane sec col lane index via)) fun d => updSec d sec.val fun c =>
      { c with laneIdx := (tSet (fun _ => 63) c.laneIdx (2 * col.val + lane.val)
          (routedIndex d (items d sec.val) sec.val col.val lane.val via index).toNat) }) ∧
  (∀ (s : State) (c : Fin 480) (i : Nat) (e : IoEdge), s.ready → ioOwner s.dev c.val = some i → e.rising = true →
    edgeAt s.dev i (cellFields (items s.dev i) c.val).clk = true → (cellFields (items s.dev i) c.val).inMode = 1 →
    (cellFields (items s.dev i) c.val).outMode = 1 → (cellFields (items s.dev i) c.val).dlyDyn = false →
    tWf cellDflt s.dev.io.cells = true →
    s.performs (.flipFlopClockEdge (.io c e)) [.io] fun d =>
      (getCell d c.val).d1 = e.d1 ∧ (getCell d c.val).itap = (getCell s.dev c.val).itap ∧
      (knownStd c.val (cellFields (items s.dev i) c.val).std.toNat = true →
        stdMismatch s.dev c.val (cellFields (items s.dev i) c.val).std.toNat = false → (getCell d c.val).q1 = e.pad) ∧
      ∀ n, n ≠ c.val → getCell d n = getCell s.dev n) ∧
  (∀ (s : State) (sec : Fin 64) (w : Wire) (ls : List Level), s.ready → wireExists w = true → (getSec s.dev sec.val).vcc = true →
    (getSec s.dev sec.val).state ≠ .initialLoad →
    s.becomes (.flipFlopClockEdge (.wires (sec.castLT (Nat.lt_trans sec.isLt (by decide))) [{ wire := w, inputs := ls }])) fun d =>
      updSec d sec.val fun c => { c with wires := (tSet (fun _ => false) c.wires (wireKey w)
        (muxOut (ls.map (levelAt d sec.val w.u.val w.v.val 1)) (wireSelect (items d sec.val) w))) }) ∧
  (∀ (i : Fin 64) (w : Wire), quadrantOf (wireEnd i.val w).1 = quadrantOf i.val ∧
    (w.cls ≠ .thirtyTwo → (wireEnd i.val w).1 = i.val)) ∧
  (∀ (s : State) (sec : Sec), s.ready → tWf sectorDflt s.dev.sectors = true → (getSec s.dev sec.val).gsrDue = true →
    s.performs (.globalSetResetRelease sec) [.sectors, .io, .net] fun d =>
      getSec d sec.val = { getSec s.dev sec.val with
        gsr := false, gsrDue := false, clocks := true, ffs := initFfs (items s.dev sec.val) } ∧
      ∀ j, j ≠ sec.val → getSec d j = getSec s.dev j) ∧
  (∀ (s : State) (sec : Sec) (col : Fin 6) (x : BenchIn) (g : BenchCfg) (e : BenchCap), s.ready →
    tWf sectorDflt s.dev.sectors = true → tWf benchDflt (getSec s.dev sec.val).benches = true →
    g = benchCfg (items s.dev sec.val) col.val x.site.val → edgeAt s.dev sec.val g.clk = true → g.mode = .dual → g.preOp0 = 0 →
    g.preOp1 = 0 → g.tsrc = 0 → g.accIn0 = 0 → g.accIn1 = 0 → g.cascadeOpd = false →
    nth {} (getBench (getSec s.dev sec.val) col.val x.site.val).pipe 2 = e → e.clr0 = false → e.clr1 = false →
    (getBench (getSec s.dev sec.val) col.val x.site.val).pipe.length ≤ 6 →
    s.performs (.benchCapture sec col [x]) [.sectors] fun d =>
      (let o := getBench (getSec s.dev sec.val) col.val x.site.val
       let n := getBench (getSec d sec.val) col.val x.site.val
       let y := routedBench s.dev (items s.dev sec.val) sec.val col.val x
       n.acc0 = o.acc0 + BitVec.ofInt 64 ((nth 0 e.a 0).toInt * (nth 0 e.b 0).toInt + (nth 0 e.a 1).toInt * (nth 0 e.b 1).toInt) ∧
       n.acc1 = o.acc1 + BitVec.ofInt 64 ((nth 0 e.a 2).toInt * (nth 0 e.b 2).toInt + (nth 0 e.a 3).toInt * (nth 0 e.b 3).toInt) ∧
       n.pipe = { a := (List.range 4).map (nth 0 y.a), b := (List.range 4).map (nth 0 y.b), d0 := y.d0, d1 := y.d1, c := y.c
                  clr0 := y.clr0, clr1 := y.clr1, pA := List.replicate 4 false, pB := List.replicate 4 false } :: o.pipe) ∧
      (∀ k, k ≠ 32 * col.val + x.site.val → tGet benchDflt (getSec d sec.val).benches k = tGet benchDflt (getSec s.dev sec.val).benches k) ∧
      ∀ j, j ≠ sec.val → getSec d j = getSec s.dev j) ∧
  (∀ (s : State) (sec : Sec) (col : Fin 6) (site : Fin 32), s.ready →
    edgeAt s.dev sec.val (benchCfg (items s.dev sec.val) col.val site.val).clk = true →
    s.becomes (.benchRst sec col site) fun d => updSec d sec.val fun c =>
      { c with benches := tSet benchDflt c.benches (32 * col.val + site.val) {} })

/-- Drawers and their initialisation and pass (R96 to R99, R108, R109, R119, R120): a raw write of a whole row stores it and no
other row; a raw read without the output register shows the row; initialisation ends with the leaf's content; a pass attempt on a
clean row goes on to the next, and a write-back stores its word. It rests also on the model's choice of assumption 125. -/
def Obligations.DrawerAccesses : Prop :=
  (∀ (s : State) (sec : Sec) (dr : Fin 128) (p q : PortIn) (g : DrawerCfg), s.ready → tWf sectorDflt s.dev.sectors = true →
    tWf drawerDflt (getSec s.dev sec.val).drawers = true → tWf (fun _ => 0) (getDrawer (getSec s.dev sec.val) dr.val).arr = true →
    g = drawerCfg (items s.dev sec.val) dr.val → g.runner = .none → g.raw = true → g.widthA = 0 → g.writeModeA = 2 → g.wsrcA = 0 →
    q = routedPort s.dev (items s.dev sec.val) sec.val dr.val false p → edgeAt s.dev sec.val g.clkA = true → (getDrawer (getSec s.dev sec.val) dr.val).initing = false → q.en = true → q.we = 15 →
    s.performs (.drawerPortAccess sec dr (some p) none false false) [.sectors] fun d =>
      rowGet (getDrawer (getSec d sec.val) dr.val) (q.addr.toNat % 1024) = q.din ∧
      (∀ r, r ≠ q.addr.toNat % 1024 →
        rowGet (getDrawer (getSec d sec.val) dr.val) r = rowGet (getDrawer (getSec s.dev sec.val) dr.val) r) ∧
      (∀ k, k ≠ dr.val → getDrawer (getSec d sec.val) k = getDrawer (getSec s.dev sec.val) k) ∧
      ∀ j, j ≠ sec.val → getSec d j = getSec s.dev j) ∧
  (∀ (s : State) (sec : Sec) (dr : Fin 128) (p q : PortIn) (g : DrawerCfg), s.ready → tWf sectorDflt s.dev.sectors = true →
    tWf drawerDflt (getSec s.dev sec.val).drawers = true →
    q = routedPort s.dev (items s.dev sec.val) sec.val dr.val false p →
    g = drawerCfg (items s.dev sec.val) dr.val → g.runner = .none → g.raw = true → g.outReg = false → g.widthA = 0 → g.wsrcA = 0 →
    edgeAt s.dev sec.val g.clkA = true → (getDrawer (getSec s.dev sec.val) dr.val).initing = false →
    (getDrawer (getSec s.dev sec.val) dr.val).a.stage = none → q.en = true → q.we = 0 →
    s.performs (.drawerPortAccess sec dr (some p) none false false) [.sectors] fun d =>
      (getDrawer (getSec d sec.val) dr.val).a.dout = rowGet (getDrawer (getSec s.dev sec.val) dr.val) (q.addr.toNat % 1024) ∧
      (getDrawer (getSec d sec.val) dr.val).arr = (getDrawer (getSec s.dev sec.val) dr.val).arr) ∧
  (∀ (s : State) (sec : Sec) (dr : Fin 128), s.ready →
    (fabricLive s.dev sec.val || ((getSec s.dev sec.val).vcc && decide (sec.val < 64))) = true →
    initClock s.dev sec.val (drawerCfg (items s.dev sec.val) dr.val) = true → (getDrawer (getSec s.dev sec.val) dr.val).rst = false → regionOf s.dev sec.val = none →
    (getDrawer (getSec s.dev sec.val) dr.val).initing = true → s.becomes (.drawerInitComplete sec dr) fun d =>
      updSec d sec.val fun c => { c with drawers := tUpd drawerDflt c.drawers dr.val fun x => { x with
        arr := initArray (drawerRows s.dev sec.val dr.val) (drawerCfg (items s.dev sec.val) dr.val).raw, initing := false } }) ∧
  (∀ (s : State) (sec : Sec) (dr : Fin 128) (g : DrawerCfg), s.ready → g = drawerCfg (items s.dev sec.val) dr.val →
    passRuns g (getDrawer (getSec s.dev sec.val) dr.val) = true → edgeAt s.dev sec.val (if g.runner = .single then g.clkA else g.clkB) = true →
    (getDrawer (getSec s.dev sec.val) dr.val).passPend = none →
    (decodeWord (rowGet (getDrawer (getSec s.dev sec.val) dr.val) (getDrawer (getSec s.dev sec.val) dr.val).passRow)).outcome = .clean →
    s.becomes (.runnerPassAttempt sec dr .read) fun d => updSec d sec.val fun c =>
      { c with drawers := tUpd drawerDflt c.drawers dr.val fun x => { x with passRow := (x.passRow + 1) % 1024 } }) ∧
  (∀ (s : State) (sec : Sec) (dr : Fin 128) (g : DrawerCfg) (r : Nat) (v : PWord), s.ready →
    g = drawerCfg (items s.dev sec.val) dr.val → passRuns g (getDrawer (getSec s.dev sec.val) dr.val) = true →
    edgeAt s.dev sec.val (if g.runner = .single then g.clkA else g.clkB) = true →
    (getDrawer (getSec s.dev sec.val) dr.val).passPend = some (r, v) →
    s.becomes (.runnerPassAttempt sec dr .writeBack) fun d => updSec d sec.val fun c =>
      { c with drawers := tUpd drawerDflt c.drawers dr.val fun x => { x with arr := tSet (fun _ => 0) x.arr r v, passPend := none } })

/-- Runner queues and the delay line (R111 to R118): a write to a single-clock queue that is not full stores the encoded word and
shows its pointer, one to a full queue sets the overflow bit; a read of one that is not empty advances; a pointer reaches the other
side of a dual-clock queue; RST clears; an advancing edge of a delay line stores its word. -/
def Obligations.RunnerQueues : Prop :=
  (∀ (s : State) (sec : Sec) (dr : Fin 128) (din : PWord) (wp : Bool) (g : DrawerCfg), s.ready →
    tWf sectorDflt s.dev.sectors = true → tWf drawerDflt (getSec s.dev sec.val).drawers = true →
    tWf (fun _ => 0) (getDrawer (getSec s.dev sec.val) dr.val).arr = true →
    g = drawerCfg (items s.dev sec.val) dr.val → g.runner = .single → g.raw = false → g.wsrcA = 0 → edgeAt s.dev sec.val g.clkA = true →
    (getDrawer (getSec s.dev sec.val) dr.val).initing = false → qFull g (getDrawer (getSec s.dev sec.val) dr.val) = false →
    s.performs (.queueWrite sec dr din wp false) [.sectors] fun d =>
      rowGet (getDrawer (getSec d sec.val) dr.val) ((getDrawer (getSec s.dev sec.val) dr.val).wp % 1024) =
        encodeWord (BitVec.ofNat 64 din.toNat) wp ∧
      (getDrawer (getSec d sec.val) dr.val).wp = ((getDrawer (getSec s.dev sec.val) dr.val).wp + 1) % 2048 ∧
      (getDrawer (getSec d sec.val) dr.val).wpSeen = ((getDrawer (getSec s.dev sec.val) dr.val).wp + 1) % 2048 ∧
      (getDrawer (getSec d sec.val) dr.val).rp = (getDrawer (getSec s.dev sec.val) dr.val).rp ∧
      ∀ j, j ≠ sec.val → getSec d j = getSec s.dev j) ∧
  (∀ (s : State) (sec : Sec) (dr : Fin 128) (din : PWord) (wp : Bool) (g : DrawerCfg), s.ready →
    g = drawerCfg (items s.dev sec.val) dr.val → g.runner = .dual → edgeAt s.dev sec.val g.clkA = true →
    (getDrawer (getSec s.dev sec.val) dr.val).initing = false → wrBusy (getDrawer (getSec s.dev sec.val) dr.val) = false →
    qFull g (getDrawer (getSec s.dev sec.val) dr.val) = true → s.becomes (.queueWrite sec dr din wp false) fun d =>
      updSec d sec.val fun c => { c with drawers := tUpd drawerDflt c.drawers dr.val fun x => { x with wrOvf := true } }) ∧
  (∀ (s : State) (sec : Sec) (dr : Fin 128) (g : DrawerCfg) (x : Drawer), s.ready →
    tWf sectorDflt s.dev.sectors = true → tWf drawerDflt (getSec s.dev sec.val).drawers = true →
    x = getDrawer (getSec s.dev sec.val) dr.val → g = drawerCfg (items s.dev sec.val) dr.val → g.runner = .dual → g.raw = false →
    edgeAt s.dev sec.val g.clkB = true → x.initing = false → qEmpty g x = false → x.b.stage = none →
    (decodeWord (rowGet x (x.rp % 1024))).outcome = .clean → s.performs (.queueRead sec dr true) [.sectors] fun d =>
      (getDrawer (getSec d sec.val) dr.val).rp = (x.rp + 1) % 2048 ∧
      (getDrawer (getSec d sec.val) dr.val).toWrite = x.toWrite ++ [(x.rp + 1) % 2048] ∧
      (getDrawer (getSec d sec.val) dr.val).b.stage = some
        { data := BitVec.ofNat 80 (decodeWord (rowGet x (x.rp % 1024))).data.toNat
          poison := (decodeWord (rowGet x (x.rp % 1024))).poison, row := x.rp % 1024, valid := false } ∧
      (getDrawer (getSec d sec.val) dr.val).arr = x.arr ∧ ∀ j, j ≠ sec.val → getSec d j = getSec s.dev j) ∧
  (∀ (s : State) (sec : Sec) (dr : Fin 128) (g : DrawerCfg) (p : Nat) (ps : List Nat), s.ready →
    g = drawerCfg (items s.dev sec.val) dr.val → g.runner = .dual → edgeAt s.dev sec.val g.clkB = true →
    (getDrawer (getSec s.dev sec.val) dr.val).toRead = p :: ps → rdBusy (getDrawer (getSec s.dev sec.val) dr.val) = false →
    s.becomes (.queuePointerSync sec dr true 0) fun d => updSec d sec.val fun c =>
      { c with drawers := tUpd drawerDflt c.drawers dr.val fun x => { x with wpSeen := p, toRead := ps } }) ∧
  (∀ (s : State) (sec : Sec) (dr : Fin 128) (g : DrawerCfg), s.ready → tWf sectorDflt s.dev.sectors = true →
    tWf drawerDflt (getSec s.dev sec.val).drawers = true → g = drawerCfg (items s.dev sec.val) dr.val → g.runner ≠ .none →
    fabricLive s.dev sec.val = true → s.performs (.queueRst sec dr .rise) [.sectors] fun d =>
      (getDrawer (getSec d sec.val) dr.val).wp = 0 ∧ (getDrawer (getSec d sec.val) dr.val).rp = 0 ∧
      (getDrawer (getSec d sec.val) dr.val).rst = true ∧ (getDrawer (getSec d sec.val) dr.val).wrOvf = false ∧
      (getDrawer (getSec d sec.val) dr.val).arr = (getDrawer (getSec s.dev sec.val) dr.val).arr ∧
      ∀ j, j ≠ sec.val → getSec d j = getSec s.dev j) ∧
  (∀ (s : State) (sec : Sec) (dr : Fin 128) (din : PWord) (wp : Bool) (g : DrawerCfg) (x : Drawer), s.ready →
    tWf sectorDflt s.dev.sectors = true → tWf drawerDflt (getSec s.dev sec.val).drawers = true → tWf (fun _ => 0) x.arr = true →
    x = getDrawer (getSec s.dev sec.val) dr.val → g = drawerCfg (items s.dev sec.val) dr.val → g.runner = .delay → g.raw = false →
    g.wsrcA = 0 → edgeAt s.dev sec.val g.clkA = true → x.initing = false → wrBusy x = false → x.b.stage = none → x.dlRow < 1024 →
    (decodeWord (rowGet x ((x.dlRow + 1024 - effDelay g) % 1024))).outcome = .clean →
    s.performs (.delayLineAdvance sec dr din wp) [.sectors] fun d =>
      (getDrawer (getSec d sec.val) dr.val).dlRow = (x.dlRow + 1) % 1024 ∧
      rowGet (getDrawer (getSec d sec.val) dr.val) x.dlRow = encodeWord (BitVec.ofNat 64 din.toNat) wp ∧
      (∃ st, (getDrawer (getSec d sec.val) dr.val).b.stage = some st ∧
        st.data = BitVec.ofNat 80 (decodeWord (rowGet x ((x.dlRow + 1024 - effDelay g) % 1024))).data.toNat ∧
        st.valid = decide (effDelay g ≤ x.dlCount)) ∧
      ∀ j, j ≠ sec.val → getSec d j = getSec s.dev j)

/-- Value and counter crossings (R149 to R156): a load with no value under way takes its value and flips the take flag; one while
the pending value is full counts as superseded; a delivery presents the value and acknowledges it; the returned acknowledge starts
the pending value; events count up to 255 unacknowledged ones; deliveries carry at most 127. Level synchronisers, wake requests and
resets of Hinges (R147, R157, R158, R160): a destination edge shifts the input in; a pulse of 250 ps or more sets the wake latch, a
shorter one sets it or not by a free value; an edge of the woken line with W_CLR clears it; RST clears the registers of both sides.
It rests also on the model's choices of assumptions 3 and 125. -/
def Obligations.Hinges : Prop :=
  (∀ (s : State) (sec : Sec) (h : Fin 64) (data v : PWord) (late : Bool) (via : List PinMux) (g : HingeCfg) (x : Hinge), s.ready →
    g = hingeCfg (items s.dev sec.val) h.val → g.kind = .value → edgeAt s.dev sec.val g.srcClk = true →
    x = ackArrives g late (getHinge (getSec s.dev sec.val) h.val) → srcBusy x = false → valueBusy x = false → x.pendFull = false →
    v = pinBits (hingePin s.dev sec.val h.val via) 1 data → hingePin s.dev sec.val h.val via 0 true = true →
    hingePin s.dev sec.val h.val via 81 false = false →
    s.becomes (.valueLoad sec h true data false late via) fun d =>
      updHinge sec.val h.val (fun _ => { x with hold := clipValue g v, take := !x.take }) d) ∧
  (∀ (s : State) (sec : Sec) (h : Fin 64) (data : PWord) (late : Bool) (g : HingeCfg) (x : Hinge), s.ready →
    g = hingeCfg (items s.dev sec.val) h.val → g.kind = .value → edgeAt s.dev sec.val g.srcClk = true →
    x = ackArrives g late (getHinge (getSec s.dev sec.val) h.val) → srcBusy x = false → valueBusy x = true → x.pendFull = true →
    s.becomes (.valueLoad sec h true data false late []) fun d =>
      updHinge sec.val h.val (fun _ => { x with pending := clipValue g data, super := min (x.super + 1) 65535 }) d) ∧
  (∀ (s : State) (sec : Sec) (h : Fin 64) (g : HingeCfg) (late : Bool) (x : Hinge), s.ready → g = hingeCfg (items s.dev sec.val) h.val →
    g.kind = .value → edgeAt s.dev sec.val g.dstClk = true → x = getHinge (getSec s.dev sec.val) h.val → dstBusy x = false →
    s.becomes (.valueDelivery sec h late) fun d => updHinge sec.val h.val (fun x => { x with
        takeChain := (firstStage late x.take x.takePrev :: x.takeChain).take (hingeStages g), takePrev := x.take
        dNew := nth false x.takeChain (hingeStages g - 1) != x.ack, ack := nth false x.takeChain (hingeStages g - 1)
        dData := if nth false x.takeChain (hingeStages g - 1) = x.ack then x.dData else x.hold }) d) ∧
  (∀ (s : State) (sec : Sec) (h : Fin 64) (g : HingeCfg) (data : PWord) (late : Bool) (x : Hinge), s.ready →
    g = hingeCfg (items s.dev sec.val) h.val → g.kind = .value → edgeAt s.dev sec.val g.srcClk = true →
    x = getHinge (getSec s.dev sec.val) h.val → srcBusy x = false → valueBusy x = true →
    nth false x.ackChain (hingeStages g - 1) = x.take → x.pendFull = true →
    s.becomes (.valueHandshakeComplete sec h false data false late []) fun d =>
      updHinge sec.val h.val (fun x => { x with
        ackSeen := x.take, ackChain := (firstStage late x.ack x.ackPrev :: x.ackChain).take (hingeStages g), ackPrev := x.ack
        hold := x.pending, pendFull := false, take := !x.take }) d) ∧
  (∀ (s : State) (sec : Sec) (h : Fin 64) (late : Bool) (via : List PinMux) (g : HingeCfg) (x : Hinge), s.ready →
    g = hingeCfg (items s.dev sec.val) h.val → g.kind = .counter → edgeAt s.dev sec.val g.srcClk = true →
    srcBusy (getHinge (getSec s.dev sec.val) h.val) = false → x = countReturns g late (getHinge (getSec s.dev sec.val) h.val) →
    hingePin s.dev sec.val h.val via 0 true = true →
    unack (getHinge (getSec s.dev sec.val) h.val) < 255 → s.becomes (.counterEvent sec h late via) fun d =>
      updHinge sec.val h.val (fun _ => { x with
        cs := (x.cs + 1) % 256, ovf := x.ovf || decide (unack { x with cs := (x.cs + 1) % 256 } = 192) }) d) ∧
  (∀ (s : State) (sec : Sec) (h : Fin 64) (late : Bool) (g : HingeCfg), s.ready → g = hingeCfg (items s.dev sec.val) h.val → g.kind = .counter →
    edgeAt s.dev sec.val g.srcClk = true → srcBusy (getHinge (getSec s.dev sec.val) h.val) = false →
    unack (getHinge (getSec s.dev sec.val) h.val) = 255 → s.becomes (.counterEvent sec h late []) fun d =>
      updHinge sec.val h.val (fun x => { countReturns g late x with drop := true }) d) ∧
  (∀ (s : State) (sec : Sec) (h : Fin 64) (g : HingeCfg) (late : Nat) (x : Hinge), s.ready → tWf sectorDflt s.dev.sectors = true →
    tWf hingeDflt (getSec s.dev sec.val).hinges = true → g = hingeCfg (items s.dev sec.val) h.val → g.kind = .counter →
    edgeAt s.dev sec.val g.dstClk = true → x = getHinge (getSec s.dev sec.val) h.val → dstBusy x = false →
    s.performs (.counterDelivery sec h late) [.sectors] fun d =>
      (getHinge (getSec d sec.val) h.val).delta = min ((nth 0 x.cChain (hingeStages g - 1) + 256 - x.cd) % 256) 127 ∧
      (getHinge (getSec d sec.val) h.val).cd = (x.cd + (getHinge (getSec d sec.val) h.val).delta) % 256 ∧
      (getHinge (getSec d sec.val) h.val).cChain =
        ((x.cs + 256 - min late ((x.cs + 256 - x.csPrev) % 256)) % 256 :: x.cChain).take (hingeStages g) ∧
      (getHinge (getSec d sec.val) h.val).cs = x.cs ∧ ∀ j, j ≠ sec.val → getSec d j = getSec s.dev j) ∧
  (∀ (s : State) (sec : Sec) (h : Fin 64) (g : HingeCfg) (late : Bool), s.ready →
    g = hingeCfg (items s.dev sec.val) h.val → g.kind = .counter → edgeAt s.dev sec.val g.srcClk = true →
    srcBusy (getHinge (getSec s.dev sec.val) h.val) = false →
    s.becomes (.counterAcknowledge sec h late) fun d => updHinge sec.val h.val (fun x => { x with
      cRet := nth 0 x.backChain (hingeStages g - 1)
      backChain := (firstStage late x.cd x.cdPrev :: x.backChain).take (hingeStages g), cdPrev := x.cd }) d) ∧
  (∀ (s : State) (sec : Sec) (h : Fin 64) (inp late : BitVec 8) (via : List PinMux) (v : BitVec 8) (g : HingeCfg), s.ready →
    v = pinBits (hingePin s.dev sec.val h.val via) 0 inp → g = hingeCfg (items s.dev sec.val) h.val →
    g.kind = .level → edgeAt s.dev sec.val g.dstClk = true → dstBusy (getHinge (getSec s.dev sec.val) h.val) = false →
    s.becomes (.levelSynchroniserSample sec h inp late via) fun d => updHinge sec.val h.val (fun x => { x with
      chain := (((v &&& ~~~late) ||| (x.lPrev &&& late)) :: x.chain).take (hingeStages g), lPrev := v }) d) ∧
  (∀ (s : State) (sec : Sec) (h : Fin 64) (ps : Nat), s.ready → (hingeCfg (items s.dev sec.val) h.val).kind = .wake →
    fabricLive s.dev sec.val = true → 250 ≤ ps → s.becomes (.wakeRequest sec h ps) fun d =>
      updHinge sec.val h.val (fun x => { x with latch := true }) d) ∧
  (∀ (s : State) (sec : Sec) (h : Fin 64) (ps : Nat), s.ready → (hingeCfg (items s.dev sec.val) h.val).kind = .wake →
    fabricLive s.dev sec.val = true → ps < 250 → s.becomes (.wakeRequest sec h ps) fun d =>
      updHinge sec.val h.val (fun x => { x with latch := x.latch || Config.freeBit d.free }) { d with free := d.free + 1 }) ∧
  (∀ (s : State) (sec : Sec) (h : Fin 64) (via : List PinMux) (g : HingeCfg), s.ready →
    g = hingeCfg (items s.dev sec.val) h.val → g.kind = .wake →
    edgeAt s.dev sec.val { sel := BitVec.ofNat 6 (32 + g.wakeLine.toNat) } = true → hingePin s.dev sec.val h.val via 0 false = false →
    hingePin s.dev sec.val h.val via 1 true = true → s.becomes (.wakeClear sec h false via) fun d =>
      updHinge sec.val h.val (fun x => { x with latch := false }) d) ∧
  (∀ (s : State) (sec : Sec) (h : Fin 64) (g : HingeCfg), s.ready → g = hingeCfg (items s.dev sec.val) h.val → g.kind ≠ .wake →
    fabricLive s.dev sec.val = true → s.becomes (.hingeRst sec h .rise) fun d =>
      updHinge sec.val h.val (fun x =>
        { latch := x.latch, rst := true, busyS := hingeStages g + 1, busyD := hingeStages g + 1 }) d)

/-- The stages of bring-up (R421, R430, R431, R432, R435, R457, R462): DETECT, TRAIN, LOCK, EXCHANGE and ACTIVE follow one another,
and no other lane moves; a timeout counts and sends the lane back to DETECT, or to FAILED once it is the last one allowed; a loss
condition of an ACTIVE lane counts an exit and returns it to DETECT, and no lane of its bundle stays ACTIVE. It rests also on the
model's choice of assumption 93. -/
def Obligations.LaneStages : Prop :=
  (∀ (s : State) (n : Fin 128), s.ready → tWf laneDflt s.dev.links.lanes.lanes = true → pcieHolds s.dev n.val = false →
    (getLane s.dev n.val).stage = .detect → s.performs (.detectPulse n true) [.links, .regs] fun d =>
      getLane d n.val = { getLane s.dev n.val with stage := .train } ∧ ∀ m, m ≠ n.val → getLane d m = getLane s.dev m) ∧
  (∀ (s : State) (n : Fin 128), s.ready → tWf laneDflt s.dev.links.lanes.lanes = true → pcieHolds s.dev n.val = false →
    (getLane s.dev n.val).stage = .train → s.performs (.phaseLock n) [.links, .regs] fun d =>
      getLane d n.val = { getLane s.dev n.val with stage := .lock } ∧ ∀ m, m ≠ n.val → getLane d m = getLane s.dev m) ∧
  (∀ (s : State) (n : Fin 128), s.ready → tWf laneDflt s.dev.links.lanes.lanes = true → pcieHolds s.dev n.val = false →
    (getLane s.dev n.val).stage = .lock → laneMode s.dev n.val = 4 → lanePrbs s.dev n.val = 0 →
    s.performs (.blockLock n) [.links, .regs] fun d =>
      getLane d n.val = { getLane s.dev n.val with stage := .exchange } ∧ ∀ m, m ≠ n.val → getLane d m = getLane s.dev m) ∧
  (∀ (s : State) (n : Fin 128), s.steady → tWf laneDflt s.dev.links.lanes.lanes = true → pcieHolds s.dev n.val = false →
    n.val ≠ 0 → (getLane s.dev n.val).stage = .lock → laneMode s.dev n.val ≠ 4 →
    s.performs (.blockLock n) [.links, .regs] fun d =>
      getLane d n.val = { getLane s.dev n.val with stage := .active } ∧ fldR d (rLaneStatus n.val) 47 40 = 0 ∧
      ∀ m, m ≠ n.val → getLane d m = getLane s.dev m) ∧
  (∀ s : State, s.steady → tWf laneDflt s.dev.links.lanes.lanes = true → laneTiming s.dev = true →
    (getLane s.dev 0).stage = .lock → s.performs (.blockLock 0) [.links, .regs, .clk, .cab] fun d =>
      getLane d 0 = { getLane s.dev 0 with stage := .active } ∧ ∀ m, m ≠ 0 → getLane d m = getLane s.dev m) ∧
  (∀ (s : State) (n : Fin 128), s.steady → tWf laneDflt s.dev.links.lanes.lanes = true → n.val ≠ 0 →
    (getLane s.dev n.val).stage = .exchange → (getLane s.dev n.val).ackSent = true →
    s.performs (.exchangeComplete n) [.links, .regs] fun d =>
      getLane d n.val = { getLane s.dev n.val with stage := .active } ∧ fldR d (rLaneStatus n.val) 47 40 = 0 ∧
      ∀ m, m ≠ n.val → getLane d m = getLane s.dev m) ∧
  (∀ (s : State) (n : Fin 128), s.steady → pcieHolds s.dev n.val = false → (getLane s.dev n.val).stage = .detect →
    (getLane s.dev n.val).noPartner = true → s.performs (.laneStageTimeout n) [.regs] fun d =>
      bitR d (rLaneStatus n.val) 59 = true ∧ fldR d (rLaneStatus n.val) 57 55 = 1 ∧
      ∀ a, a ≠ rLaneStatus n.val → getR d a = getR s.dev a) ∧
  (∀ (s : State) (n : Fin 128), s.steady → tWf laneDflt s.dev.links.lanes.lanes = true → n.val ≠ 0 →
    pcieHolds s.dev n.val = false → laneLive s.dev n.val = true → laneLoop s.dev n.val = 0 → reactionOf s.dev fltLaneTable = 0 →
    (getLane s.dev n.val).stage = .train → fldR s.dev (rLaneStatus n.val) 47 40 + 1 < fldR s.dev (rLaneCfg n.val) 47 44 →
    s.performs (.laneStageTimeout n) [.links, .regs] fun d =>
      (getLane d n.val).stage = .detect ∧ fldR d (rLaneStatus n.val) 47 40 = fldR s.dev (rLaneStatus n.val) 47 40 + 1 ∧
      fldR d (rLaneStatus n.val) 57 55 = 2 ∧ ∀ m, m ≠ n.val → getLane d m = getLane s.dev m) ∧
  (∀ (s : State) (n : Fin 128), s.steady → tWf laneDflt s.dev.links.lanes.lanes = true → pcieHolds s.dev n.val = false →
    reactionOf s.dev fltLaneFailed = 0 → (getLane s.dev n.val).stage = .train → fldR s.dev (rLaneStatus n.val) 47 40 < 255 →
    max 1 (fldR s.dev (rLaneCfg n.val) 47 44) ≤ fldR s.dev (rLaneStatus n.val) 47 40 + 1 →
    s.performs (.laneStageTimeout n) [.links, .regs] fun d =>
      getLane d n.val = { getLane s.dev n.val with stage := .failed } ∧
      fldR d (rLaneStatus n.val) 47 40 = fldR s.dev (rLaneStatus n.val) 47 40 + 1 ∧ ∀ m, m ≠ n.val → getLane d m = getLane s.dev m) ∧
  (∀ (s : State) (n : Fin 128) (c : LaneCause), s.steady → s.calm → tWf laneDflt s.dev.links.lanes.lanes = true → n.val ≠ 0 →
    pcieHolds s.dev n.val = false → laneLive s.dev n.val = true → laneLoop s.dev n.val = 0 →
    (getLane s.dev n.val).stage = .active → causeApplies s.dev n.val c = true → bundleOfLane s.dev n.val = none →
    s.performs (.laneLoss n c) [.links, .regs, .groups, .flog, .out] fun d =>
      (getLane d n.val).stage = .detect ∧
      fldR d (rLaneStatus n.val) 31 16 = min (fldR s.dev (rLaneStatus n.val) 31 16 + 1) 0xFFFF ∧
      ∀ m, m ≠ n.val → getLane d m = getLane s.dev m) ∧
  (∀ (s : State) (n : Fin 128) (c : LaneCause) (b : Nat), s.steady → s.calm → tWf laneDflt s.dev.links.lanes.lanes = true →
    laneTiming s.dev = false → pcieHolds s.dev n.val = false → (getLane s.dev n.val).stage = .active →
    causeApplies s.dev n.val c = true → bundleOfLane s.dev n.val = some b →
    s.performs (.laneLoss n c) [.links, .regs, .groups, .flog, .out] fun d =>
      ∀ m ∈ bundleLanes s.dev b, (getLane d m).stage ≠ .active)

/-- Lane registers, the self-test and the raw interface (R419, R432, R435, R436, R438, R439): what a write of LANE_CFG and of
LANE_QUAD_CFG stores and starts; restart; LANE_ERR.clr; a quad that fails leaves service with its lanes OFF and its PLL stopped; an
ACTIVE raw lane sends the head of its queue and queues what it receives, or counts it as dropped; in the near-end parallel loop what
it would send arrives unchanged, and in the far-end loop what arrives is sent. It rests also on the model's choices of assumptions
94 and 120. -/
def Obligations.LaneRegisters : Prop :=
  (∀ (s : State) (n : Fin 128) (v : Word), s.steady → pcieHolds s.dev n.val = false → quadIn s.dev (n.val / 4) = true →
    bit v 63 = false → fld v 2 0 = fldR s.dev (rLaneCfg n.val) 2 0 → fld v 33 32 = fldR s.dev (rLaneCfg n.val) 33 32 →
    fld v 55 50 = fldR s.dev (rLaneCfg n.val) 55 50 → s.performs (.laneCfgWrite n v) [.regs] fun d =>
      getR d (rLaneCfg n.val) = v &&& BitVec.ofNat 64 laneCfgMask ∧ ∀ a, a ≠ rLaneCfg n.val → getR d a = getR s.dev a) ∧
  (∀ (s : State) (n : Fin 128) (v : Word), s.steady → tWf laneDflt s.dev.links.lanes.lanes = true → n.val ≠ 0 →
    pcieHolds s.dev n.val = false → quadIn s.dev (n.val / 4) = true → bundleOfLane s.dev n.val = none → fld v 2 0 = 0 →
    fldR s.dev (rLaneCfg n.val) 2 0 ≠ 0 → s.performs (.laneCfgWrite n v) [.regs, .links] fun d =>
      getR d (rLaneCfg n.val) = v &&& BitVec.ofNat 64 laneCfgMask ∧ getLane d n.val = { getLane s.dev n.val with stage := .off } ∧
      ∀ m, m ≠ n.val → getLane d m = getLane s.dev m) ∧
  (∀ (s : State) (n : Fin 128), s.steady → tWf laneDflt s.dev.links.lanes.lanes = true → n.val ≠ 0 →
    pcieHolds s.dev n.val = false → quadIn s.dev (n.val / 4) = true → laneLive s.dev n.val = true → laneLoop s.dev n.val = 0 →
    bundleOfLane s.dev n.val = none → reactionOf s.dev fltLaneTable = 0 →
    s.performs (.laneRestart n) [.regs, .links] fun d =>
      (getLane d n.val).stage = .detect ∧ fldR d (rLaneStatus n.val) 47 40 = 0 ∧ (getLane d n.val).noPartner = false ∧
      ∀ m, m ≠ n.val → getLane d m = getLane s.dev m) ∧
  (∀ (s : State) (j : Fin 32) (v : Word), s.steady → tWf laneDflt s.dev.links.lanes.lanes = true →
    tWf (fun _ => PllState.off) s.dev.clk.plls = true → quadIn s.dev j.val = true → pllState s.dev (31 + j.val) ≠ .holdover →
    s.dev.clk.reduced = false → (j.val % 8 < 4 ∨ (getPcie s.dev (j.val / 8)).perstHigh = false) → (∀ n ∈ quadLanes s.dev j.val, (getLane s.dev n).stage ≠ .active) →
    bit v 63 = true → bit v 62 = false → 1250000 ≤ fld v 24 0 → fld v 24 0 ≤ 32000000 →
    s.performs (.laneQuadCfgWrite j v) [.regs, .links, .clk] fun d =>
      fldR d (rQuadCfg j.val) 63 61 = fld v 63 61 ∧ fldR d (rQuadCfg j.val) 24 0 = fld v 24 0 ∧
      pllState d (31 + j.val) = .locking ∧ (∀ p, p ≠ 31 + j.val → pllState d p = pllState s.dev p) ∧
      ∀ n ∈ quadLanes s.dev j.val, (getLane d n).stage = .off) ∧
  (∀ (s : State) (n : Fin 128) (inc : BitVec 2), s.steady → s.performs (.laneErrClr n inc) [.regs] fun d =>
    fldR d (rLaneErr n.val) 31 0 = (inc.getLsbD 0).toNat ∧ fldR d (rLaneErr n.val) 47 32 = (inc.getLsbD 1).toNat ∧
    fldR d (rLaneErr n.val) 63 48 = fldR s.dev (rLaneErr n.val) 63 48 ∧ ∀ a, a ≠ rLaneErr n.val → getR d a = getR s.dev a) ∧
  (∀ s : State, s.ready → pllRuns s.dev 1 = true → s.dev.links.lanes.tested = false →
    s.performs (.laneSelfTest []) [.links] fun d => d.links.lanes.tested = true ∧ d.links.lanes.lanes = s.dev.links.lanes.lanes) ∧
  (∀ (s : State) (f : QuadFail), s.ready → s.calm → tWf laneDflt s.dev.links.lanes.lanes = true →
    tWf (fun _ => PllState.off) s.dev.clk.plls = true → pllRuns s.dev 1 = true → s.dev.links.lanes.tested = false → f.pll = true →
    f.quad.val ≠ 0 → (f.quad.val ≠ 4 ∨ (getPcie s.dev 0).perstHigh = false) → quadIn s.dev f.quad.val = true →
    (∀ k : Nat, k < 4 → (getLane s.dev (4 * f.quad.val + k)).stage ≠ .active) →
    s.performs (.laneSelfTest [f]) [.links, .units, .clk, .regs, .groups, .flog, .out] fun d =>
      quadIn d f.quad.val = false ∧ pllState d (31 + f.quad.val) = .off ∧ d.links.lanes.tested = true ∧
      ∀ k, k < 4 → (getLane d (4 * f.quad.val + k)).stage = .off) ∧
  (∀ (s : State) (j : Fin 32), s.ready → s.calm → tWf laneDflt s.dev.links.lanes.lanes = true →
    tWf (fun _ => PllState.off) s.dev.clk.plls = true → quadIn s.dev j.val = true → pllState s.dev (31 + j.val) = .unlocked →
    (∀ k : Nat, k < 4 → (getLane s.dev (4 * j.val + k)).stage ≠ .active) →
    s.performs (.fltLanePll j) [.links, .units, .clk, .regs, .groups, .flog, .out] fun d =>
      quadIn d j.val = false ∧ pllState d (31 + j.val) = .off ∧ ∀ k, k < 4 → (getLane d (4 * j.val + k)).stage = .off) ∧
  (∀ (s : State) (n : Fin 128) (w : BitVec 66) (ws : List (BitVec 66)), s.ready → tWf laneDflt s.dev.links.lanes.lanes = true →
    1 ≤ laneMode s.dev n.val → laneMode s.dev n.val ≤ 3 → (getLane s.dev n.val).stage = .active → laneLoop s.dev n.val = 0 →
    lanePrbs s.dev n.val = 0 → (getLane s.dev n.val).txq.words = w :: ws → (getLane s.dev n.val).txq.unseen ≤ ws.length →
    s.performs (.rawTransmitWord n [] 0 0) [.links, .out] fun d =>
      d.out = [.raw n.val w] ∧ (getLane d n.val).txq.words = ws ∧ (getLane d n.val).rxq = (getLane s.dev n.val).rxq ∧
      ∀ m, m ≠ n.val → getLane d m = getLane s.dev m) ∧
  (∀ (s : State) (n : Fin 128) (w : BitVec 66), s.steady → tWf laneDflt s.dev.links.lanes.lanes = true →
    1 ≤ laneMode s.dev n.val → laneMode s.dev n.val ≤ 3 → (getLane s.dev n.val).stage = .active → rawServed s.dev n.val = true →
    laneLoop s.dev n.val = 0 → (quadPam4 s.dev (n.val / 4) = false ∨ laneMode s.dev n.val ≠ 1 ∨ (getLane s.dev n.val).badLeft = 0) →
    (getLane s.dev n.val).rxq.words.length + (getLane s.dev n.val).rxq.freed < 32 →
    s.performs (.rawReceiveWord n w true 0 0 0 0) [.links, .regs] fun d =>
      (getLane d n.val).rxq.words = (getLane s.dev n.val).rxq.words ++
        [{ data := BitVec.ofNat 66 (w.toNat % 2 ^ rawWidth (laneMode s.dev n.val)), err := true }] ∧
      fldR d (rLaneErr n.val) 47 32 = min (fldR s.dev (rLaneErr n.val) 47 32 + 1) 0xFFFF ∧
      fldR d (rLaneErr n.val) 31 0 = fldR s.dev (rLaneErr n.val) 31 0 ∧ ∀ m, m ≠ n.val → getLane d m = getLane s.dev m) ∧
  (∀ (s : State) (n : Fin 128) (w : BitVec 66), s.steady → 1 ≤ laneMode s.dev n.val → laneMode s.dev n.val ≤ 3 →
    (getLane s.dev n.val).stage = .active → rawServed s.dev n.val = false → laneLoop s.dev n.val = 0 →
    s.performs (.rawReceiveWord n w false 0 0 0 0) [.links, .regs] fun d =>
      fldR d (rLaneStatus n.val) 15 0 = min (fldR s.dev (rLaneStatus n.val) 15 0 + 1) 0xFFFF ∧
      ∀ a, a ≠ rLaneStatus n.val → getR d a = getR s.dev a) ∧
  (∀ (s : State) (n : Fin 128) (w : BitVec 66) (ws : List (BitVec 66)), s.ready → tWf laneDflt s.dev.links.lanes.lanes = true →
    1 ≤ laneMode s.dev n.val → laneMode s.dev n.val ≤ 3 → (getLane s.dev n.val).stage = .active → laneLoop s.dev n.val = 2 →
    lanePrbs s.dev n.val = 0 → (getLane s.dev n.val).txq.words = w :: ws → (getLane s.dev n.val).txq.unseen ≤ ws.length →
    s.performs (.rawTransmitWord n [] 0 0) [.links] fun d =>
      (getLane d n.val).looped = some w ∧ (getLane d n.val).txq.words = ws ∧ ∀ m, m ≠ n.val → getLane d m = getLane s.dev m) ∧
  (∀ (s : State) (n : Fin 128) (w v : BitVec 66), s.steady → tWf laneDflt s.dev.links.lanes.lanes = true →
    1 ≤ laneMode s.dev n.val → laneMode s.dev n.val ≤ 3 → (getLane s.dev n.val).stage = .active → rawServed s.dev n.val = true →
    laneLoop s.dev n.val = 2 → lanePrbs s.dev n.val = 0 → (getLane s.dev n.val).looped = some v →
    (getLane s.dev n.val).rxq.words.length + (getLane s.dev n.val).rxq.freed < 32 →
    s.performs (.rawReceiveWord n w true 0 0 0 0) [.links] fun d =>
      (getLane d n.val).rxq.words = (getLane s.dev n.val).rxq.words ++
        [{ data := BitVec.ofNat 66 (v.toNat % 2 ^ rawWidth (laneMode s.dev n.val)), err := false }] ∧
      (getLane d n.val).looped = none ∧ ∀ m, m ≠ n.val → getLane d m = getLane s.dev m) ∧
  (∀ (s : State) (n : Fin 128) (w : BitVec 66) (e : Bool), s.ready → 1 ≤ laneMode s.dev n.val → laneMode s.dev n.val ≤ 3 →
    (getLane s.dev n.val).stage = .active → laneLoop s.dev n.val = 3 →
    s.performs (.rawReceiveWord n w e 0 0 0 0) [.links, .regs, .out] fun d => d.out = [.raw n.val w])

/-- Bring-up of a bundle (R457, R458, R461, R462, R467): a write of LINK_CFG that disables it leaves it OFF with none of its lanes
ACTIVE; one that enables a bundle that keeps every rule starts its bring-up, and one of width 8 at an odd number sets cfg_err; a
matching CAP set is accepted and its counter kept, another is answered accept 0 with its mismatch recorded; a complete ALIGN round
brings the bundle UP with the counts at 0, and one out of place takes it down. It rests also on the model's choices of assumptions
93 and 102. -/
def Obligations.BundleBringUp : Prop :=
  (∀ (s : State) (b : Fin 32) (v : Word), s.steady → tWf bundleDflt s.dev.links.bundles = true →
    tWf laneDflt s.dev.links.lanes.lanes = true → reactionOf s.dev fltLaneTable = 0 → bit v 63 = false →
    s.performs (.linkCfgWrite b v) [.links, .regs] fun d =>
      fldR d (rLinkCfg b.val) 63 61 = fld v 63 61 ∧ fldR d (rLinkCfg b.val) 2 0 = fld v 2 0 ∧ (getBundle d b.val).state = .off ∧
      (bundleEn s.dev b.val = true → ∀ n ∈ bundleLanes s.dev b.val, laneMode s.dev n = 4 → (getLane d n).stage ≠ .active)) ∧
  (∀ (s : State) (b : Fin 32) (v : Word), s.steady → tWf bundleDflt s.dev.links.bundles = true → bundleEn s.dev b.val = false →
    (getBundle s.dev b.val).state = .off → bit v 63 = true → fld v 2 0 = 2 → bundleEn s.dev (b.val ^^^ 1) = false →
    bridgeOn s.dev b.val = true →
    (∀ k : Nat, k < 4 → laneMode s.dev (4 * b.val + k) = 4 ∧ (getLane s.dev (4 * b.val + k)).stage = .off) →
    s.performs (.linkCfgWrite b v) [.links, .regs] fun d =>
      (getBundle d b.val).state = .bringup ∧ fldR d (rLinkStatus b.val) 60 59 = 0 ∧ fldR d (rLinkCfg b.val) 63 61 = fld v 63 61) ∧
  (∀ (s : State) (b : Fin 32) (v : Word), s.steady → tWf bundleDflt s.dev.links.bundles = true → bundleEn s.dev b.val = false →
    reactionOf s.dev fltLaneTable = 0 → bit v 63 = true → fld v 2 0 = 3 → b.val % 2 = 1 →
    s.performs (.linkCfgWrite b v) [.links, .regs] fun d =>
      (getBundle d b.val).state = .off ∧ bitR d (rLinkStatus b.val) 60 = true) ∧
  (∀ (s : State) (n : Fin 128) (w : List Word) (b : Nat), s.ready → tWf bundleDflt s.dev.links.bundles = true →
    tWf laneDflt s.dev.links.lanes.lanes = true → bundleOfLane s.dev n.val = some b → (getLane s.dev n.val).stage = .exchange →
    laneMode s.dev n.val = 4 → capMismatch s.dev b n.val (w.map (·.toNat)) = 0 →
    s.performs (.capBlock n w) [.links, .out] fun d =>
      d.out = [.capAck n.val true] ∧ getLane d n.val = { getLane s.dev n.val with ackSent := true } ∧
      (getBundle d b).peer = nbits (nth 0 (w.map (·.toNat)) 1) 47 0 + nbits (nth 0 (w.map (·.toNat)) 2) 15 0 * 2 ^ 48 ∧
      ∀ m, m ≠ n.val → getLane d m = getLane s.dev m) ∧
  (∀ (s : State) (n : Fin 128) (w : List Word) (b m : Nat), s.steady → bundleOfLane s.dev n.val = some b →
    (getLane s.dev n.val).stage = .exchange → laneMode s.dev n.val = 4 → m = capMismatch s.dev b n.val (w.map (·.toNat)) → m ≠ 0 →
    s.performs (.capBlock n w) [.regs, .out] fun d =>
      d.out = [.capAck n.val false] ∧ fldR d (rLinkStatus b) 58 56 = m ∧ ∀ a, a ≠ rLinkStatus b → getR d a = getR s.dev a) ∧
  (∀ (s : State) (b : Fin 32) (p : Bool), s.ready → tWf bundleDflt s.dev.links.bundles = true →
    (getBundle s.dev b.val).state = .aligning → s.performs (.alignBlock b true p) [.links] fun d =>
      getBundle d b.val = { getBundle s.dev b.val with
        state := .up, sent := 0, freedGot := 0, freed := 0, freedSent := 0, expect := (getBundle s.dev b.val).peer, buffer := []
        fwd := [], owed := [] } ∧
      (∀ k, k ≠ b.val → getBundle d k = getBundle s.dev k) ∧ d.links.lanes = s.dev.links.lanes) ∧
  (∀ (s : State) (b : Fin 32), s.steady → tWf bundleDflt s.dev.links.bundles = true → tWf laneDflt s.dev.links.lanes.lanes = true →
    reactionOf s.dev fltLaneTable = 0 → (getBundle s.dev b.val).state = .up →
    (∀ n ∈ bundleLanes s.dev b.val, laneMode s.dev n = 4) → s.performs (.alignBlock b true false) [.links, .regs] fun d =>
      (getBundle d b.val).state ≠ .up ∧ (getBundle d b.val).fwd = [] ∧
      fldR d (rLinkStatus b.val) 31 16 = min (fldR s.dev (rLinkStatus b.val) 31 16 + 1) 0xFFFF ∧
      ∀ n ∈ bundleLanes s.dev b.val, (getLane d n).stage ≠ .active)

/-- Traffic of a bundle that is UP (R460, R463 to R467): a held read goes out in one frame at its translated address; an expected
frame is accepted into the buffer, a damaged one is counted in bad_frames; CREDIT blocks carry and bring the freed counts;
LINK_ERR.clr; LINK_KEY_LOAD takes an unwrapped key of mode 2 and returns the frame counter to 0. It rests also on the model's
choices of assumptions 4, 21, 101, 102 and 155. -/
def Obligations.BundleTraffic : Prop :=
  (∀ (s : State) (b : Fin 32) (r : Reasm) (p : Parcel) (e : Endpoint) (x : Bundle), s.ready → tWf bundleDflt s.dev.links.bundles = true →
    tWf epDflt s.dev.net.eps = true → serves s.dev b.val = true → netRuns s.dev = true → e = getEp s.dev (bridgeKey b.val) →
    x = getBundle s.dev b.val → e.inq = [] → e.entering = [] → e.splits = [] → e.reasm = [r] → e.completions = [] → r.req = some p → r.refused = false →
    complete r = true → (memReq r p).op = .rd → (decodeWord (pWord p 0)).outcome = .clean → x.state = .up → x.owed = [] → x.fwd = [] →
    x.buffer = [] → frameRoom x ≠ 0 → bitR s.dev (rLinkXlate b.val (nbits (memReq r p).addr 34 31)) 63 = true →
    s.performs (.bundleForward b) [.net, .links, .out] fun d =>
      d.out = [.frame b.val (frameBlocks (linkEnc s.dev b.val) (linkRole s.dev b.val) (linkKey x) x.counter
        (translate (fldR s.dev (rLinkXlate b.val (nbits (memReq r p).addr 34 31)) 16 0) p))] ∧
      getBundle d b.val = { x with sent := (x.sent + 1) % 65536, counter := (x.counter + 1) % 2 ^ 64 } ∧
      (∀ k, k ≠ b.val → getBundle d k = getBundle s.dev k) ∧ ∀ k, k ≠ bridgeKey b.val → getEp d k = getEp s.dev k) ∧
  (∀ (s : State) (b : Fin 32) (head : BitVec 66) (rest : List (BitVec 66)) (bytes tag : List Nat) (x : Bundle), s.steady →
    tWf bundleDflt s.dev.links.bundles = true → x = getBundle s.dev b.val → x.state = .up → linkEnc s.dev b.val = false →
    blockSync head = 2 → blockType head = 0xE1 → frameBytes false (head :: rest) = some (bytes, tag) →
    fld head 19 8 = x.expect % 4096 → x.freed < 65536 → x.expect + 1 < 2 ^ 64 → serves s.dev b.val = false →
    s.performs (.parcelFrame b (head :: rest) false) [.links, .regs] fun d =>
      getBundle d b.val = { x with buffer := x.buffer ++ [parcelOfBytes bytes], expect := x.expect + 1 } ∧
      (∀ k, k ≠ b.val → getBundle d k = getBundle s.dev k) ∧ ∀ a, getR d a = getR s.dev a) ∧
  (∀ (s : State) (b : Fin 32) (head : BitVec 66) (rest : List (BitVec 66)), s.steady → (getBundle s.dev b.val).state = .up →
    blockSync head = 2 → blockType head = 0xE1 → s.performs (.parcelFrame b (head :: rest) true) [.regs] fun d =>
      fldR d (rLinkErr b.val) 31 16 = min (fldR s.dev (rLinkErr b.val) 31 16 + 1) 0xFFFF ∧
      ∀ a, a ≠ rLinkErr b.val → getR d a = getR s.dev a) ∧
  (∀ (s : State) (b : Fin 32) (block : BitVec 66) (g : Nat) (x : Bundle), s.steady → tWf bundleDflt s.dev.links.bundles = true →
    x = getBundle s.dev b.val → x.state = .up → blockSync block = 2 → blockType block = 0xE2 →
    g = (fld block 19 8 + 4096 - x.expect % 4096) % 4096 → g < 256 → s.performs (.creditBlock b block) [.links, .regs] fun d =>
      getBundle d b.val = { x with
        freedGot := fld block 35 20, freed := (x.freed + g) % 65536, expect := (x.expect + g) % 2 ^ 64 } ∧
      fldR d (rLinkStatus b.val) 15 0 = min (fldR s.dev (rLinkStatus b.val) 15 0 + g) 0xFFFF ∧
      ∀ a, a ≠ rLinkStatus b.val → getR d a = getR s.dev a) ∧
  (∀ (s : State) (b : Fin 32) (x : Bundle), s.ready → tWf bundleDflt s.dev.links.bundles = true → x = getBundle s.dev b.val →
    x.state = .up → x.buffer = [] → s.performs (.creditSend b) [.links, .out] fun d =>
      d.out = [.credit b.val (ctlBlock 0xE2 (x.counter % 4096 + x.freed * 2 ^ 12))] ∧
      getBundle d b.val = { x with freedSent := x.freed } ∧ ∀ k, k ≠ b.val → getBundle d k = getBundle s.dev k) ∧
  (∀ (s : State) (b : Fin 32) (inc : BitVec 3), s.steady → s.performs (.linkErrClr b inc) [.regs] fun d =>
    fldR d (rLinkErr b.val) 15 0 = (inc.getLsbD 0).toNat ∧ fldR d (rLinkErr b.val) 31 16 = (inc.getLsbD 1).toNat ∧
    fldR d (rLinkErr b.val) 47 32 = (inc.getLsbD 2).toNat ∧ ∀ a, a ≠ rLinkErr b.val → getR d a = getR s.dev a) ∧
  (∀ (s : State) (b : Fin 32) (wrapped : List Word) (k : List Nat), s.ready → tWf bundleDflt s.dev.links.bundles = true →
    s.mailbox 0x0403 ((0x1F, b.val) :: wholeWords wrapped) → unwrapKey s.dev wrapped = (0, 2, k) →
    s.performs (.linkKeyLoad b wrapped) [.links, .bureau] fun d =>
      d.ended s 6 0 ∧ d.bureau.keys = s.dev.bureau.keys ∧
      getBundle d b.val = { getBundle s.dev b.val with key := k.take 32, counter := 0 } ∧
      ∀ j, j ≠ b.val → getBundle d j = getBundle s.dev j) ∧
  (∀ (s : State) (b : Fin 32) (wrapped : List Word) (k : List Nat), s.ready → s.mailbox 0x0403 ((0x1F, b.val) :: wholeWords wrapped) →
    unwrapKey s.dev wrapped = (0, 1, k) → s.performs (.linkKeyLoad b wrapped) [.bureau] fun d => d.ended s 6 keyErrMode)

/-- The frame layout (R257, R459, R460): the 49 bytes of a parcel hold all of it, and the frame that carries a parcel is taken as
that parcel: block type, sequence number, CRC-32C and bytes agree. -/
def Obligations.FramesAgree : Prop :=
  ∀ (p : Parcel) (role : Bool) (key : List Nat) (c : Nat), p.pay.length = 4 →
    parcelOfBytes (linkBytes p) = p ∧ (linkBytes p).length = 49 ∧
    ∃ head rest, frameBlocks false role key c p = head :: rest ∧ rest.length = 7 ∧ blockSync head = 2 ∧ blockType head = 0xE1 ∧
      fld head 19 8 = c % 4096 ∧ (frameBytes false (head :: rest)).map (·.1) = some (linkBytes p)

/-- Controllers (R429, R442, R452 to R456): the rise of PERST_N gives the controller its lanes, cut into links by bifurcation, and
after DONE starts training; low returns lanes and registers; retraining takes the link of P0 down and makes it the full function; a
link comes up, goes down and changes its rate. It rests also on the model's choices of assumptions 95 and 100. -/
def Obligations.ControllerLinks : Prop :=
  (∀ (s : State) (q : Fin 4), s.ready → tWf pcieDflt s.dev.links.pcie = true → tWf laneDflt s.dev.links.lanes.lanes = true →
    (getPcie s.dev q.val).perstHigh = false → s.dev.links.lanes.heldE3 = false → s.dev.cfg.done = false → q.val ≠ 0 →
    s.performs (.pciePerstNRise q) [.links, .regs] fun d =>
      getPcie d q.val = { getPcie s.dev q.val with
        perstHigh := true, state := .off, full := false
        links := nth 1 [1, 2, 4] (fldR s.dev (rPcieCtrl q.val) 1 0) } ∧
      (∀ j, j ≠ q.val → getPcie d j = getPcie s.dev j) ∧ ∀ n ∈ pcieLanes q.val, (getLane d n).stage = .off) ∧
  (∀ (s : State) (q : Fin 4), s.ready → tWf pcieDflt s.dev.links.pcie = true → tWf laneDflt s.dev.links.lanes.lanes = true →
    (getPcie s.dev q.val).perstHigh = false → s.dev.links.lanes.heldE3 = false → s.dev.cfg.done = true →
    reactionOf s.dev fltLaneTable = 0 → s.performs (.pciePerstNRise q) [.links, .regs] fun d =>
      getPcie d q.val = { getPcie s.dev q.val with
        perstHigh := true, state := .training, full := true
        links := if q.val = 0 then 1 else nth 1 [1, 2, 4] (fldR s.dev (rPcieCtrl q.val) 1 0) } ∧
      (∀ j, j ≠ q.val → getPcie d j = getPcie s.dev j) ∧ ∀ n ∈ pcieLanes q.val, (getLane d n).stage = .detect) ∧
  (∀ (s : State) (q : Fin 4), s.settled → mainUp s.dev = false → tWf pcieDflt s.dev.links.pcie = true →
    s.performs (.pciePerstNRise q) [.links] fun d => getPcie d q.val = { getPcie s.dev q.val with perstHigh := true }) ∧
  (∀ (s : State) (q : Fin 4), s.steady → tWf pcieDflt s.dev.links.pcie = true → (getPcie s.dev q.val).perstHigh = true →
    (getPcie s.dev q.val).out = [] → reactionOf s.dev fltLaneTable = 0 → s.performs (.pciePerstNLow q) [.links, .regs] fun d =>
      getPcie d q.val = { nextId := (getPcie s.dev q.val).nextId } ∧ (∀ a, perstReg q.val a = true → getR d a = regReset a) ∧
      (∀ j, j ≠ q.val → getPcie d j = getPcie s.dev j) ∧ ∀ n ∈ pcieLanes q.val, (getLane d n).stage ≠ .active) ∧
  (∀ s : State, s.ready → tWf pcieDflt s.dev.links.pcie = true → tWf laneDflt s.dev.links.lanes.lanes = true →
    (getPcie s.dev 0).perstHigh = true → s.dev.cfg.done = true → s.dev.links.lanes.heldE3 = false → (getPcie s.dev 0).out = [] →
    (getPcie s.dev 0).links = 1 → (getPcie s.dev 0).host = [] → (getPcie s.dev 0).up = [0] → reactionOf s.dev fltLaneTable = 0 →
    s.performs .pcieRetrain [.links, .regs] fun d =>
      getPcie d 0 = { getPcie s.dev 0 with up := [], gen := 0, width := 0, state := .retraining, full := true } ∧
      (∀ j, j ≠ 0 → getPcie d j = getPcie s.dev j) ∧ ∀ n ∈ pcieLanes 0, (getLane d n).stage = .detect) ∧
  (∀ (s : State) (q link : Fin 4) (width : Fin 17), s.ready → tWf pcieDflt s.dev.links.pcie = true →
    tWf laneDflt s.dev.links.lanes.lanes = true → (getPcie s.dev q.val).state = .training → link.val ∉ (getPcie s.dev q.val).up →
    link.val < (getPcie s.dev q.val).links →
    ([1, 2, 4, 8, 16] : List Nat).contains ((linkLanes s.dev q.val link.val).take width.val).length = true →
    (∀ n ∈ linkLanes s.dev q.val link.val, quadIn s.dev (n / 4) = true) →
    s.performs (.pcieLinkUp q link width) [.links, .regs, .out] fun d =>
      (getPcie d q.val).up = (getPcie s.dev q.val).up ++ [link.val] ∧ (getPcie d q.val).state = .up ∧
      (link.val = 0 → (getPcie d q.val).gen = 1) ∧
      (∀ n ∈ (linkLanes s.dev q.val link.val).take width.val, (getLane d n).stage = .active) ∧
      ∀ j, j ≠ q.val → getPcie d j = getPcie s.dev j) ∧
  (∀ (s : State) (q link : Fin 4), s.ready → tWf pcieDflt s.dev.links.pcie = true → tWf laneDflt s.dev.links.lanes.lanes = true →
    (getPcie s.dev q.val).perstHigh = true → (getPcie s.dev q.val).links ≤ 4 → (getPcie s.dev q.val).up = [link.val] → (getPcie s.dev q.val).state = .up →
    (getPcie s.dev q.val).out = [] → s.performs (.pcieLinkDown q link) [.links, .regs] fun d =>
      (getPcie d q.val).up = [] ∧ (getPcie d q.val).state = .training ∧ (getPcie d q.val).dmas = (getPcie s.dev q.val).dmas ∧
      (∀ n ∈ linkLanes s.dev q.val link.val, (getLane d n).stage = .detect) ∧
      ∀ j, j ≠ q.val → getPcie d j = getPcie s.dev j) ∧
  (∀ (s : State) (q : Fin 4) (gen : Fin 6), s.ready → tWf pcieDflt s.dev.links.pcie = true → 0 ∈ (getPcie s.dev q.val).up →
    (getPcie s.dev q.val).state = .up → gen.val ≠ 0 → gen.val ≤ maxGen s.dev q.val → reactionOf s.dev fltLaneTable = 0 →
    s.performs (.pcieRateChange q 0 gen) [.links, .regs] fun d =>
      getPcie d q.val = { getPcie s.dev q.val with gen := gen.val } ∧ ∀ j, j ≠ q.val → getPcie d j = getPcie s.dev j)

/-- The outbound window (R447, R448): a request that comes while the window is closed is answered BAD_REQUEST; an open one sends one
memory read for a range that one TLP holds, or waits while the link has all its reads outstanding; the host's last completion
answers the requester with the data, its timeout with BAD_REQUEST; a completion that fails ECRC only counts. It rests also on the
model's choices of assumptions 95, 97 and 143. -/
def Obligations.OutboundWindow : Prop :=
  (∀ (s : State) (q : Fin 4) (src : RouterAddr) (port : BitVec 2) (tag : BitVec 12) (lim : TlpLimits) (r : MemReq) (d0 : Dev), s.ready →
    takeRequest (pcieKey q.val) src.toNat port.toNat tag.toNat none (gather (pcieKey q.val) { s.dev with out := [] }) = (.perform r, d0) →
    d0.due = [] → outOpen d0 q.val = false → s.becomes (.outboundRequest q src port tag lim) fun _ =>
      respond (pcieKey q.val) r rspBadRequest [] d0) ∧
  (∀ (s : State) (q : Fin 4) (src : RouterAddr) (port : BitVec 2) (tag : BitVec 12) (lim : TlpLimits) (r : MemReq) (d0 : Dev) (lo hi : Nat),
    s.ready →
    takeRequest (pcieKey q.val) src.toNat port.toNat tag.toNat none (gather (pcieKey q.val) { s.dev with out := [] }) = (.perform r, d0) →
    d0.due = [] → outOpen d0 q.val = true → r.op = .rd → enablesNone r.len r.first r.last = false →
    (lo, hi) = reqRange r.addr r.len r.first r.last → lo < hi → hi - lo ≤ readLimit lim → lo / 4096 = (hi - 1) / 4096 →
    ((getPcie d0 q.val).out.map fun o => o.left.length).sum < 256 →
    s.becomes (.outboundRequest q src port tag lim) fun _ =>
      updPcie (emit (updPcie d0 q.val fun c => { c with nextId := c.nextId + 1 })
        (.memRead q.val 0 (fldR d0 (rOutwin q.val) 28 0 * 2 ^ 35 + (lo - r.addr / 2 ^ 35 * 2 ^ 35)) (hi - lo) (getPcie d0 q.val).nextId))
        q.val fun c => { c with
          out := c.out ++ [{ req := r, left := [((getPcie d0 q.val).nextId, lo - r.addr / 2 ^ 35 * 2 ^ 35, hi - lo)] }] }) ∧
  (∀ (s : State) (q : Fin 4) (src : RouterAddr) (port : BitVec 2) (tag : BitVec 12) (lim : TlpLimits) (r : MemReq) (d0 d1 : Dev), s.ready →
    d1 = gather (pcieKey q.val) { s.dev with out := [] } → d1.due = [] →
    takeRequest (pcieKey q.val) src.toNat port.toNat tag.toNat none d1 = (.perform r, d0) → outOpen d0 q.val = true → r.op = .rd →
    enablesNone r.len r.first r.last = false → 256 ≤ ((getPcie d0 q.val).out.map fun o => o.left.length).sum →
    s.becomes (.outboundRequest q src port tag lim) fun _ => d1) ∧
  (∀ (s : State) (q : Fin 4) (id : Nat) (bytes : List (BitVec 8)) (o : Outbound) (off : Nat), s.steady →
    tWf pcieDflt s.dev.links.pcie = true → linkUp s.dev q.val 0 = true → (getPcie s.dev q.val).out = [o] →
    o.left = [(id, off, bytes.length)] → s.performs (.hostCompletion q id true (.sc [(bytes, false)])) [.net, .links, .regs] fun d =>
      d.net = (respond (pcieKey q.val) o.req rspOk (readParcels o.req ((reqWords o.req).map fun a =>
        (a, outWord { o with left := [], got := o.got ++ bytes.zipIdx.map fun b => (off + b.2, b.1, false) }
          (a - o.req.addr / 2 ^ 35 * 2 ^ 35)))) s.dev).net ∧
      getPcie d q.val = { getPcie s.dev q.val with out := [] } ∧ ∀ a, getR d a = getR s.dev a) ∧
  (∀ (s : State) (q : Fin 4) (id : Nat) (st : HostStatus), s.steady → linkUp s.dev q.val 0 = true →
    s.performs (.hostCompletion q id false st) [.regs] fun d =>
      fldR d (rPcieStatus q.val) 40 32 = min (fldR s.dev (rPcieStatus q.val) 40 32 + 1) 0x1FF ∧
      ∀ a, a ≠ rPcieStatus q.val → getR d a = getR s.dev a) ∧
  (∀ (s : State) (q : Fin 4) (id off n : Nat) (o : Outbound), s.ready → tWf pcieDflt s.dev.links.pcie = true →
    (getPcie s.dev q.val).out = [o] → o.left = [(id, off, n)] →
    s.performs (.pcieCompletionTimeout q id) [.net, .links] fun d =>
      d.net = (respond (pcieKey q.val) o.req rspBadRequest [] s.dev).net ∧
      getPcie d q.val = { getPcie s.dev q.val with out := [] })

/-- DMA engines (R449 to R451): enabling and the ring's tail start an engine whose head differs from its tail, en 0 and stop end it;
a descriptor is read, and one from the device issues its reads under the engine's agent number, which is in [11:9] of every tag that
they take; a host status other than SC becomes the descriptor's code; the end writes word 3 and advances head, or stops the engine
in ERROR. It rests also on the model's choices of assumptions 97, 99 and 143. -/
def Obligations.DmaEngines : Prop :=
  (∀ (s : State) (q e : Fin 4) (v : Word), s.steady → tWf pcieDflt s.dev.links.pcie = true →
    tWf dmaDflt (getPcie s.dev q.val).dmas = true → bit v 63 = false →
    s.performs (.dmaEnable q e v) [.regs, .links] fun d =>
      getDma d q.val e.val = {} ∧ fldR d (rRingCfg q.val e.val) 3 0 = fld v 3 0 ∧ bitR d (rRingCfg q.val e.val) 63 = false ∧
      ∀ a, a ≠ rRingCfg q.val e.val → getR d a = getR s.dev a) ∧
  (∀ (s : State) (q e : Fin 4) (v : Word), s.steady → tWf pcieDflt s.dev.links.pcie = true →
    tWf dmaDflt (getPcie s.dev q.val).dmas = true → bitR s.dev (rRingCfg q.val e.val) 63 = false → bit v 63 = true →
    ringHead s.dev q.val e.val ≠ fldR s.dev (rRingTail q.val e.val) 19 0 % 2 ^ (fld v 3 0 + 4) →
    s.performs (.dmaEnable q e v) [.regs, .links] fun d =>
      getDma d q.val e.val = { state := .running } ∧ bitR d (rRingCfg q.val e.val) 63 = true ∧
      (∀ f, f ≠ e.val → getDma d q.val f = getDma s.dev q.val f) ∧ ∀ a, a ≠ rRingCfg q.val e.val → getR d a = getR s.dev a) ∧
  (∀ (s : State) (q e : Fin 4), s.ready → tWf pcieDflt s.dev.links.pcie = true → tWf dmaDflt (getPcie s.dev q.val).dmas = true →
    (getDma s.dev q.val e.val).state = .running → s.performs (.dmaStop q e) [.links] fun d =>
      getDma d q.val e.val = (if (getDma s.dev q.val e.val).run.isSome then { getDma s.dev q.val e.val with stopping := true }
        else { getDma s.dev q.val e.val with state := .stopped }) ∧
      ∀ f, f ≠ e.val → getDma d q.val f = getDma s.dev q.val f) ∧
  (∀ (s : State) (q e : Fin 4) (tail : BitVec 20), s.steady → tWf pcieDflt s.dev.links.pcie = true →
    tWf dmaDflt (getPcie s.dev q.val).dmas = true → bitR s.dev (rRingCfg q.val e.val) 63 = true →
    (getDma s.dev q.val e.val).state = .idle → ringHead s.dev q.val e.val ≠ tail.toNat % ringSize s.dev q.val e.val →
    s.performs (.ringTailWrite q e tail) [.regs, .links] fun d =>
      fldR d (rRingTail q.val e.val) 19 0 = tail.toNat ∧ (getDma d q.val e.val).state = .running ∧
      ∀ a, a ≠ rRingTail q.val e.val → getR d a = getR s.dev a) ∧
  (∀ (s : State) (q e : Fin 4) (bytes : List (BitVec 8)) (src : HostStatus) (lim : TlpLimits) (host dev n dr dp : Nat) (x : Issue), s.steady →
    tWf pcieDflt s.dev.links.pcie = true → tWf dmaDflt (getPcie s.dev q.val).dmas = true → tWf epDflt s.dev.net.eps = true →
    pcieIn s.dev q.val = true → linkUp s.dev q.val 0 = true → getDma s.dev q.val e.val = { state := .running } →
    bytes = ((leBytes 8 host) ++ leBytes 8 (2 ^ 63 + dev) ++ leBytes 8 n ++ leBytes 8 0) → host < 2 ^ 64 → dev < 2 ^ 48 → 0 < n →
    n ≤ 2048 → dev / 2048 = (dev + n - 1) / 2048 → x = rangeIssue .rd dev (List.replicate n (some (0, false))) 0 →
    decodeAddr s.dev false x.addr x.len x.first x.last = .to dr dp → (getEp s.dev (pcieKey q.val)).requests = [] →
    s.performs (.dmaDescriptor q e (.sc [(bytes, false)]) src lim) [.net, .links, .regs, .out] fun d =>
      d.out = [.memRead q.val 0 (fldR s.dev (rRingBase q.val e.val) 63 6 * 64 + 32 * ringHead s.dev q.val e.val) 32
        (getPcie s.dev q.val).nextId] ∧
      getDma d q.val e.val = { state := .running, run := some { host, toHost := true, irq := false, dev, length := n
                                                                tags := [((getEp s.dev (pcieKey q.val)).nextId, 0, n)] } } ∧
      (getEp d (pcieKey q.val)).requests.map (fun y => (y.id, y.agent, y.op, y.dstR, y.dstP)) =
        [((getEp s.dev (pcieKey q.val)).nextId, some e.val, .rd, dr, dp)] ∧
      (∀ k, k ≠ pcieKey q.val → getEp d k = getEp s.dev k) ∧ ∀ a, getR d a = getR s.dev a) ∧
  (∀ (s : State) (q e : Fin 4) (st src : HostStatus) (lim : TlpLimits), s.ready → tWf pcieDflt s.dev.links.pcie = true →
    tWf dmaDflt (getPcie s.dev q.val).dmas = true → linkUp s.dev q.val 0 = true → getDma s.dev q.val e.val = { state := .running } →
    hostCode st ≠ 0 → s.performs (.dmaDescriptor q e st src lim) [.links, .out] fun d =>
      ∃ r, (getDma d q.val e.val).run = some r ∧ r.code = hostCode st ∧ r.todo = [] ∧ r.tags = [] ∧ r.moved = 0) ∧
  (∀ (s : State) (q e : Fin 4) (r : DmaRun) (h : Nat), s.steady → tWf pcieDflt s.dev.links.pcie = true →
    tWf dmaDflt (getPcie s.dev q.val).dmas = true → linkUp s.dev q.val 0 = true → (getDma s.dev q.val e.val).run = some r → r.todo = [] →
    r.tags = [] → r.irq = false → r.poisoned = false → r.code = 0 → (getDma s.dev q.val e.val).stopping = false →
    h = ringHead s.dev q.val e.val → s.performs (.dmaDescriptorComplete q e) [.links, .regs, .out] fun d =>
      d.out = [.memWrite q.val 0 (fldR s.dev (rRingBase q.val e.val) 63 6 * 64 + 32 * h + 24)
        ((leBytes 8 (2 ^ 63 + r.moved % 2 ^ 32)).map some) false false] ∧
      ringHead d q.val e.val = (h + 1) % ringSize s.dev q.val e.val ∧ (getDma d q.val e.val).run = none ∧
      (getDma d q.val e.val).state = (if (h + 1) % ringSize s.dev q.val e.val = ringTail s.dev q.val e.val then .idle else .running) ∧
      ∀ a, a ≠ rRingStatus q.val e.val → getR d a = getR s.dev a) ∧
  (∀ (s : State) (q e : Fin 4) (r : DmaRun), s.steady → tWf pcieDflt s.dev.links.pcie = true →
    tWf dmaDflt (getPcie s.dev q.val).dmas = true → linkUp s.dev q.val 0 = true → (getDma s.dev q.val e.val).run = some r → r.todo = [] →
    r.tags = [] → r.irq = false → r.poisoned = false → r.code ≠ 0 → r.code < 256 →
    s.performs (.dmaDescriptorComplete q e) [.links, .regs, .out] fun d =>
      (getDma d q.val e.val).state = .error ∧ fldR d (rRingStatus q.val e.val) 55 48 = r.code ∧
      ringHead d q.val e.val = ringHead s.dev q.val e.val ∧ (getDma d q.val e.val).run = none) ∧
  (∀ (p : Endpoint) (a t : Nat), tagFor p (some a) = some t → t / 512 = a ∧ (p.txns.all fun x => x.tag ≠ t) = true)

/-- Stored words (R3, R305, R317, R318): a word written at a device address that a memory stores reads back there, and every word of
another place reads as before. It rests also on the model's choice of assumption 48. -/
def Obligations.MemoryWords : Prop :=
  ∀ (d : Dev) (a : Nat) (v : PWord), tWf dieDflt d.mem.sram = true → tWf chDflt d.mem.ddr = true →
    (∀ n, tWf (fun _ => none) (getDie d n).arr = true) → (∀ n, tWf (fun _ => none) (getCh d n).arr = true) →
    storeUnit d (plainAddr a) < 12 →
    memGet (memSet d a v) a = v ∧ sameBut [.mem, .out] d (memSet d a v) ∧
    ∀ b, (storeUnit d (plainAddr b), wordIdx (plainAddr b)) ≠ (storeUnit d (plainAddr a), wordIdx (plainAddr a)) →
      memGet (memSet d a v) b = memGet d b

/-- SRAM dies and table ports (R306 to R312): commands of a table port are queued at an edge of its clock, and its data is shown in
order; a port cycle performs a plaintext word write at once with its acknowledgement, reads a word, and returns a read 18 cycles
after its last word; the 16th parity failure in a row of one command takes the die out of service. It rests also on the model's
choices of assumptions 17 and 18. -/
def Obligations.SramDies : Prop :=
  (∀ (s : State) (q : Fin 4) (ra : BitVec 22), s.ready → tWf dieDflt s.dev.mem.sram = true → tpEdge s.dev q.val = true →
    (getDie s.dev q.val).tpReads.length < 16 → s.performs (.tablePortRead q ra) [.mem] fun d =>
      getDie d q.val = { getDie s.dev q.val with tpReads := (getDie s.dev q.val).tpReads ++ [ra.toNat] } ∧
      d.mem.ddr = s.dev.mem.ddr ∧ ∀ m, m ≠ q.val → getDie d m = getDie s.dev m) ∧
  (∀ (s : State) (q : Fin 4) (wa : BitVec 22) (we : BitVec 2) (w0 w1 : Word) (p0 p1 : Bool), s.ready →
    tWf dieDflt s.dev.mem.sram = true → tpEdge s.dev q.val = true → (getDie s.dev q.val).tpWrites.length < 16 →
    s.performs (.tablePortWrite q wa we w0 w1 p0 p1) [.mem] fun d =>
      getDie d q.val = { getDie s.dev q.val with tpWrites := (getDie s.dev q.val).tpWrites ++
        [{ wa := wa.toNat, we := we.toNat, wd := (w0, w1), wp := (p0, p1) }] } ∧
      d.mem.ddr = s.dev.mem.ddr ∧ ∀ m, m ≠ q.val → getDie d m = getDie s.dev m) ∧
  (∀ (s : State) (q : Fin 4), s.ready → tWf dieDflt s.dev.mem.sram = true → tpEdge s.dev q.val = true →
    s.performs (.tablePortReadData q) [.mem] fun d =>
      getDie d q.val = { getDie s.dev q.val with
        tpOut := (getDie s.dev q.val).tpResp.head?, tpResp := (getDie s.dev q.val).tpResp.tail } ∧
      d.mem.ddr = s.dev.mem.ddr ∧ ∀ m, m ≠ q.val → getDie d m = getDie s.dev m) ∧
  (∀ (s : State) (n : Fin 4) (a : SramAcc) (u : Nat) (die : SramDie), s.ready → tWf dieDflt s.dev.mem.sram = true →
    (∀ m, tWf (fun _ => none) (getDie s.dev m).arr = true) → die = getDie s.dev n.val → pllRuns s.dev (27 + n.val) = true →
    sramOut s.dev n.val = false → die.filled = true → die.accs = [a] → die.tpReads = [] → die.tpWrites = [] → die.tpPipe = [] →
    a.req.op = .wr → a.ctx = {} → reqWords a.req = [u] → wordMask a.req u = 255 → a.left = [u] → a.code = 0 → u % 8 = 0 →
    storeUnit s.dev (plainAddr u) = 8 + n.val → s.performs (.sramPortCycle n) [.mem, .net] fun d =>
      memGet d u = carriedWord a.req u ∧ (getDie d n.val).accs = [] ∧ d.net = (respond (dieKey n.val) a.req rspOk [] s.dev).net ∧
      ∀ b, (storeUnit s.dev (plainAddr b), wordIdx (plainAddr b)) ≠ (8 + n.val, wordIdx (plainAddr u)) → memGet d b = memGet s.dev b) ∧
  (∀ (s : State) (n : Fin 4) (a : SramAcc) (u : Nat) (die : SramDie), s.ready → tWf dieDflt s.dev.mem.sram = true →
    die = getDie s.dev n.val → pllRuns s.dev (27 + n.val) = true → sramOut s.dev n.val = false → die.filled = true → die.accs = [a] →
    die.tpReads = [] → die.tpWrites = [] → die.tpPipe = [] → a.req.op = .rd → a.ctx = {} → reqWords a.req = [u] → a.left = [u] →
    a.code = 0 → u % 8 = 0 → (decodeWord (memGet s.dev u)).outcome = .clean → s.performs (.sramPortCycle n) [.mem] fun d =>
      (getDie d n.val).accs = [{ a with left := [], paid := (0, 0), age := 0, got := a.got ++
        [(u, encodeWord (decodeWord (memGet s.dev u)).data (decodeWord (memGet s.dev u)).poison)] }] ∧
      ∀ b, memGet d b = memGet s.dev b) ∧
  (∀ (s : State) (n : Fin 4) (a : SramAcc) (die : SramDie), s.ready → tWf dieDflt s.dev.mem.sram = true →
    die = getDie s.dev n.val → pllRuns s.dev (27 + n.val) = true → sramOut s.dev n.val = false → die.filled = true → die.accs = [a] →
    die.tpReads = [] → die.tpWrites = [] → die.tpPipe = [] → a.req.op = .rd → a.left = [] → a.age = 17 →
    s.performs (.sramPortCycle n) [.mem, .net] fun d =>
      d.net = (respond (dieKey n.val) a.req a.code (readParcels a.req a.got) s.dev).net ∧ (getDie d n.val).accs = [] ∧
      ∀ b, memGet d b = memGet s.dev b) ∧
  (∀ (s : State) (n : Fin 4) (tp : Bool) (addr : BitVec 48), s.ready → tWf dieDflt s.dev.mem.sram = true →
    sramOut s.dev n.val = false → parityRun (getDie s.dev n.val) tp addr.toNat < 15 → s.performs (.sramCommandParityFail n tp addr) [.mem] fun d =>
      parityRun (getDie d n.val) tp addr.toNat = parityRun (getDie s.dev n.val) tp addr.toNat + 1 ∧
      (∀ t b, (t, b) ≠ (tp, addr.toNat) → parityRun (getDie d n.val) t b = parityRun (getDie s.dev n.val) t b) ∧
      getDie d n.val = { getDie s.dev n.val with parityRuns := (getDie d n.val).parityRuns } ∧
      d.mem.ddr = s.dev.mem.ddr ∧ ∀ m, m ≠ n.val → getDie d m = getDie s.dev m) ∧
  (∀ (s : State) (n : Fin 4) (tp : Bool) (addr : BitVec 48), s.ready → s.calm → tWf dieDflt s.dev.mem.sram = true →
    sramOut s.dev n.val = false → parityRun (getDie s.dev n.val) tp addr.toNat = 15 →
    s.performs (.sramCommandParityFail n tp addr) [.mem, .units, .enc, .groups, .flog, .regs, .out] fun d =>
      sramOut d n.val = true ∧ (getDie d n.val).accs = [] ∧ (∀ m, m ≠ n.val → sramOut d m = sramOut s.dev m) ∧
      d.mem.ddr = s.dev.mem.ddr)

/-- The DDR5 scheduler (R322 to R326): a read that waits for the write of its line lets the write go first, which stores its words;
a read of an open row is answered; a closed row is opened, unless its bank's activate count has reached the device's threshold: then
the bank is given an RFM; refresh is postponed while reads wait, and closes rows otherwise, with an RFM for a bank that requires
one; an idle rank enters power-down and self-refresh. It rests also on the model's choices of assumptions 35, 149 and 150. -/
def Obligations.DdrScheduling : Prop :=
  (∀ (s : State) (n : Fin 8) (r0 r1 : List Nat) (c : DdrChan) (t : DdrTxn) (e w : DdrEntry) (a : Nat) (v : PWord), s.ready →
    tWf chDflt s.dev.mem.ddr = true → tWf epDflt s.dev.net.eps = true → tWf (fun _ => none) (getCh s.dev n.val).arr = true →
    c = getCh s.dev n.val → c.state = .ready → pllRuns s.dev (19 + n.val) = true →
    (getEp s.dev (chKey n.val)).completions = [] → c.txns = [t] → t.waiting = [] → t.lines ≠ [] → t.part = .none → c.sub1 = {} →
    c.ahead = [] → c.retrain = [] → c.sub0.reads = [e] → c.sub0.writes = [w] → e.line = w.line → e.seq ≠ w.seq → w.kind = .write → w.data = [(a, v)] →
    c.power = [] → openRow c.sub0 (bankOf s.dev w.line) = some (rowOf s.dev w.line) → storeUnit s.dev (plainAddr a) = n.val →
    s.performs (.ddrSchedulerCycle n r0 r1) [.mem] fun d =>
      memGet d a = v ∧ (getCh d n.val).sub0.writes = [] ∧ (getCh d n.val).sub0.reads = [e] ∧ (getCh d n.val).txns = [t] ∧
      ∀ b, (storeUnit s.dev (plainAddr b), wordIdx (plainAddr b)) ≠ (n.val, wordIdx (plainAddr a)) → memGet d b = memGet s.dev b) ∧
  (∀ (s : State) (n : Fin 8) (r0 r1 : List Nat) (c : DdrChan) (t : DdrTxn) (e : DdrEntry) (w : Nat) (x : PWord), s.ready →
    tWf chDflt s.dev.mem.ddr = true → tWf epDflt s.dev.net.eps = true → c = getCh s.dev n.val → c.state = .ready →
    pllRuns s.dev (19 + n.val) = true → (getEp s.dev (chKey n.val)).completions = [] → c.txns = [t] → t.waiting = [] →
    t.lines = [e.line] → t.part = .none → t.got = [] → t.code = 0 → t.partCode = 0 → t.ctx = {} → t.req.op = .rd → c.sub1 = {} →
    c.ahead = [] → c.retrain = [] → c.sub0.reads = [e] → c.sub0.writes = [] → e.kind = .read → e.txn = t.id → c.power = [] →
    openRow c.sub0 (bankOf s.dev e.line) = some (rowOf s.dev e.line) → lineWords t.req e.line = [w] → w < 8 →
    x = memGet s.dev (lineBase e.line + 8 * w) → (decodeWord x).outcome = .clean → plainAddr (lineBase e.line) = lineBase e.line →
    s.performs (.ddrSchedulerCycle n r0 r1) [.mem, .net] fun d =>
      d.net = (respond (chKey n.val) t.req rspOk (readParcels t.req [(lineBase e.line + 8 * w + t.req.addr / 2 ^ 42 * 2 ^ 42,
        encodeWord (decodeWord x).data (decodeWord x).poison)]) s.dev).net ∧
      (getCh d n.val).sub0.reads = [] ∧ (getCh d n.val).txns = [] ∧ ∀ b, memGet d b = memGet s.dev b) ∧
  (∀ (s : State) (n : Fin 8) (r1 : List Nat) (c : DdrChan) (t : DdrTxn) (e : DdrEntry) (b : Nat), s.ready →
    tWf chDflt s.dev.mem.ddr = true → tWf epDflt s.dev.net.eps = true → c = getCh s.dev n.val → c.state = .ready →
    pllRuns s.dev (19 + n.val) = true → (getEp s.dev (chKey n.val)).completions = [] → c.txns = [t] → t.waiting = [] → t.lines ≠ [] →
    t.part = .none → c.sub1 = {} → c.ahead = [] → c.retrain = [] → c.sub0.reads = [e] → c.sub0.writes = [] → e.kind ≠ .ahead →
    c.power = [] → b = bankOf s.dev e.line → b < 128 → openRow c.sub0 b = none → tWf (fun _ => none) c.sub0.openRows = true →
    (c.rfmAt = 0 ∨ tGet (fun _ => 0) c.activates b < c.rfmAt) → tWf (fun _ => 0) c.activates = true → s.performs (.ddrSchedulerCycle n [b] r1) [.mem] fun d =>
      openRow (getCh d n.val).sub0 b = some (rowOf s.dev e.line) ∧ (getCh d n.val).sub0.lastBank = b ∧
      (getCh d n.val).sub0.reads = [e] ∧
      tGet (fun _ => 0) (getCh d n.val).activates b = tGet (fun _ => 0) c.activates b + 1 ∧ (∀ k, k ≠ b → openRow (getCh d n.val).sub0 k = openRow c.sub0 k) ∧
      ∀ x, memGet d x = memGet s.dev x) ∧
  (∀ (s : State) (n : Fin 8) (r1 : List Nat) (c : DdrChan) (t : DdrTxn) (e : DdrEntry) (b : Nat), s.ready →
    tWf chDflt s.dev.mem.ddr = true → tWf epDflt s.dev.net.eps = true → c = getCh s.dev n.val → c.state = .ready →
    pllRuns s.dev (19 + n.val) = true → (getEp s.dev (chKey n.val)).completions = [] → c.txns = [t] → t.waiting = [] → t.lines ≠ [] →
    t.part = .none → c.sub1 = {} → c.ahead = [] → c.retrain = [] → c.sub0.reads = [e] → c.sub0.writes = [] → e.kind ≠ .ahead →
    c.power = [] → b = bankOf s.dev e.line → b < 128 → openRow c.sub0 b = none → tWf (fun _ => 0) c.activates = true →
    0 < c.rfmAt → c.rfmAt ≤ tGet (fun _ => 0) c.activates b → s.performs (.ddrSchedulerCycle n [b] r1) [.mem] fun d =>
      tGet (fun _ => 0) (getCh d n.val).activates b = tGet (fun _ => 0) c.activates b - c.rfmAt ∧
      (getCh d n.val).sub0.reads = [e] ∧ (getCh d n.val).sub0.openRows = c.sub0.openRows ∧ ∀ x, memGet d x = memGet s.dev x) ∧
  (∀ (s : State) (n : Fin 8) (bank : Fin 4) (rfm : List Nat) (c : DdrChan), s.ready → c = getCh s.dev n.val → ddrCommands s.dev n.val = true →
    c.sub0.reads ≠ [] → c.postponed < 4 →
    s.becomes (.ddrRefresh n bank rfm) fun d => updCh d n.val fun c => { c with postponed := c.postponed + 1 }) ∧
  (∀ (s : State) (n : Fin 8) (bank : Fin 4) (rfm : List Nat) (c : DdrChan), s.ready → tWf chDflt s.dev.mem.ddr = true →
    c = getCh s.dev n.val → ddrCommands s.dev n.val = true → c.sub0.reads = [] → c.sub1.reads = [] → bitR s.dev (rDdrCtrl n.val) 0 = false →
    s.performs (.ddrRefresh n bank rfm) [.mem] fun d =>
      (getCh d n.val).postponed = 0 ∧ (getCh d n.val).sub0.openRows = [] ∧ (getCh d n.val).sub1.openRows = [] ∧
      (∀ k, rfm = [k] → rfmDue c k = true → tWf (fun _ => 0) c.activates = true →
        tGet (fun _ => 0) (getCh d n.val).activates k = tGet (fun _ => 0) c.activates k - c.rfmAt) ∧
      ∀ b, memGet d b = memGet s.dev b) ∧
  (∀ (s : State) (n : Fin 8) (rank : Fin 4), s.ready → tWf chDflt s.dev.mem.ddr = true → (getCh s.dev n.val).state = .ready →
    fldR s.dev (rDdrCtrl n.val) 39 24 ≠ 0 → rank.val < (getCh s.dev n.val).ranks → rankIdle s.dev n.val rank.val = true →
    (getCh s.dev n.val).power = [] → s.performs (.ddrPowerDownEntry n rank) [.mem] fun d =>
      (getCh d n.val).power = [(rank.val, 1)] ∧ (∀ e ∈ (getCh d n.val).sub0.openRows, e.1 / 32 ≠ rank.val) ∧
      ∀ b, memGet d b = memGet s.dev b) ∧
  (∀ (s : State) (n : Fin 8) (rank : Fin 4), s.ready → tWf chDflt s.dev.mem.ddr = true → (getCh s.dev n.val).state = .ready →
    fldR s.dev (rDdrCtrl n.val) 47 40 ≠ 0 → rank.val < (getCh s.dev n.val).ranks → rankIdle s.dev n.val rank.val = true →
    (getCh s.dev n.val).power = [(rank.val, 1)] → s.performs (.ddrSelfRefreshEntry n rank) [.mem] fun d =>
      (getCh d n.val).power = [(rank.val, 2)] ∧ ∀ b, memGet d b = memGet s.dev b)

/-- The life of a DDR5 channel (R313 to R316, R320, R327 to R331, R504, R505): training ends in the fill with the geometry read, or
takes the channel out of service; the write timing of a rank whose DQS oscillator has drifted by more than 2 % is retrained; alerts
freeze it and the first freeze is recorded, and a write whose CRC fails is repeated; a channel reset loses the contents; apply
resets every channel in service; retry brings a channel back through reset; a retrained channel is READY with its contents kept. It
rests also on the model's choices of assumptions 36, 123, 149 and 150. -/
def Obligations.DdrChannels : Prop :=
  (∀ (s : State) (n : Fin 8) (x : DdrSpd), s.ready → tWf chDflt s.dev.mem.ddr = true → (getCh s.dev n.val).state = .training →
    (getCh s.dev n.val).boot = true → pllRuns s.dev (19 + n.val) = true → s.dev.power.warm = none → spdReason x = none →
    s.performs (.ddrTrainingComplete n x) [.mem, .units, .enc] fun d =>
      getCh d n.val = { getCh s.dev n.val with
        state := .filling, cap := rankGib x * x.ranks, ranks := x.ranks, x8 := x.width = 8, gb32 := x.density = 32, rate := x.rate
        rfmAt := x.rfmAt, dqs := (getCh d n.val).dqs, arr := [] } ∧
      d.mem.sram = s.dev.mem.sram ∧ ∀ m, m ≠ n.val → getCh d m = getCh s.dev m) ∧
  (∀ (s : State) (n : Fin 8) (sub : Bool) (rank : Fin 4), s.ready → s.calm → tWf chDflt s.dev.mem.ddr = true →
    (getCh s.dev n.val).state = .training → (getCh s.dev n.val).firstFill = false → (getCh s.dev n.val).txns = [] →
    ddrOut s.dev n.val = false → s.performs (.fltDdrTrain n sub rank 2) [.mem, .units, .enc, .groups, .flog, .regs, .out] fun d =>
      (getCh d n.val).state = .outOfService ∧ ddrOut d n.val = true ∧ (∀ m, m ≠ n.val → ddrOut d m = ddrOut s.dev m) ∧
      ∀ m, m ≠ n.val → getCh d m = getCh s.dev m) ∧
  (∀ (s : State) (n : Fin 8) (l : List DqsCount), s.ready → fldR s.dev (rDdrCtrl n.val) 23 16 = 0 →
    s.becomes (.dqsOscillatorCheck n l) fun d => d) ∧
  (∀ (s : State) (n : Fin 8) (x : DqsCount) (v p : Nat) (c : DdrChan), s.ready → c = getCh s.dev n.val → ddrCommands s.dev n.val = true →
    fldR s.dev (rDdrCtrl n.val) 23 16 ≠ 0 → p = 4 * x.sub.toNat + x.rank.val → x.rank.val < c.ranks →
    c.dqs.find? (fun e => e.1 = 16 * p + x.device.val) = some (16 * p + x.device.val, v) →
    s.becomes (.dqsOscillatorCheck n [x]) fun d => updCh d n.val fun c =>
      if 50 * (max v x.count.toNat - min v x.count.toNat) ≤ v then { c with retrain := c.retrain.eraseDups }
      else { c with retrain := (c.retrain ++ [p]).eraseDups
                    dqs := tSet (fun _ => 0) c.dqs (16 * p + x.device.val) x.count.toNat }) ∧
  (∀ (s : State) (n : Fin 8), s.ready → ddrCommands s.dev n.val = true → s.becomes (.ddrRetrainingComplete n) fun d =>
    updCh d n.val fun c => { c with retrain := [] }) ∧
  (∀ (s : State) (n : Fin 8) (c : DdrCmdAt), s.steady → s.calm → tWf chDflt s.dev.mem.ddr = true → (getCh s.dev n.val).state = .ready →
    (getCh s.dev n.val).txns = [] → bitR s.dev (rDdrFreeze n.val) 63 = false →
    s.performs (.ddrCaParityAlert n c) [.mem, .groups, .flog, .regs, .out] fun d =>
      (getCh d n.val).state = .frozen ∧ (getCh d n.val).buffer = [] ∧ bitR d (rDdrFreeze n.val) 63 = true ∧
      fldR d (rDdrFreeze n.val) 62 60 = 0 ∧ fldR d (rDdrFreeze n.val) 58 57 = c.rank.val ∧
      (getCh d n.val).arr = (getCh s.dev n.val).arr ∧ ∀ m, m ≠ n.val → getCh d m = getCh s.dev m) ∧
  (∀ (s : State) (n : Fin 8) (c : DdrCmdAt) (x : SubChannel) (w : DdrEntry) (a : Nat) (v : PWord), s.ready → ddrCommands s.dev n.val = true →
    tWf chDflt s.dev.mem.ddr = true → (∀ m, tWf (fun _ => none) (getCh s.dev m).arr = true) → x = getSub (getCh s.dev n.val) c.sub.toNat →
    x.last = some (w, [(a, v)]) → storeUnit s.dev (plainAddr a) = n.val → x.wcrcRun + 1 < fldR s.dev (rDdrCtrl n.val) 59 56 →
    s.performs (.ddrWriteCrcAlert n c) [.mem] fun d =>
      getSub (getCh d n.val) c.sub.toNat = { x with writes := w :: x.writes, last := none, wcrcRun := x.wcrcRun + 1 } ∧
      (getCh d n.val).state = (getCh s.dev n.val).state ∧ memGet d a = v ∧
      ∀ b, (storeUnit s.dev (plainAddr b), wordIdx (plainAddr b)) ≠ (n.val, wordIdx (plainAddr a)) → memGet d b = memGet s.dev b) ∧
  (∀ (s : State) (n : Fin 8) (c : DdrCmdAt) (x : SubChannel), s.steady → s.calm → tWf chDflt s.dev.mem.ddr = true →
    (getCh s.dev n.val).state = .ready → (getCh s.dev n.val).txns = [] → bitR s.dev (rDdrFreeze n.val) 63 = false →
    x = getSub (getCh s.dev n.val) c.sub.toNat → (x.last.all fun y => y.2.all fun z => storeUnit s.dev (plainAddr z.1) = n.val) = true →
    max 1 (fldR s.dev (rDdrCtrl n.val) 59 56) ≤ x.wcrcRun + 1 →
    s.performs (.ddrWriteCrcAlert n c) [.mem, .groups, .flog, .regs, .out] fun d =>
      (getCh d n.val).state = .frozen ∧ fldR d (rDdrFreeze n.val) 62 60 = 1 ∧ ∀ m, m ≠ n.val → getCh d m = getCh s.dev m) ∧
  (∀ (s : State) (n : Fin 8), s.steady → s.calm → tWf chDflt s.dev.mem.ddr = true → ddrOut s.dev n.val = false →
    (getCh s.dev n.val).txns = [] → s.performs (.channelReset n) [.mem, .enc, .groups, .flog, .regs, .out] fun d =>
      (getCh d n.val).state = .resetting ∧ (getCh d n.val).arr = [] ∧ (getCh d n.val).buffer = [] ∧ bitR d rFill n.val = false ∧
      fldR d (rDdrStatus n.val) 15 0 = min (fldR s.dev (rDdrStatus n.val) 15 0 + 1) 0xFFFF ∧
      ∀ m, m ≠ n.val → getCh d m = getCh s.dev m) ∧
  (∀ (s : State), s.steady → s.calm → tWf chDflt s.dev.mem.ddr = true → bitR s.dev rDdrMapCfg 61 = false →
    bitR s.dev rDdrMapCfg 8 = true → (∀ n : Nat, n < 8 → (getCh s.dev n).txns = []) → liveChannels s.dev ≠ [] →
    s.performs .ddrMapApply [.mem, .enc, .groups, .flog, .regs, .out] fun d =>
      bitR d rDdrMapCfg 61 = true ∧ bitR d rDdrMapCfg 62 = bitR s.dev rDdrMapCfg 62 ∧ d.mem.map.useDefault = true ∧
      ∀ n ∈ liveChannels s.dev, (getCh d n).state = .resetting ∧ (getCh d n).arr = []) ∧
  (∀ s : State, s.steady → bitR s.dev rDdrMapCfg 61 = true → s.performs .ddrMapApply [.regs] fun d =>
    bitR d rDdrMapCfg 62 = true ∧ ∀ a, a ≠ rDdrMapCfg → getR d a = getR s.dev a) ∧
  (∀ (s : State) (n : Fin 8), s.steady → tWf chDflt s.dev.mem.ddr = true → (getCh s.dev n.val).state = .training →
    (getCh s.dev n.val).boot = false → s.dev.power.warm = none → s.performs (.ddrRetrainingComplete n) [.mem, .regs] fun d =>
      getCh d n.val = { getCh s.dev n.val with state := .ready } ∧
      bitR d rDdrMapCfg 61 = (bitR s.dev rDdrMapCfg 61 &&
        !(liveChannels s.dev).all fun m => m = n.val || decide ((getCh s.dev m).state = .ready)) ∧ ∀ m, m ≠ n.val → getCh d m = getCh s.dev m) ∧
  (∀ (s : State) (n : Fin 8) (cause : OutCause), s.steady → s.calm → tWf chDflt s.dev.mem.ddr = true →
    s.dev.units.ddr = [(n.val, cause)] → cause ≠ .decoder → (getCh s.dev n.val).retry = false → (getCh s.dev n.val).txns = [] →
    s.performs (.ddrRetry n) [.mem, .enc, .groups, .flog, .regs, .out] fun d =>
      (getCh d n.val).state = .resetting ∧ (getCh d n.val).retry = true ∧ (getCh d n.val).arr = [] ∧ ddrOut d n.val = true)

/-- Power-on reset of the main side and its rails (R48, R523 to R526, R521): power-on, a falling group A and a rail drop put the
main side into power-on reset, which keeps the store, the one-time memory and the Cabinet's one-time memory; its release samples the
straps, starts judging the references and makes the boot procedure due; the rails then start the PLLs; a missing vital rail leaves
the boot to the host; a lane rail takes every quad out. It rests also on the model's choices of assumptions 107, 108 and 112. -/
def Obligations.PowerOn : Prop :=
  (∀ s : State, s.performs (.mainPowerOnReset []) [.regs, .sectors, .eccLog, .thr, .clk, .cfg, .net, .mem, .enc, .cab, .links, .io, .tb,
      .groups, .flog, .units, .power, .bureau, .free, .due, .out] fun d =>
    d.power = { groupA := true, groupBC := false, por := true } ∧ d.regs = [] ∧ d.mem = {} ∧ d.enc = {} ∧ d.net = {} ∧ d.groups = [] ∧
      d.io = {} ∧ d.tb = {} ∧ d.bureau = { keys := s.dev.bureau.keys } ∧ d.cfg.store = s.dev.cfg.store ∧
      d.cab.otp = s.dev.cab.otp ∧ d.cab.audit = s.dev.cab.audit ∧ d.due = []) ∧
  (∀ s : State, s.settled → s.dev.power.groupA = true → s.performs .groupAFall [.regs, .sectors, .eccLog, .thr, .clk, .cfg, .net, .mem,
      .enc, .cab, .links, .io, .tb, .groups, .flog, .units, .power, .bureau, .free, .out] fun d =>
    d.power = { groupA := false, groupBC := false, por := true } ∧ d.bureau.keys = s.dev.bureau.keys ∧
      d.cfg.store = s.dev.cfg.store ∧ d.cab.otp = s.dev.cab.otp) ∧
  (∀ s : State, s.ready → s.performs .railDrop [.regs, .sectors, .eccLog, .thr, .clk, .cfg, .net, .mem, .enc, .cab, .links, .io, .tb,
      .groups, .flog, .units, .power, .bureau, .free, .out] fun d =>
    d.power = { groupA := true, groupBC := false, por := true } ∧ d.regs = [] ∧ d.bureau.keys = s.dev.bureau.keys ∧
      d.cfg.store = s.dev.cfg.store) ∧
  (∀ (s : State) (x : Straps), s.settled → s.calm → s.dev.power.groupA = true → s.dev.power.por = true →
    s.dev.links.lanes.lanes = [] → s.performs (.managementPorRelease x) [.regs, .clk, .cfg, .links, .power, .groups, .flog, .out] fun d =>
      d.power = { s.dev.power with
        por := false, ioPullHp := x.ioPullHp.toNat, ioPullHv := x.ioPullHv.toNat, slotId := x.slotId.toNat
        cfgGrp := x.cfgGrp.toNat, testMode := x.testMode } ∧
      d.clk.xo.state = .judging ∧ d.clk.chref.state = .judging ∧ d.cfg.boot.due = true ∧ d.cfg.store = s.dev.cfg.store) ∧
  (∀ s : State, s.ready → s.dev.power.groupBC = false → pllRuns s.dev 1 = true → s.dev.clk.reduced = false →
    tWf (fun _ => PllState.off) s.dev.clk.plls = true → pllState s.dev 2 = .off → s.performs (.railsInRange []) [.power, .clk] fun d =>
      d.power = { s.dev.power with groupBC := true } ∧ pllState d 2 = .locking) ∧
  (∀ (s : State) (r : RailState) (banks : List (BitVec 16)), s.ready → s.calm → s.dev.power.groupBC = false → vitalRail r = true →
    s.performs (.railWaitTimeout [r] banks) [.power, .cfg, .groups, .flog, .regs, .out] fun d =>
      d.power = { s.dev.power with railFail := true } ∧ d.cfg.boot.due = false ∧ d.cfg.boot.waitHost = true) ∧
  (∀ (s : State) (r : RailState), s.ready → s.calm → vitalRail r = true →
    s.performs (.fltRailLimit r) [.groups, .flog, .regs, .out] fun d =>
      reactionOf s.dev fltRail = 1 → (getGroup d (fltRail / 512)).valid = true) ∧
  (∀ (s : State) (r : RailState), s.ready → s.calm → r.rail.val = 3 → (∀ n : Nat, n < 128 → (getLane s.dev n).stage ≠ .active) →
    s.performs (.fltRailLimit r) [.links, .units, .clk, .groups, .flog, .regs, .out] fun d => ∀ j, j < 32 → quadIn d j = false)

/-- Warm reset (R25, R212, R331, R492, R528 to R530, R545): its start ends every hold, puts every sector that does not stay OFF into
its initial-load state with DONE low and the pins held, and returns translations to their reset values; its second part stops the
fabric PLLs; its end leaves holdover, resumes the channels once the network PLL has locked, and makes the boot procedure due where
no leaf is ACTIVE. It rests also on the model's choice of assumption 109. -/
def Obligations.WarmResets : Prop :=
  (∀ s : State, s.steady → s.calm → tWf sectorDflt s.dev.sectors = true → tWf groupDflt s.dev.groups = true → s.dev.cfg.regions = [] → s.dev.power.warm = none →
    s.performs .warmReset
      [.regs, .sectors, .clk, .cfg, .net, .mem, .cab, .links, .io, .tb, .groups, .flog, .power, .bureau, .free, .out] fun d =>
      d.power.warm = some { event := 2, byE4 := false, rstLow := true } ∧ d.power.pinsHeld = true ∧ d.cfg.done = false ∧
      d.power.e4FaultN = s.dev.power.e4FaultN ∧
      (∀ i : Nat, i < 64 → staysOff s.dev i = false → (getSec d i).state = .initialLoad) ∧
      (∀ n : Nat, n < 16 → getR d (rXlate n) = regReset (rXlate n)) ∧
      (∀ g : Nat, g < 8 → (getGroup d g).esc = .idle ∧ (getGroup d g).pinHold = 0 ∧ (getGroup d g).secHold = 0) ∧
      d.cab.otp = s.dev.cab.otp ∧ d.bureau.keys = s.dev.bureau.keys) ∧
  (∀ (s : State) (w : WarmRun), s.ready → s.calm → tWf (fun _ => PllState.off) s.dev.clk.plls = true → s.dev.power.warm = some w →
    w.event = 2 → s.performs .warmResetQuiesced
      [.mem, .enc, .net, .clk, .power, .regs, .thr, .eccLog, .groups, .flog, .free, .out] fun d =>
      d.power = { s.dev.power with warm := some { w with event := 4 } } ∧ (∀ p, 3 ≤ p → p < 19 → pllState d p = .off) ∧
      d.cab = s.dev.cab) ∧
  (∀ (s : State) (w : WarmRun), s.ready → tWf (fun _ => PllState.off) s.dev.clk.plls = true → s.dev.power.warm = some w → w.event = 4 →
    pllState s.dev 2 = .locking → (∀ i : Nat, i < 64 → (activeDesc s.dev i).state ≠ .active) →
    s.performs (.warmResetEnd []) [.power, .clk, .cfg, .regs] fun d =>
      d.power = { s.dev.power with warm := none, warmPending := true } ∧ d.cfg.boot.due = true ∧
      ∀ p, p < 63 → pllState d p ≠ .holdover) ∧
  (∀ (s : State) (w : WarmRun), s.ready → tWf (fun _ => PllState.off) s.dev.clk.plls = true → tWf chDflt s.dev.mem.ddr = true →
    s.dev.power.warm = some w → w.event = 4 → pllState s.dev 2 = .locked → (∀ i : Nat, i < 64 → (activeDesc s.dev i).state ≠ .active) →
    (∀ n : Nat, n < 8 → (getCh s.dev n).resetAfterWarm = false) → s.performs (.warmResetEnd []) [.power, .clk, .cfg, .regs, .mem] fun d =>
      d.power = { s.dev.power with warm := none, warmPending := false } ∧ d.cfg.boot.due = true ∧
      (∀ n : Nat, n < 8 → (getCh s.dev n).state = .selfRefresh → getCh d n = { getCh s.dev n with state := .training, boot := false }) ∧
      d.mem.sram = s.dev.mem.sram)

/-- Converter tiles (R398 to R411): a sample slot moves the Cabinet time and slot number and takes a sample of every tile whose
divisor and phase select it, clamped to 20 bits; an interface edge presents the oldest sample; S_LOAD and the update instant set
code and DAC; calibration is asked for and ends; faults mark a tile with their cause, and at the next slot it leaves service. It
rests also on the model's choices of assumptions 79 and 80. -/
def Obligations.ConverterTiles : Prop :=
  (∀ (s : State) (t : Fin 24) (x : SampleIn) (n d : Nat) (red : Bool), s.settled → tWf tileDflt s.dev.cab.tiles = true →
    cabClocks s.dev = true → n = (nextSlot s.dev.cab).2.2 → red = decide (s.dev.cab.sw.cur = 2) →
    d = effDiv red 20 (tileCfg s.dev t.val).adcDiv.toNat → (tileCfg s.dev t.val).measEn = true →
    n % d = (tileCfg s.dev t.val).adcPhase.toNat % d → (getTile s.dev t.val).out = false → (getTile s.dev t.val).cal = .idle →
    x.tile = t → x.checkOk = true → (∀ k : Nat, k < 24 → (getTile s.dev k).failed = none) → s.performs (.sampleSlot [x] true) [.cab] fun a =>
      (getTile a t.val).waiting = (getTile s.dev t.val).waiting ++
        [{ code := (sampleCode x.code red).1, ovr := (sampleCode x.code red).2, red
           wrap := (getTile s.dev t.val).wrapDue || (decide (n = 0) && (getTile s.dev t.val).sampled && decide (slotsPerSecond % d ≠ 0)) }] ∧
      (getTile a t.val).valid = false ∧ (getTile a t.val).out = false ∧ a.cab.time = (nextSlot s.dev.cab).1 ∧
      a.cab.slot = (n + 1) % slotsPerSecond ∧ a.cab.reduced = red) ∧
  (∀ (s : State) (t : Fin 24) (c : Nat), s.settled → tWf tileDflt s.dev.cab.tiles = true → cabUp s.dev = true →
    (getTile s.dev t.val).failed = some c → (∀ k : Nat, k < 24 → k = t.val ∨ (getTile s.dev k).failed = none) →
    s.performs (.sampleSlot [] true) [.cab, .units] fun a =>
      (getTile a t.val).out = true ∧ (getTile a t.val).cause = c ∧ (getTile a t.val).failed = none ∧
      (getTile a t.val).valid = false ∧ (getTile a t.val).waiting = [] ∧ tileOutput a t.val = 0) ∧
  (∀ (s : State) (t : Fin 24) (m : Sample) (rest : List Sample), s.settled → tileEdge s.dev t.val = true →
    (getTile s.dev t.val).out = false → (getTile s.dev t.val).cal ≠ .running → (getTile s.dev t.val).waiting = m :: rest →
    s.becomes (.sampleDelivery t) fun d => updTile d t.val fun x =>
      { x with waiting := rest, data := m.code, valid := true, ovr := m.ovr, red := m.red, wrap := m.wrap }) ∧
  (∀ (s : State) (t : Fin 24) (code : BitVec 20), s.settled → tileEdge s.dev t.val = true → (getTile s.dev t.val).out = false →
    s.becomes (.sourceCodeLoad t code) fun d => updTile d t.val fun x => { x with code }) ∧
  (∀ (s : State) (n : Nat), s.settled → tWf tileDflt s.dev.cab.tiles = true → cabUp s.dev = true → s.dev.cab.quiet = false →
    s.dev.cab.reduced = false → n = (s.dev.cab.slot + slotsPerSecond - 1) % slotsPerSecond → s.performs .dacUpdate [.cab] fun d =>
      ∀ t, t < 24 → getTile d t = if (getTile s.dev t).out = false ∧ (getTile s.dev t).cal ≠ .running ∧
          n % (2 * max (tileCfg s.dev t).dacDiv.toNat 1) = 0 then { getTile s.dev t with dac := (getTile s.dev t).code }
        else getTile s.dev t) ∧
  (∀ (s : State) (t : Fin 24), s.settled → tileEdge s.dev t.val = true → (getTile s.dev t.val).out = false →
    (getTile s.dev t.val).cal = .idle → s.becomes (.calReq t) fun d => updTile d t.val fun x => { x with cal := .waiting }) ∧
  (∀ (s : State) (t : Fin 24) (ok : Bool), s.settled → (getTile s.dev t.val).cal = .running →
    s.becomes (.calibrationComplete t none ok) fun d => updTile d t.val fun x => { x with cal := .idle }) ∧
  (∀ (s : State) (t : Fin 24) (c : CalStep) (ok : Bool), s.settled → s.calm → tWf tileDflt s.dev.cab.tiles = true →
    (getTile s.dev t.val).cal = .running → (getTile s.dev t.val).out = false → (getTile s.dev t.val).failed = none →
    s.performs (.calibrationComplete t (some c) ok) [.cab, .units, .groups, .flog, .regs, .out] fun d =>
      getTile d t.val = { getTile s.dev t.val with cal := .idle, failed := some (calCause c) } ∧
      ∀ k, k ≠ t.val → getTile d k = getTile s.dev k) ∧
  (∀ (s : State) (ok : Bool), s.settled → s.calm → tWf tileDflt s.dev.cab.tiles = true → cabUp s.dev = true →
    s.performs (.crefRangeTimeout ok) [.cab, .units, .groups, .flog, .regs, .out] fun d =>
      ∀ t, t < 24 → getTile d t = if (getTile s.dev t).out = true ∨ (getTile s.dev t).failed.isSome = true then getTile s.dev t
        else { getTile s.dev t with failed := some 1 }) ∧
  (∀ (s : State) (t : Fin 24) (ok : Bool), s.settled → s.calm → tWf tileDflt s.dev.cab.tiles = true → cabUp s.dev = true →
    (tileCfg s.dev t.val).srcEn = true → (getTile s.dev t.val).limit = false → (getTile s.dev t.val).out = false →
    (getTile s.dev t.val).failed = none →
    s.performs (.srcFaultTimeout t ok) [.cab, .units, .groups, .flog, .regs, .out] fun d =>
      getTile d t.val = { getTile s.dev t.val with failed := some 7 } ∧ ∀ k, k ≠ t.val → getTile d k = getTile s.dev k)

/-- The ports between S12 and the Cabinet fabric (R412, R413): a push enters the sample queue, or counts as dropped where the queue
is full; SP_TAKE removes the word presented and presents the next one that its side sees, decoded and counted in the ECC_CNT of S12;
an offer enters the source queue; an admitted sample is the tile's input and counts, one for a tile that the image does not declare
is refused. It rests also on the model's choice of assumption 135. -/
def Obligations.CabinetPorts : Prop :=
  (∀ (s : State) (w : Word) (p : Bool), s.settled → cabClocks s.dev = true → s12Up s.dev = true →
    s.dev.cab.sampleQ.words.length + s.dev.cab.sampleQ.freed < 64 → s.performs (.samplePortPush w p 0) [.cab] fun d =>
      d.cab = { s.dev.cab with sampleQ := { s.dev.cab.sampleQ with
        words := s.dev.cab.sampleQ.words ++ [encodeWord w p], unseen := s.dev.cab.sampleQ.unseen + 1 } }) ∧
  (∀ (s : State) (w : Word) (p : Bool), s.settled → cabClocks s.dev = true → s12Up s.dev = true →
    64 ≤ s.dev.cab.sampleQ.words.length + s.dev.cab.sampleQ.freed → s.performs (.samplePortPush w p 0) [.cab] fun d =>
      d.cab = { s.dev.cab with spDrops := min (s.dev.cab.spDrops + 1) (2 ^ 24 - 1) }) ∧
  (∀ (s : State) (w v : PWord) (rest : List PWord), s.settled → s12Up s.dev = true →
    edgeAt s.dev 12 (cabPortClk (items s.dev 12) false) = true → s.dev.cab.spOut.isSome = true →
    s.dev.cab.sampleQ.words = w :: v :: rest → s.dev.cab.sampleQ.unseen ≤ rest.length → (decodeWord v).outcome = .clean →
    s.performs (.spTake 0) [.cab] fun d =>
      d.cab = { s.dev.cab with
        spOut := some ((decodeWord v).data, (decodeWord v).poison)
        sampleQ := { s.dev.cab.sampleQ with words := v :: rest, freed := s.dev.cab.sampleQ.freed + 1 } }) ∧
  (∀ (s : State) (w v : PWord) (rest : List PWord), s.settled → tWf regReset s.dev.regs = true → s12Up s.dev = true →
    edgeAt s.dev 12 (cabPortClk (items s.dev 12) false) = true → s.dev.cab.spOut.isSome = true →
    s.dev.cab.sampleQ.words = w :: v :: rest → s.dev.cab.sampleQ.unseen ≤ rest.length → (decodeWord v).outcome = .uncorrectable →
    s.performs (.spTake 0) [.cab, .regs, .eccLog] fun d =>
      d.cab.spOut = some ((decodeWord v).data, true) ∧ d.cab.sampleQ.words = v :: rest ∧
      fldR d (rEccCnt (uSector 12)) 31 16 = min (fldR s.dev (rEccCnt (uSector 12)) 31 16 + 1) 0xFFFF) ∧
  (∀ (s : State) (w : PWord), s.settled → s12Up s.dev = true → edgeAt s.dev 12 (cabPortClk (items s.dev 12) false) = true →
    s.dev.cab.spOut.isSome = true → s.dev.cab.sampleQ.words = [w] → s.performs (.spTake 0) [.cab] fun d =>
      d.cab = { s.dev.cab with
        spOut := none, sampleQ := { s.dev.cab.sampleQ with words := [], freed := s.dev.cab.sampleQ.freed + 1 } }) ∧
  (∀ (s : State) (w : Word) (p : Bool) (ts : List (Fin 32)), s.settled → s12Up s.dev = true →
    edgeAt s.dev 12 (cabPortClk (items s.dev 12) true) = true → s.dev.cab.sourceQ.words.length + s.dev.cab.sourceQ.freed < 64 →
    s.performs (.sourcePortOffer w p ts 0) [.cab] fun d =>
      d.cab = { s.dev.cab with sourceQ := { s.dev.cab.sourceQ with
        words := s.dev.cab.sourceQ.words ++ [{ word := encodeWord w p, tiles := ts.map (·.val) }]
        unseen := s.dev.cab.sourceQ.unseen + 1 } }) ∧
  (∀ (s : State) (w : SourceWord) (rest : List SourceWord) (t : Nat), s.settled → cabUp s.dev = true → s.dev.cab.quiet = false →
    s.dev.cab.sourceQ.words = w :: rest → s.dev.cab.sourceQ.unseen ≤ rest.length → (decodeWord w.word).outcome = .clean → (decodeWord w.word).poison = false →
    fld (decodeWord w.word).data 62 60 = 1 → nth 24 w.tiles 0 = t → t < 24 → (activeDecl s.dev).srcTiles.testBit t = true →
    s.performs (.sourcePortAdmit 0) [.cab] fun d =>
      d.cab = { s.dev.cab with
        sourceQ := { s.dev.cab.sourceQ with words := rest, freed := s.dev.cab.sourceQ.freed + 1 }
        inVal := tSet (fun _ => 0) s.dev.cab.inVal t (fld (decodeWord w.word).data 19 0)
        inCnt := tUpd (fun _ => 0) s.dev.cab.inCnt t fun n => (n + 1) % 65536 }) ∧
  (∀ (s : State) (w : SourceWord) (rest : List SourceWord) (t : Nat), s.settled → cabUp s.dev = true → s.dev.cab.quiet = false →
    s.dev.cab.sourceQ.words = w :: rest → s.dev.cab.sourceQ.unseen ≤ rest.length → (decodeWord w.word).outcome = .clean → (decodeWord w.word).poison = false →
    fld (decodeWord w.word).data 62 60 = 1 → nth 24 w.tiles 0 = t → (24 ≤ t ∨ (activeDecl s.dev).srcTiles.testBit t = false) →
    s.performs (.sourcePortAdmit 0) [.cab] fun d =>
      d.cab = { s.dev.cab with
        sourceQ := { s.dev.cab.sourceQ with words := rest, freed := s.dev.cab.sourceQ.freed + 1 }
        srcRefused := min (s.dev.cab.srcRefused + 1) (2 ^ 24 - 1) })

/-- Resets and start-up of the Cabinet (R362, R365, R378, R386, R394, R407, R526): supplies and CAB_RST_N; in reset only the
one-time memory, the audit area, the identity and log_fault are left; the audit read with an empty log ends in NO_IMAGE with its
POWER_UP record; a retry commits the image that the log names; a request of the fabric moves the clock to a good source. It rests
also on the model's choices of assumptions 71, 73 and 74. -/
def Obligations.CabinetStarts : Prop :=
  (∀ s : State, s.settled → s.dev.cab.powered = false → s.dev.cab.rstN = true →
    s.performs (.cabinetPowerOnReset {}) [.cab, .units] fun d =>
      d.cab = { s.dev.cab with powered := true, byRst := false } ∧ d.units.gatewayDec = false) ∧
  (∀ s : State, s.settled → s.dev.cab.powered = true → s.dev.cab.rstN = false →
    s.performs (.cabRstNRelease {}) [.cab, .units] fun d =>
      d.cab = { s.dev.cab with rstN := true, byRst := true } ∧ d.units.gatewayDec = false) ∧
  (∀ s : State, s.settled → s.dev.cab.rstN = true →
    s.performs .cabRstN [.cab, .cfg, .units, .sectors, .bureau, .free] fun d =>
      d.cab = { ({} : Cabinet) with
        id := s.dev.cab.id, powered := s.dev.cab.powered, rstN := false, otp := s.dev.cab.otp, audit := s.dev.cab.audit
        logFault := s.dev.cab.logFault } ∧
      d.cfg.store = s.dev.cfg.store ∧ (tWf sectorDflt s.dev.sectors = true → ∀ i, i < 64 → getSec d i = getSec s.dev i)) ∧
  (∀ s : State, s.settled → s.dev.cab.powered = true →
    s.performs .cabinetSupplyLoss [.cab, .cfg, .units, .sectors, .bureau, .free] fun d =>
      d.cab = { ({} : Cabinet) with
        id := s.dev.cab.id, powered := false, rstN := s.dev.cab.rstN, otp := s.dev.cab.otp, audit := s.dev.cab.audit
        logFault := s.dev.cab.logFault } ∧
      d.cfg.store = s.dev.cfg.store) ∧
  (∀ (s : State) (it : List (List Setting)) (v : Bool), s.ready → s.calm → cabUp s.dev = true → s.dev.cab.state = .start →
    s.dev.cab.active = none → s.dev.cab.audit = {} → s.performs (.cabinetAuditRead it v true) [.cab, .groups, .flog, .regs, .out] fun d =>
      d.cab.state = .noImage ∧ d.cab.c = 1 ∧ d.cab.e = 0 ∧ d.cab.cxo.state = .judging ∧
      tGet (fun _ => []) d.cab.onDie 0 = auditRecord 1 0x10 s.dev.cab.byRst.toNat s.dev.cab.time 0 0) ∧
  (∀ (s : State) (it : List (List Setting)) (p k n : Nat) (img : ImageWords), s.ready → cabUp s.dev = true →
    s.dev.cab.state = .noImage → s.dev.cab.run = none → s.dev.cab.active = none → s.dev.cab.leaves.length = 2 →
    lastNamed [0x01, 0x02] s.dev = some p → k < 4 → img = copyImage (getCopy s.dev (copyKey 2 0 0 + k)) →
    (getCopy s.dev (copyKey 2 0 0 + k)).valid = true → digestPrefix (imgWords img) = p →
    (∀ j, j < k → (getCopy s.dev (copyKey 2 0 0 + j)).valid = false) → sealedError s.dev img false = 0 →
    sealedSigner s.dev img = some n → s.performs (.cabinetNoImageRetry it false) [.cab, .cfg, .sectors, .regs] fun d =>
      d.cab.state = .running ∧ d.cab.active = some (otherLeaf s.dev 64) ∧ activeDigest d = ofLe (imageDigest (imgWords img)) ∧
      activeDecl d = imageDecl img ∧ d.cab.audit = s.dev.cab.audit) ∧
  (∀ (s : State) (src : Fin 3), s.settled → cabClocks s.dev = true → cabGood s.dev src.val = true →
    s.becomes (.cabinetClockRequest src) fun d => { d with cab := { d.cab with sw := requestSwitch src.val d.cab.sw } })

/-- Commands and changes of the Cabinet (R374 to R385, R392, R515): a SEALED_LOAD that no check refuses starts on the leaf that is
not active, a ROLLBACK waits for its record, an accepted token starts its change; a command in progress refuses another as busy; the
mailbox's commands end with the code; the checked image seals its leaf or ends the command with CAB_ERR_IMAGE; the record counts,
and the change of a key is carried out; quiet window, strobe and end of a load or rollback; the copy in ring B. It rests also on the
model's choices of assumptions 67 to 70, 73, 77 and 84. -/
def Obligations.CabinetChanges : Prop :=
  (∀ (d : Dev) (w : Word) (m : Bool) (img : ImageWords), d.cab.run = none → d.cab.state ≠ .start → fld w 63 56 = 0x10 → fld w 55 2 = 0 → mainUp d = true →
    logIsFull d = false → logWorn d = false → (getCopy d (copyKey 2 (fld w 1 1) (fld w 0 0))).valid = true →
    img = copyImage (getCopy d (copyKey 2 (fld w 1 1) (fld w 0 0))) → tilesMissing d (imageDecl img).reqTiles = false →
    tWf leafDflt d.cfg.leaves = true → (cabCommand w m d).cab = { d.cab with
      record := 0
      run := some { opcode := 0x10, change := .load (fld w 1 1) (fld w 0 0), event := 1, image := img, mailbox := m } } ∧
      (getLeaf (cabCommand w m d) 64 (otherLeaf d 64)).state = .loading ∧
      getLeaf (cabCommand w m d) 64 (activeLeaf d 64) = getLeaf d 64 (activeLeaf d 64)) ∧
  (∀ (d : Dev) (w : Word) (m : Bool) (k : Nat), d.cab.run = none → d.cab.state = .running → fld w 63 56 = 0x11 → fld w 55 3 = 0 →
    mainUp d = true → logIsFull d = false → logWorn d = false → (getLeaf d 64 (otherLeaf d 64)).state = .retired →
    (getLeaf d 64 (otherLeaf d 64)).seq < (getLeaf d 64 (activeLeaf d 64)).seq → (getLeaf d 64 (otherLeaf d 64)).unavail = false →
    k < 4 → (getCopy d (copyKey 2 0 k)).valid = true →
    ofLe (imageDigest (imgWords (getCopy d (copyKey 2 0 k)).image)) = (nth {} d.cab.leaves (otherLeaf d 64)).digest →
    tilesMissing d (nth {} d.cab.leaves (otherLeaf d 64)).decl.reqTiles = false →
    (sealEntry d (nth {} d.cab.leaves (otherLeaf d 64)).signer).revoked = false →
    cabCommand w m d = { d with cab := { d.cab with
      record := 0, run := some { opcode := 0x11, change := .rollback, event := 3, mailbox := m } } }) ∧
  (∀ (d : Dev) (w : Word) (m : Bool) (t : Token), d.cab.run = none → d.cab.state = .running → fld w 63 56 = 0x12 → fld w 55 3 = 0 →
    mainUp d = true → logIsFull d = false → logWorn d = false → t = tokenOf d → t.headOk = true → t.counter = d.cab.c →
    tokenSigner t d = true → t.kind = 1 → (sealEntry d (t.arg % 4)).programmed = false →
    cabCommand w m d = { d with cab := { d.cab with
      record := 0, run := some { opcode := 0x12, change := .keyAdd (t.arg % 4) (t.arg / 2 ^ 8 % 4) t.value, event := 3, mailbox := m } } }) ∧
  (∀ (d : Dev) (w : Word) (r : CabRun), d.cab.run = some r →
    reactionOf d (fltCab 6) = 0 → cabCommand w false d = { d with cab := { d.cab with
      result := cabBusy, detail := 0, lastOpcode := fld w 63 56, record := 0 } }) ∧
  (∀ (s : State) (slot copy : Fin 2) (img : ImageWords), s.ready → s.mailbox 0x0501 [(7, packNat [(0, 2), (slot.val, 1), (copy.val, 0)])] →
    s.dev.cab.run = none → s.dev.cab.state ≠ .start → logIsFull s.dev = false → logWorn s.dev = false →
    (getCopy s.dev (copyKey 2 slot.val copy.val)).valid = true →
    img = copyImage (getCopy s.dev (copyKey 2 slot.val copy.val)) → tilesMissing s.dev (imageDecl img).reqTiles = false →
    s.performs (.cabSealedLoad false slot copy) [.cab, .cfg, .sectors] fun d => d.cab = { s.dev.cab with
      record := 0
      run := some { opcode := 0x10, change := .load slot.val copy.val, event := 1, image := img, mailbox := true } }) ∧
  (∀ (s : State) (r : CabRun), s.ready → s.mailbox 0x0502 [] → s.dev.cab.run = some r → reactionOf s.dev (fltCab 6) = 0 →
    s.performs .cabRollback [.cab, .bureau] fun d =>
      d.ended s 7 cabBusy [0] ∧ d.bureau.keys = s.dev.bureau.keys ∧ d.cab.run = some r ∧ d.cab.result = cabBusy) ∧
  (∀ (s : State) (k : Nat), s.ready → s.mailbox 0x0502 [] → s.dev.cab.run = none → s.dev.cab.state = .running →
    logIsFull s.dev = false → logWorn s.dev = false → (getLeaf s.dev 64 (otherLeaf s.dev 64)).state = .retired →
    (getLeaf s.dev 64 (otherLeaf s.dev 64)).seq < (getLeaf s.dev 64 (activeLeaf s.dev 64)).seq →
    (getLeaf s.dev 64 (otherLeaf s.dev 64)).unavail = false → k < 4 → (getCopy s.dev (copyKey 2 0 k)).valid = true →
    ofLe (imageDigest (imgWords (getCopy s.dev (copyKey 2 0 k)).image)) = (nth {} s.dev.cab.leaves (otherLeaf s.dev 64)).digest →
    tilesMissing s.dev (nth {} s.dev.cab.leaves (otherLeaf s.dev 64)).decl.reqTiles = false →
    (sealEntry s.dev (nth {} s.dev.cab.leaves (otherLeaf s.dev 64)).signer).revoked = false →
    s.performs .cabRollback [.cab] fun d =>
      d.cab = { s.dev.cab with record := 0, run := some { opcode := 0x11, change := .rollback, event := 3, mailbox := true } }) ∧
  (∀ (s : State) (token : List Word) (d0 : Dev) (t : Token), s.ready → s.mailbox 0x0504 (wholeWords token) → cabUp s.dev = true →
    s.dev.cab.run = none → s.dev.cab.state ≠ .start →
    d0 = { s.dev with cab := { s.dev.cab with
      staging := (token.take 33).zipIdx.foldl (fun t w => tSet (fun _ => 0) t w.2 w.1) s.dev.cab.staging } } →
    t = tokenOf d0 → t.headOk = true → t.kind = 4 → t.sigOk = true → (matchEntry d0 t.signer 1).isSome = true →
    s.dev.cab.e < t.counter → t.counter ≤ s.dev.cab.c → ofLe (sha384 (exportedBytes d0 t.counter)) = t.value →
    s.performs (.cabAckExport token) [.cab, .bureau] fun d =>
      d.ended s 7 cabOk [0] ∧ d.cab.e = t.counter ∧ d.cab.c = s.dev.cab.c ∧ d.cab.fullRaised = false ∧
      tGet (fun _ => none) d.cab.audit.marks 1 = some t.counter ∧ d.bureau.keys = s.dev.bureau.keys) ∧
  (∀ (s : State) (it : List (List Setting)) (r : CabRun) (slot copy n : Nat), s.settled → s.dev.cab.run = some r → r.change = .load slot copy →
    r.event = 1 → s.dev.cab.leaves.length = 2 → tWf leafDflt s.dev.cfg.leaves = true → sealedError s.dev r.image false = 0 →
    sealedSigner s.dev r.image = some n → tilesMissing s.dev (imageDecl r.image).reqTiles = false →
    s.performs (.cabinetLoadChecked it false) [.cab, .cfg] fun d =>
      d.cab.run = some { r with event := 3 } ∧ (getLeaf d 64 (otherLeaf s.dev 64)).state = .sealed ∧
      nth {} d.cab.leaves (otherLeaf s.dev 64) = { ({} : CabLeaf) with
        digest := ofLe (imageDigest (imgWords r.image)), version := fld (hword (imgWords r.image) 2) 31 0, signer := n
        decl := imageDecl r.image } ∧
      d.cab.active = s.dev.cab.active) ∧
  (∀ (s : State) (it : List (List Setting)) (v : Bool) (r : CabRun) (slot copy : Nat), s.settled → s.calm → s.dev.cab.run = some r →
    r.change = .load slot copy → r.event = 1 → r.mailbox = false → sealedError s.dev r.image v ≠ 0 →
    s.performs (.cabinetLoadChecked it v) [.cab, .cfg, .groups, .flog, .regs, .out] fun d =>
      d.cab.run = none ∧ d.cab.result = cabImage ∧ d.cab.detail = sealedError s.dev r.image v ∧ d.cab.lastOpcode = r.opcode ∧
      d.cab.active = s.dev.cab.active) ∧
  (∀ (s : State) (r : CabRun) (slot copy : Nat), s.settled → s.dev.cab.run = some r → r.event = 3 →
    (r.change = .rollback ∨ r.change = .load slot copy) → logIsFull s.dev = false → logWorn s.dev = false →
    s.performs (.auditRecordCounted true none) [.cab] fun d =>
      d.cab.c = s.dev.cab.c + 1 ∧ d.cab.run = some { r with event := 4 } ∧ d.cab.record = s.dev.cab.c + 1 ∧
      d.cab.ringBDue = s.dev.cab.ringBDue ++ s.dev.cab.ringBFail ++ [s.dev.cab.c + 1] ∧
      (tWf (fun _ => []) s.dev.cab.onDie = true → tGet (fun _ => []) d.cab.onDie (nextPos s.dev) =
        auditRecord (s.dev.cab.c + 1) (changeRecord r.change s.dev).1 (changeRecord r.change s.dev).2.1 s.dev.cab.time
          (changeRecord r.change s.dev).2.2.1 (changeRecord r.change s.dev).2.2.2)) ∧
  (∀ (s : State) (r : CabRun) (e role hash : Nat), s.settled → s.dev.cab.run = some r → r.event = 3 → r.change = .keyAdd e role hash →
    r.mailbox = false → logIsFull s.dev = false → logWorn s.dev = false → tWf sealDflt s.dev.cab.otp = true →
    s.performs (.auditRecordCounted true none) [.cab] fun d =>
      d.cab.c = s.dev.cab.c + 1 ∧ d.cab.run = none ∧ d.cab.result = cabOk ∧ d.cab.record = s.dev.cab.c + 1 ∧
      sealEntry d e = { hash, role, programmed := true, revoked := false } ∧ ∀ k, k ≠ e → sealEntry d k = sealEntry s.dev k) ∧
  (∀ (s : State) (r : CabRun), s.settled → s.dev.cab.run = some r → r.event = 4 → s.becomes .cabinetQuietWindowBegin fun d =>
    { d with cab := { d.cab with run := some { r with event := 5 }, quiet := true } }) ∧
  (∀ (s : State) (r : CabRun), s.settled → s.dev.cab.run = some r → r.event = 5 → tWf leafDflt s.dev.cfg.leaves = true →
    tWf (fun _ => 0) s.dev.cfg.active = true → s.dev.cab.active.isSome = true →
    s.performs .cabinetCommitStrobe [.cab, .cfg, .sectors, .regs] fun d =>
      d.cab.active = some (1 - activeLeaf s.dev 64) ∧ d.cab.state = .running ∧ d.cab.run = some { r with event := 6 } ∧
      d.cab.value0 = [] ∧ d.cab.status0 = [] ∧ activeLeaf d 64 = 1 - activeLeaf s.dev 64 ∧
      (getLeaf d 64 (1 - activeLeaf s.dev 64)).state = .active ∧
      ((getLeaf s.dev 64 (activeLeaf s.dev 64)).state = .active → activeLeaf s.dev 64 ≤ 1 →
        (getLeaf d 64 (activeLeaf s.dev 64)).state = .retired)) ∧
  (∀ (s : State) (r : CabRun), s.settled → s.dev.cab.run = some r → r.event = 6 → r.mailbox = false →
    s.dev.cab.active.isSome = true → (s.dev.cab.reachedTarget = true ∨ (cabTarget s.dev = s.dev.cab.sw.cur ∧ s.dev.cab.sw.target = none)) →
    s.becomes .cabinetQuietWindowEnd fun d => { d with cab := { d.cab with
      quiet := false, run := none, result := cabOk, detail := 0, lastOpcode := r.opcode, reachedTarget := true } }) ∧
  (∀ (s : State) (r : CabRun), s.settled → s.dev.cab.run = some r → r.event = 6 → r.mailbox = false → s.dev.cab.active.isSome = true →
    s.dev.cab.reachedTarget = false → s.dev.cab.sw.cur = 2 → s.dev.cab.sw.target = none → cabTarget s.dev = 1 → cabGood s.dev 1 = true →
    s.performs .cabinetQuietWindowEnd [.cab] fun d =>
      d.cab.run = none ∧ d.cab.quiet = false ∧ d.cab.sw = requestSwitch 1 s.dev.cab.sw ∧ d.cab.reachedTarget = false) ∧
  (∀ (s : State) (n : Nat) (rest : List Nat), s.ready → cabUp s.dev = true → s.dev.cab.ringBDue = n :: rest →
    s.becomes (.ringBWrite true) fun d => { d with cab := { d.cab with
      ringBDue := rest
      audit := { d.cab.audit with
        ringB := tSet (fun _ => []) d.cab.audit.ringB ((n - 1) % 1024) (tGet (fun _ => []) d.cab.onDie ((n - 1) % 1024)) } } })

/-- The gateway (R387 to R393): a request of one of its rows that it holds whole is performed: a read is answered with the words of
the window, an admitted clean write is acknowledged and takes effect in its area, a setpoint in its low 20 bits with its count; the
ring engine writes a block where there is room and counts one that it drops; a result is written with its status and next sequence
number. It rests also on the model's choices of assumptions 75, 76, 81 and 82. -/
def Obligations.Gateway : Prop :=
  (∀ (s : State) (src : RouterAddr) (port : BitVec 2) (tag : BitVec 12) (q : MemReq) (d0 : Dev), s.settled → cabUp s.dev = true →
    s.dev.cab.quiet = false → gwHeld (gather gwKey { s.dev with out := [] }) src.toNat port.toNat tag.toNat = some q →
    takeRequest gwKey src.toNat port.toNat tag.toNat none (gather gwKey { s.dev with out := [] }) = (.perform q, d0) →
    q.op = .rd → d0.due = [] → (gwRenew q d0) = d0 → s.becomes (.gatewayRead src port tag) fun _ =>
      respond gwKey q rspOk (readParcels q ((reqWords q).map fun a => (a, gwRead d0 (a - gwBase)))) d0) ∧
  (∀ (s : State) (src : RouterAddr) (port : BitVec 2) (tag : BitVec 12) (q : MemReq) (d0 : Dev) (c : Instr) (a : GwArea) (op : Nat),
    s.settled → cabUp s.dev = true → s.dev.cab.quiet = false →
    (c, a, op) ∈ [(Instr.sealedLoad src port tag, GwArea.cmd, 0x10), (Instr.gatewayRollback src port tag, GwArea.cmd, 0x11),
      (Instr.token src port tag, GwArea.cmd, 0x12), (Instr.exportAck src port tag, GwArea.cmd, 0x13),
      (Instr.stagingBufferWrite src port tag, GwArea.staging, 0), (Instr.setpointWrite src port tag, GwArea.setpoints, 0),
      (Instr.nonLegalParameterWrite src port tag, GwArea.nonLegal, 0), (Instr.timeAlign src port tag, GwArea.timeAlign, 0)] →
    gwHeld (gather gwKey { s.dev with out := [] }) src.toNat port.toNat tag.toNat = some q →
    gwKindOf q = (if a = .cmd then .command op else .area a) →
    takeRequest gwKey src.toNat port.toNat tag.toNat none (gather gwKey { s.dev with out := [] }) = (.perform q, d0) →
    q.op = .wr → gwAdmits a q d0 = true → d0.units.gatewayDec = false →
    (∀ w ∈ (reqWords q).map (carriedWord q), (decodeWord w).outcome = .clean ∧ (decodeWord w).poison = false) →
    (gwApply a q d0).due = [] → s.becomes c fun _ => respond gwKey q rspOk [] (gwApply a q d0)) ∧
  (∀ (d : Dev) (q : MemReq) (t : Nat) (v : Word), t < 24 → gwWrites q = [(0x50000 + 8 * t, 255, v)] →
    gwApply .setpoints q d = { d with cab := { d.cab with
      setpoints := tSet (fun _ => 0) d.cab.setpoints t (fld v 19 0)
      setpointCounts := tUpd (fun _ => 0) d.cab.setpointCounts t (· + 1) } }) ∧
  (∀ (d : Dev) (q : MemReq) (lo hi : Word), gwWrites q = [(0x60000, 255, lo), (0x60008, 255, hi)] →
    (gwApply .timeAlign q d).cab.time = lo.toNat + fld hi 15 0 * 2 ^ 64 ∧ (gwApply .timeAlign q d).cab.mode = .aligned ∧
      (gwApply .timeAlign q d).cab.slot = ((lo.toNat + fld hi 15 0 * 2 ^ 64) * 5000000 / 2 ^ 32 + 1) % 5000000) ∧
  (∀ (s : State) (ws : List (Word × Bool)), s.settled → cabClocks s.dev = true → s.dev.cab.ringRun = true →
    gwRingSize s.dev < ringUsed s.dev + 2 * 2048 → s.performs (.ringEngineBlock ws) [.cab] fun d =>
      d.cab = { s.dev.cab with drops := min (s.dev.cab.drops + 1) (2 ^ 32 - 1) }) ∧
  (∀ (s : State) (ws : List (Word × Bool)) (dr dp : Nat), s.ready → tWf epDflt s.dev.net.eps = true → cabClocks s.dev = true →
    s.dev.cab.ringRun = true → netRuns s.dev = true → ringUsed s.dev + 2 * 2048 ≤ gwRingSize s.dev →
    decodeAddr s.dev false (ringBase s.dev + s.dev.cab.ringOff) 63 (2 ^ 32 - 1) (2 ^ 32 - 1) = .to dr dp →
    (getEp s.dev gwKey).requests = [] → (getEp s.dev gwKey).outq = [] → s.performs (.ringEngineBlock ws) [.cab, .net] fun d =>
      d.cab = { s.dev.cab with ringOff := (s.dev.cab.ringOff + 2048) % gwRingSize s.dev } ∧
      (getEp d gwKey).requests.map (fun y => (y.op, y.addr, y.len, y.dstR, y.dstP)) =
        [(.wr, ringBase s.dev + s.dev.cab.ringOff, 63, dr, dp)] ∧
      (getEp d gwKey).outq.length = 65 ∧ ∀ k, k ≠ gwKey → getEp d k = getEp s.dev k) ∧
  (∀ (s : State) (k : Fin 2048) (v : Word) (p : Bool) (n : Nat), s.settled → cabClocks s.dev = true →
    n = fld (decodeWord (tGet pairDflt s.dev.cab.status0 k.val)).data 63 48 →
    s.performs (.resultWrite k v p) [.cab] fun d =>
      d.cab = { s.dev.cab with
        value0 := tSet pairDflt s.dev.cab.value0 k.val (encodeWord v p)
        value1 := tSet pairDflt s.dev.cab.value1 k.val (encodeWord v p)
        status0 := tSet pairDflt s.dev.cab.status0 k.val (encodeWord (resultStatus s.dev (n + 1)) false)
        status1 := tSet pairDflt s.dev.cab.status1 k.val (encodeWord (resultStatus s.dev (n + 1)) false) })

/-- Header parity (R262): with its parity bit, each byte of a header holds an odd number of ones; so a header of zeros with a parity
of zeros fails in every byte. -/
def Obligations.HeaderParity : Prop :=
  (∀ (h : BitVec 64) (k : Fin 8),
    (((List.range 8).filter fun j => bit h (8 * k.val + j)).length + (bit (hdrParity h) k.val).toNat) % 2 = 1) ∧
  (∀ k : Fin 8, bit (hdrParity 0) k.val ≠ bit (0 : BitVec 8) k.val)

/-- The current limit of a source output (R411): S_LIMIT is set while the limit acts and clear when it ends; nothing else changes,
so that the tile stays in service. -/
def Obligations.SourceLimit : Prop :=
  (∀ (s : State) (t : Fin 24) (on : Bool), s.settled → cabUp s.dev = true → tWf tileDflt s.dev.cab.tiles = true →
    s.performs (.sourceCurrentLimit t on) [.cab] fun d =>
      d.cab = { s.dev.cab with tiles := d.cab.tiles } ∧ getTile d t.val = { getTile s.dev t.val with limit := on } ∧
      ∀ k, k ≠ t.val → getTile d k = getTile s.dev k) ∧
  (∀ (s : State) (t : Fin 24), s.settled → cabUp s.dev = true → (getTile s.dev t.val).out = false →
    s.performs (.sourceCurrentLimit t true) [.cab] fun d => (getTile d t.val).limit = true ∧ (getTile d t.val).out = false)

/-- Addresses of management space that no register occupies (R4): a read returns 0 and changes nothing, a write is ignored; on every
path the access ends as one of a register does, and no fault is raised. -/
def Obligations.UnoccupiedAddresses : Prop :=
  (∀ (d : Dev) (a : Nat), regFields a = [] → ¬(a / 2 ^ 21 = 2 ∧ a % 2 ^ 20 < 0xC0000) → mgmtRead a d = (0, d)) ∧
  (∀ (s : State) (p : Path) (a : BitVec 26) (b : List (Option (BitVec 8))) (now : BitVec 64), s.ready →
    (∀ i, i < (a.toNat % 8 + b.length + 7) / 8 → regFields (a.toNat / 8 * 8 + 8 * i) = []) →
    s.becomes (.registerWrite p a b false now) fun d => d) ∧
  (∀ (s : State) (id : Nat) (off : BitVec 36) (b : List (Option (BitVec 8))), s.ready → linkUp s.dev 0 0 = true →
    (∀ i, i < (off.toNat % 2 ^ 26 % 8 + b.length + 7) / 8 → regFields (off.toNat % 2 ^ 26 / 8 * 8 + 8 * i) = []) →
    s.becomes (.bar0Access id true (.wr off b false)) fun d => d) ∧
  (∀ (s : State) (id : Nat) (off : BitVec 36), s.ready → linkUp s.dev 0 0 = true → off.toNat % 8 = 0 →
    regFields (off.toNat % 2 ^ 26) = [] → ¬(off.toNat % 2 ^ 26 / 2 ^ 21 = 2 ∧ off.toNat % 2 ^ 20 < 0xC0000) →
    s.becomes (.bar0Access id true (.rd off (List.replicate 8 true))) fun d => { d with out := [.completion 0 0 id 0 [0] false] }) ∧
  (∀ (s : State) (a3 a2 a1 a0 : BitVec 8), s.ready →
    regFields ((a3.toNat * 2 ^ 24 + a2.toNat * 2 ^ 16 + a1.toNat * 2 ^ 8 + a0.toNat) / 8 * 8) = [] →
    ¬((a3.toNat * 2 ^ 24 + a2.toNat * 2 ^ 16 + a1.toNat * 2 ^ 8 + a0.toNat) / 2 ^ 21 = 2 ∧
      (a3.toNat * 2 ^ 24 + a2.toNat * 2 ^ 16 + a1.toNat * 2 ^ 8 + a0.toNat) % 2 ^ 20 < 0xC0000) →
    s.becomes (.mspiTransfer [0x0B, a3, a2, a1, a0, 0, 0, 0, 0, 0, 0, 0, 0, 0, 0]) fun d => { d with out := [.mspi 0] })

/-- Every command is performed: at the front of the queue, in any state, it leaves the queue's rest and a settled block: no
escalation level to carry out, and no reload that waits without a commit. No command is refused, and none ends in a fault. It rests
also on the model's choices of assumptions 1 and 122. -/
def Obligations.EveryCommandRuns : Prop :=
  ∀ (c : Instr) (rest : List Instr) (d : Dev),
    ∃ d', step { pending := c :: rest, dev := d } = .next { pending := rest, dev := d' } ∧ d'.settled

/-- One-time memory of the key store (R516): no command, and no reset, changes a programmed device key or signing entry, takes back
a revocation, or clears sign_fuse. -/
def Obligations.OneTimeMemory : Prop :=
  ∀ s s' : State, step s = .next s' → KeysKept s.dev s'.dev

/-- The registers stay in canonical form: ascending addresses, and no register listed at its reset value. So every step leaves the
register file as plain a piece of data as reset does. -/
def Obligations.RegistersCanonical : Prop :=
  ∀ s s' : State, tWf regReset s.dev.regs = true → step s = .next s' → tWf regReset s'.dev.regs = true

/-- The word code (R29 to R31): a stored word decodes to its data and poison bit, and with any one of its 80 bits in error to the
same data and poison bit, corrected. -/
def Obligations.WordCode : Prop :=
  (∀ (w : Word) (p : Bool), decodeWord (encodeWord w p) = { outcome := .clean, data := w, poison := p }) ∧
  (∀ (w : Word) (p : Bool) (i : Fin 80),
    decodeWord (encodeWord w p ^^^ BitVec.ofNat 80 (2 ^ i.val)) = { outcome := .corrected1, data := w, poison := p })

/-- The word code with two bits in error (R31): any two of the 80 bits in error are corrected. -/
def Obligations.WordCodePairs : Prop :=
  ∀ (w : Word) (p : Bool) (i j : Fin 80), i ≠ j →
    decodeWord (encodeWord w p ^^^ BitVec.ofNat 80 (2 ^ i.val) ^^^ BitVec.ofNat 80 (2 ^ j.val)) =
      { outcome := .corrected2, data := w, poison := p }

/-- The state after reset: every register at the value that its entry gives, every sector in the initial-load state with its
attachments RESETTING, DONE low and the pins held (R212); the IRO clocks the management side while the references are judged (R122,
R126); no fault group holds anything; the boot procedure is due (R209). That the key store is as delivered, the queue empty and
nothing sent out is the model's choice (assumption 10). -/
def Obligations.ResetState : Prop :=
  State.reset.pending = [] ∧ State.reset.steady ∧ State.reset.calm ∧ (∀ a, getR State.reset.dev a = regReset a) ∧
  (∀ i : Nat, i < 64 → (getSec State.reset.dev i).state = .initialLoad ∧
    ∀ k ∈ sectorAtts i, (getEp State.reset.dev k).state = .resetting) ∧
  State.reset.dev.cfg.done = false ∧ State.reset.dev.power.pinsHeld = true ∧ State.reset.dev.clk.xo.state = .judging ∧
  State.reset.dev.clk.chref.state = .judging ∧ State.reset.dev.cfg.boot.due = true ∧
  (∀ g : Nat, g < 8 → (getGroup State.reset.dev g).esc = .idle ∧ (getGroup State.reset.dev g).valid = false) ∧
  State.reset.dev.bureau.keys = {} ∧ State.reset.dev.out = []
end

