-- ==== Sys2Proof/Laws/State.lean ====
section
/-! SUPPORT. What each named update leaves alone: one lemma for each part of the device that it does not change, so that no proof
unfolds a record update. -/

namespace Sys2Proof.Machine

/-! putR changes regs. -/

@[simp] theorem putR_sectors (s : Dev) (a : Nat) (v : Word) : (putR s a v).sectors = s.sectors := rfl
@[simp] theorem putR_eccLog (s : Dev) (a : Nat) (v : Word) : (putR s a v).eccLog = s.eccLog := rfl
@[simp] theorem putR_thr (s : Dev) (a : Nat) (v : Word) : (putR s a v).thr = s.thr := rfl
@[simp] theorem putR_clk (s : Dev) (a : Nat) (v : Word) : (putR s a v).clk = s.clk := rfl
@[simp] theorem putR_cfg (s : Dev) (a : Nat) (v : Word) : (putR s a v).cfg = s.cfg := rfl
@[simp] theorem putR_net (s : Dev) (a : Nat) (v : Word) : (putR s a v).net = s.net := rfl
@[simp] theorem putR_mem (s : Dev) (a : Nat) (v : Word) : (putR s a v).mem = s.mem := rfl
@[simp] theorem putR_enc (s : Dev) (a : Nat) (v : Word) : (putR s a v).enc = s.enc := rfl
@[simp] theorem putR_cab (s : Dev) (a : Nat) (v : Word) : (putR s a v).cab = s.cab := rfl
@[simp] theorem putR_links (s : Dev) (a : Nat) (v : Word) : (putR s a v).links = s.links := rfl
@[simp] theorem putR_io (s : Dev) (a : Nat) (v : Word) : (putR s a v).io = s.io := rfl
@[simp] theorem putR_tb (s : Dev) (a : Nat) (v : Word) : (putR s a v).tb = s.tb := rfl
@[simp] theorem putR_groups (s : Dev) (a : Nat) (v : Word) : (putR s a v).groups = s.groups := rfl
@[simp] theorem putR_flog (s : Dev) (a : Nat) (v : Word) : (putR s a v).flog = s.flog := rfl
@[simp] theorem putR_units (s : Dev) (a : Nat) (v : Word) : (putR s a v).units = s.units := rfl
@[simp] theorem putR_power (s : Dev) (a : Nat) (v : Word) : (putR s a v).power = s.power := rfl
@[simp] theorem putR_bureau (s : Dev) (a : Nat) (v : Word) : (putR s a v).bureau = s.bureau := rfl
@[simp] theorem putR_free (s : Dev) (a : Nat) (v : Word) : (putR s a v).free = s.free := rfl
@[simp] theorem putR_out (s : Dev) (a : Nat) (v : Word) : (putR s a v).out = s.out := rfl
@[simp] theorem putR_due (s : Dev) (a : Nat) (v : Word) : (putR s a v).due = s.due := rfl

/-! setR changes regs. -/

@[simp] theorem setR_sectors (s : Dev) (a hi lo v : Nat) : (setR s a hi lo v).sectors = s.sectors := rfl
@[simp] theorem setR_eccLog (s : Dev) (a hi lo v : Nat) : (setR s a hi lo v).eccLog = s.eccLog := rfl
@[simp] theorem setR_thr (s : Dev) (a hi lo v : Nat) : (setR s a hi lo v).thr = s.thr := rfl
@[simp] theorem setR_clk (s : Dev) (a hi lo v : Nat) : (setR s a hi lo v).clk = s.clk := rfl
@[simp] theorem setR_cfg (s : Dev) (a hi lo v : Nat) : (setR s a hi lo v).cfg = s.cfg := rfl
@[simp] theorem setR_net (s : Dev) (a hi lo v : Nat) : (setR s a hi lo v).net = s.net := rfl
@[simp] theorem setR_mem (s : Dev) (a hi lo v : Nat) : (setR s a hi lo v).mem = s.mem := rfl
@[simp] theorem setR_enc (s : Dev) (a hi lo v : Nat) : (setR s a hi lo v).enc = s.enc := rfl
@[simp] theorem setR_cab (s : Dev) (a hi lo v : Nat) : (setR s a hi lo v).cab = s.cab := rfl
@[simp] theorem setR_links (s : Dev) (a hi lo v : Nat) : (setR s a hi lo v).links = s.links := rfl
@[simp] theorem setR_io (s : Dev) (a hi lo v : Nat) : (setR s a hi lo v).io = s.io := rfl
@[simp] theorem setR_tb (s : Dev) (a hi lo v : Nat) : (setR s a hi lo v).tb = s.tb := rfl
@[simp] theorem setR_groups (s : Dev) (a hi lo v : Nat) : (setR s a hi lo v).groups = s.groups := rfl
@[simp] theorem setR_flog (s : Dev) (a hi lo v : Nat) : (setR s a hi lo v).flog = s.flog := rfl
@[simp] theorem setR_units (s : Dev) (a hi lo v : Nat) : (setR s a hi lo v).units = s.units := rfl
@[simp] theorem setR_power (s : Dev) (a hi lo v : Nat) : (setR s a hi lo v).power = s.power := rfl
@[simp] theorem setR_bureau (s : Dev) (a hi lo v : Nat) : (setR s a hi lo v).bureau = s.bureau := rfl
@[simp] theorem setR_free (s : Dev) (a hi lo v : Nat) : (setR s a hi lo v).free = s.free := rfl
@[simp] theorem setR_out (s : Dev) (a hi lo v : Nat) : (setR s a hi lo v).out = s.out := rfl
@[simp] theorem setR_due (s : Dev) (a hi lo v : Nat) : (setR s a hi lo v).due = s.due := rfl

/-! incR changes regs. -/

@[simp] theorem incR_sectors (s : Dev) (a hi lo n : Nat) : (incR s a hi lo n).sectors = s.sectors := rfl
@[simp] theorem incR_eccLog (s : Dev) (a hi lo n : Nat) : (incR s a hi lo n).eccLog = s.eccLog := rfl
@[simp] theorem incR_thr (s : Dev) (a hi lo n : Nat) : (incR s a hi lo n).thr = s.thr := rfl
@[simp] theorem incR_clk (s : Dev) (a hi lo n : Nat) : (incR s a hi lo n).clk = s.clk := rfl
@[simp] theorem incR_cfg (s : Dev) (a hi lo n : Nat) : (incR s a hi lo n).cfg = s.cfg := rfl
@[simp] theorem incR_net (s : Dev) (a hi lo n : Nat) : (incR s a hi lo n).net = s.net := rfl
@[simp] theorem incR_mem (s : Dev) (a hi lo n : Nat) : (incR s a hi lo n).mem = s.mem := rfl
@[simp] theorem incR_enc (s : Dev) (a hi lo n : Nat) : (incR s a hi lo n).enc = s.enc := rfl
@[simp] theorem incR_cab (s : Dev) (a hi lo n : Nat) : (incR s a hi lo n).cab = s.cab := rfl
@[simp] theorem incR_links (s : Dev) (a hi lo n : Nat) : (incR s a hi lo n).links = s.links := rfl
@[simp] theorem incR_io (s : Dev) (a hi lo n : Nat) : (incR s a hi lo n).io = s.io := rfl
@[simp] theorem incR_tb (s : Dev) (a hi lo n : Nat) : (incR s a hi lo n).tb = s.tb := rfl
@[simp] theorem incR_groups (s : Dev) (a hi lo n : Nat) : (incR s a hi lo n).groups = s.groups := rfl
@[simp] theorem incR_flog (s : Dev) (a hi lo n : Nat) : (incR s a hi lo n).flog = s.flog := rfl
@[simp] theorem incR_units (s : Dev) (a hi lo n : Nat) : (incR s a hi lo n).units = s.units := rfl
@[simp] theorem incR_power (s : Dev) (a hi lo n : Nat) : (incR s a hi lo n).power = s.power := rfl
@[simp] theorem incR_bureau (s : Dev) (a hi lo n : Nat) : (incR s a hi lo n).bureau = s.bureau := rfl
@[simp] theorem incR_free (s : Dev) (a hi lo n : Nat) : (incR s a hi lo n).free = s.free := rfl
@[simp] theorem incR_out (s : Dev) (a hi lo n : Nat) : (incR s a hi lo n).out = s.out := rfl
@[simp] theorem incR_due (s : Dev) (a hi lo n : Nat) : (incR s a hi lo n).due = s.due := rfl

/-! addR changes regs. -/

@[simp] theorem addR_sectors (s : Dev) (a hi lo n : Nat) : (addR s a hi lo n).sectors = s.sectors := rfl
@[simp] theorem addR_eccLog (s : Dev) (a hi lo n : Nat) : (addR s a hi lo n).eccLog = s.eccLog := rfl
@[simp] theorem addR_thr (s : Dev) (a hi lo n : Nat) : (addR s a hi lo n).thr = s.thr := rfl
@[simp] theorem addR_clk (s : Dev) (a hi lo n : Nat) : (addR s a hi lo n).clk = s.clk := rfl
@[simp] theorem addR_cfg (s : Dev) (a hi lo n : Nat) : (addR s a hi lo n).cfg = s.cfg := rfl
@[simp] theorem addR_net (s : Dev) (a hi lo n : Nat) : (addR s a hi lo n).net = s.net := rfl
@[simp] theorem addR_mem (s : Dev) (a hi lo n : Nat) : (addR s a hi lo n).mem = s.mem := rfl
@[simp] theorem addR_enc (s : Dev) (a hi lo n : Nat) : (addR s a hi lo n).enc = s.enc := rfl
@[simp] theorem addR_cab (s : Dev) (a hi lo n : Nat) : (addR s a hi lo n).cab = s.cab := rfl
@[simp] theorem addR_links (s : Dev) (a hi lo n : Nat) : (addR s a hi lo n).links = s.links := rfl
@[simp] theorem addR_io (s : Dev) (a hi lo n : Nat) : (addR s a hi lo n).io = s.io := rfl
@[simp] theorem addR_tb (s : Dev) (a hi lo n : Nat) : (addR s a hi lo n).tb = s.tb := rfl
@[simp] theorem addR_groups (s : Dev) (a hi lo n : Nat) : (addR s a hi lo n).groups = s.groups := rfl
@[simp] theorem addR_flog (s : Dev) (a hi lo n : Nat) : (addR s a hi lo n).flog = s.flog := rfl
@[simp] theorem addR_units (s : Dev) (a hi lo n : Nat) : (addR s a hi lo n).units = s.units := rfl
@[simp] theorem addR_power (s : Dev) (a hi lo n : Nat) : (addR s a hi lo n).power = s.power := rfl
@[simp] theorem addR_bureau (s : Dev) (a hi lo n : Nat) : (addR s a hi lo n).bureau = s.bureau := rfl
@[simp] theorem addR_free (s : Dev) (a hi lo n : Nat) : (addR s a hi lo n).free = s.free := rfl
@[simp] theorem addR_out (s : Dev) (a hi lo n : Nat) : (addR s a hi lo n).out = s.out := rfl
@[simp] theorem addR_due (s : Dev) (a hi lo n : Nat) : (addR s a hi lo n).due = s.due := rfl

/-! resetR changes regs. -/

@[simp] theorem resetR_sectors (s : Dev) (p : Nat → Bool) : (resetR s p).sectors = s.sectors := rfl
@[simp] theorem resetR_eccLog (s : Dev) (p : Nat → Bool) : (resetR s p).eccLog = s.eccLog := rfl
@[simp] theorem resetR_thr (s : Dev) (p : Nat → Bool) : (resetR s p).thr = s.thr := rfl
@[simp] theorem resetR_clk (s : Dev) (p : Nat → Bool) : (resetR s p).clk = s.clk := rfl
@[simp] theorem resetR_cfg (s : Dev) (p : Nat → Bool) : (resetR s p).cfg = s.cfg := rfl
@[simp] theorem resetR_net (s : Dev) (p : Nat → Bool) : (resetR s p).net = s.net := rfl
@[simp] theorem resetR_mem (s : Dev) (p : Nat → Bool) : (resetR s p).mem = s.mem := rfl
@[simp] theorem resetR_enc (s : Dev) (p : Nat → Bool) : (resetR s p).enc = s.enc := rfl
@[simp] theorem resetR_cab (s : Dev) (p : Nat → Bool) : (resetR s p).cab = s.cab := rfl
@[simp] theorem resetR_links (s : Dev) (p : Nat → Bool) : (resetR s p).links = s.links := rfl
@[simp] theorem resetR_io (s : Dev) (p : Nat → Bool) : (resetR s p).io = s.io := rfl
@[simp] theorem resetR_tb (s : Dev) (p : Nat → Bool) : (resetR s p).tb = s.tb := rfl
@[simp] theorem resetR_groups (s : Dev) (p : Nat → Bool) : (resetR s p).groups = s.groups := rfl
@[simp] theorem resetR_flog (s : Dev) (p : Nat → Bool) : (resetR s p).flog = s.flog := rfl
@[simp] theorem resetR_units (s : Dev) (p : Nat → Bool) : (resetR s p).units = s.units := rfl
@[simp] theorem resetR_power (s : Dev) (p : Nat → Bool) : (resetR s p).power = s.power := rfl
@[simp] theorem resetR_bureau (s : Dev) (p : Nat → Bool) : (resetR s p).bureau = s.bureau := rfl
@[simp] theorem resetR_free (s : Dev) (p : Nat → Bool) : (resetR s p).free = s.free := rfl
@[simp] theorem resetR_out (s : Dev) (p : Nat → Bool) : (resetR s p).out = s.out := rfl
@[simp] theorem resetR_due (s : Dev) (p : Nat → Bool) : (resetR s p).due = s.due := rfl

/-! clrCount changes regs. -/

@[simp] theorem clrCount_sectors (s : Dev) (a hi lo : Nat) (i : Bool) : (clrCount s a hi lo i).sectors = s.sectors := rfl
@[simp] theorem clrCount_eccLog (s : Dev) (a hi lo : Nat) (i : Bool) : (clrCount s a hi lo i).eccLog = s.eccLog := rfl
@[simp] theorem clrCount_thr (s : Dev) (a hi lo : Nat) (i : Bool) : (clrCount s a hi lo i).thr = s.thr := rfl
@[simp] theorem clrCount_clk (s : Dev) (a hi lo : Nat) (i : Bool) : (clrCount s a hi lo i).clk = s.clk := rfl
@[simp] theorem clrCount_cfg (s : Dev) (a hi lo : Nat) (i : Bool) : (clrCount s a hi lo i).cfg = s.cfg := rfl
@[simp] theorem clrCount_net (s : Dev) (a hi lo : Nat) (i : Bool) : (clrCount s a hi lo i).net = s.net := rfl
@[simp] theorem clrCount_mem (s : Dev) (a hi lo : Nat) (i : Bool) : (clrCount s a hi lo i).mem = s.mem := rfl
@[simp] theorem clrCount_enc (s : Dev) (a hi lo : Nat) (i : Bool) : (clrCount s a hi lo i).enc = s.enc := rfl
@[simp] theorem clrCount_cab (s : Dev) (a hi lo : Nat) (i : Bool) : (clrCount s a hi lo i).cab = s.cab := rfl
@[simp] theorem clrCount_links (s : Dev) (a hi lo : Nat) (i : Bool) : (clrCount s a hi lo i).links = s.links := rfl
@[simp] theorem clrCount_io (s : Dev) (a hi lo : Nat) (i : Bool) : (clrCount s a hi lo i).io = s.io := rfl
@[simp] theorem clrCount_tb (s : Dev) (a hi lo : Nat) (i : Bool) : (clrCount s a hi lo i).tb = s.tb := rfl
@[simp] theorem clrCount_groups (s : Dev) (a hi lo : Nat) (i : Bool) : (clrCount s a hi lo i).groups = s.groups := rfl
@[simp] theorem clrCount_flog (s : Dev) (a hi lo : Nat) (i : Bool) : (clrCount s a hi lo i).flog = s.flog := rfl
@[simp] theorem clrCount_units (s : Dev) (a hi lo : Nat) (i : Bool) : (clrCount s a hi lo i).units = s.units := rfl
@[simp] theorem clrCount_power (s : Dev) (a hi lo : Nat) (i : Bool) : (clrCount s a hi lo i).power = s.power := rfl
@[simp] theorem clrCount_bureau (s : Dev) (a hi lo : Nat) (i : Bool) : (clrCount s a hi lo i).bureau = s.bureau := rfl
@[simp] theorem clrCount_free (s : Dev) (a hi lo : Nat) (i : Bool) : (clrCount s a hi lo i).free = s.free := rfl
@[simp] theorem clrCount_out (s : Dev) (a hi lo : Nat) (i : Bool) : (clrCount s a hi lo i).out = s.out := rfl
@[simp] theorem clrCount_due (s : Dev) (a hi lo : Nat) (i : Bool) : (clrCount s a hi lo i).due = s.due := rfl

/-! takeBit changes free. -/

@[simp] theorem takeBit_regs (s : Dev) : ((takeBit s).2).regs = s.regs := rfl
@[simp] theorem takeBit_sectors (s : Dev) : ((takeBit s).2).sectors = s.sectors := rfl
@[simp] theorem takeBit_eccLog (s : Dev) : ((takeBit s).2).eccLog = s.eccLog := rfl
@[simp] theorem takeBit_thr (s : Dev) : ((takeBit s).2).thr = s.thr := rfl
@[simp] theorem takeBit_clk (s : Dev) : ((takeBit s).2).clk = s.clk := rfl
@[simp] theorem takeBit_cfg (s : Dev) : ((takeBit s).2).cfg = s.cfg := rfl
@[simp] theorem takeBit_net (s : Dev) : ((takeBit s).2).net = s.net := rfl
@[simp] theorem takeBit_mem (s : Dev) : ((takeBit s).2).mem = s.mem := rfl
@[simp] theorem takeBit_enc (s : Dev) : ((takeBit s).2).enc = s.enc := rfl
@[simp] theorem takeBit_cab (s : Dev) : ((takeBit s).2).cab = s.cab := rfl
@[simp] theorem takeBit_links (s : Dev) : ((takeBit s).2).links = s.links := rfl
@[simp] theorem takeBit_io (s : Dev) : ((takeBit s).2).io = s.io := rfl
@[simp] theorem takeBit_tb (s : Dev) : ((takeBit s).2).tb = s.tb := rfl
@[simp] theorem takeBit_groups (s : Dev) : ((takeBit s).2).groups = s.groups := rfl
@[simp] theorem takeBit_flog (s : Dev) : ((takeBit s).2).flog = s.flog := rfl
@[simp] theorem takeBit_units (s : Dev) : ((takeBit s).2).units = s.units := rfl
@[simp] theorem takeBit_power (s : Dev) : ((takeBit s).2).power = s.power := rfl
@[simp] theorem takeBit_bureau (s : Dev) : ((takeBit s).2).bureau = s.bureau := rfl
@[simp] theorem takeBit_out (s : Dev) : ((takeBit s).2).out = s.out := rfl
@[simp] theorem takeBit_due (s : Dev) : ((takeBit s).2).due = s.due := rfl

/-! takeWord changes free. -/

@[simp] theorem takeWord_regs (s : Dev) : ((takeWord s).2).regs = s.regs := rfl
@[simp] theorem takeWord_sectors (s : Dev) : ((takeWord s).2).sectors = s.sectors := rfl
@[simp] theorem takeWord_eccLog (s : Dev) : ((takeWord s).2).eccLog = s.eccLog := rfl
@[simp] theorem takeWord_thr (s : Dev) : ((takeWord s).2).thr = s.thr := rfl
@[simp] theorem takeWord_clk (s : Dev) : ((takeWord s).2).clk = s.clk := rfl
@[simp] theorem takeWord_cfg (s : Dev) : ((takeWord s).2).cfg = s.cfg := rfl
@[simp] theorem takeWord_net (s : Dev) : ((takeWord s).2).net = s.net := rfl
@[simp] theorem takeWord_mem (s : Dev) : ((takeWord s).2).mem = s.mem := rfl
@[simp] theorem takeWord_enc (s : Dev) : ((takeWord s).2).enc = s.enc := rfl
@[simp] theorem takeWord_cab (s : Dev) : ((takeWord s).2).cab = s.cab := rfl
@[simp] theorem takeWord_links (s : Dev) : ((takeWord s).2).links = s.links := rfl
@[simp] theorem takeWord_io (s : Dev) : ((takeWord s).2).io = s.io := rfl
@[simp] theorem takeWord_tb (s : Dev) : ((takeWord s).2).tb = s.tb := rfl
@[simp] theorem takeWord_groups (s : Dev) : ((takeWord s).2).groups = s.groups := rfl
@[simp] theorem takeWord_flog (s : Dev) : ((takeWord s).2).flog = s.flog := rfl
@[simp] theorem takeWord_units (s : Dev) : ((takeWord s).2).units = s.units := rfl
@[simp] theorem takeWord_power (s : Dev) : ((takeWord s).2).power = s.power := rfl
@[simp] theorem takeWord_bureau (s : Dev) : ((takeWord s).2).bureau = s.bureau := rfl
@[simp] theorem takeWord_out (s : Dev) : ((takeWord s).2).out = s.out := rfl
@[simp] theorem takeWord_due (s : Dev) : ((takeWord s).2).due = s.due := rfl

/-! updSec changes sectors. -/

@[simp] theorem updSec_regs (s : Dev) (i : Nat) (f : Sector → Sector) : (updSec s i f).regs = s.regs := rfl
@[simp] theorem updSec_eccLog (s : Dev) (i : Nat) (f : Sector → Sector) : (updSec s i f).eccLog = s.eccLog := rfl
@[simp] theorem updSec_thr (s : Dev) (i : Nat) (f : Sector → Sector) : (updSec s i f).thr = s.thr := rfl
@[simp] theorem updSec_clk (s : Dev) (i : Nat) (f : Sector → Sector) : (updSec s i f).clk = s.clk := rfl
@[simp] theorem updSec_cfg (s : Dev) (i : Nat) (f : Sector → Sector) : (updSec s i f).cfg = s.cfg := rfl
@[simp] theorem updSec_net (s : Dev) (i : Nat) (f : Sector → Sector) : (updSec s i f).net = s.net := rfl
@[simp] theorem updSec_mem (s : Dev) (i : Nat) (f : Sector → Sector) : (updSec s i f).mem = s.mem := rfl
@[simp] theorem updSec_enc (s : Dev) (i : Nat) (f : Sector → Sector) : (updSec s i f).enc = s.enc := rfl
@[simp] theorem updSec_cab (s : Dev) (i : Nat) (f : Sector → Sector) : (updSec s i f).cab = s.cab := rfl
@[simp] theorem updSec_links (s : Dev) (i : Nat) (f : Sector → Sector) : (updSec s i f).links = s.links := rfl
@[simp] theorem updSec_io (s : Dev) (i : Nat) (f : Sector → Sector) : (updSec s i f).io = s.io := rfl
@[simp] theorem updSec_tb (s : Dev) (i : Nat) (f : Sector → Sector) : (updSec s i f).tb = s.tb := rfl
@[simp] theorem updSec_groups (s : Dev) (i : Nat) (f : Sector → Sector) : (updSec s i f).groups = s.groups := rfl
@[simp] theorem updSec_flog (s : Dev) (i : Nat) (f : Sector → Sector) : (updSec s i f).flog = s.flog := rfl
@[simp] theorem updSec_units (s : Dev) (i : Nat) (f : Sector → Sector) : (updSec s i f).units = s.units := rfl
@[simp] theorem updSec_power (s : Dev) (i : Nat) (f : Sector → Sector) : (updSec s i f).power = s.power := rfl
@[simp] theorem updSec_bureau (s : Dev) (i : Nat) (f : Sector → Sector) : (updSec s i f).bureau = s.bureau := rfl
@[simp] theorem updSec_free (s : Dev) (i : Nat) (f : Sector → Sector) : (updSec s i f).free = s.free := rfl
@[simp] theorem updSec_out (s : Dev) (i : Nat) (f : Sector → Sector) : (updSec s i f).out = s.out := rfl
@[simp] theorem updSec_due (s : Dev) (i : Nat) (f : Sector → Sector) : (updSec s i f).due = s.due := rfl

/-! updLeaf changes cfg. -/

@[simp] theorem updLeaf_regs (s : Dev) (i l : Nat) (f : LeafDesc → LeafDesc) : (updLeaf s i l f).regs = s.regs := rfl
@[simp] theorem updLeaf_sectors (s : Dev) (i l : Nat) (f : LeafDesc → LeafDesc) : (updLeaf s i l f).sectors = s.sectors := rfl
@[simp] theorem updLeaf_eccLog (s : Dev) (i l : Nat) (f : LeafDesc → LeafDesc) : (updLeaf s i l f).eccLog = s.eccLog := rfl
@[simp] theorem updLeaf_thr (s : Dev) (i l : Nat) (f : LeafDesc → LeafDesc) : (updLeaf s i l f).thr = s.thr := rfl
@[simp] theorem updLeaf_clk (s : Dev) (i l : Nat) (f : LeafDesc → LeafDesc) : (updLeaf s i l f).clk = s.clk := rfl
@[simp] theorem updLeaf_net (s : Dev) (i l : Nat) (f : LeafDesc → LeafDesc) : (updLeaf s i l f).net = s.net := rfl
@[simp] theorem updLeaf_mem (s : Dev) (i l : Nat) (f : LeafDesc → LeafDesc) : (updLeaf s i l f).mem = s.mem := rfl
@[simp] theorem updLeaf_enc (s : Dev) (i l : Nat) (f : LeafDesc → LeafDesc) : (updLeaf s i l f).enc = s.enc := rfl
@[simp] theorem updLeaf_cab (s : Dev) (i l : Nat) (f : LeafDesc → LeafDesc) : (updLeaf s i l f).cab = s.cab := rfl
@[simp] theorem updLeaf_links (s : Dev) (i l : Nat) (f : LeafDesc → LeafDesc) : (updLeaf s i l f).links = s.links := rfl
@[simp] theorem updLeaf_io (s : Dev) (i l : Nat) (f : LeafDesc → LeafDesc) : (updLeaf s i l f).io = s.io := rfl
@[simp] theorem updLeaf_tb (s : Dev) (i l : Nat) (f : LeafDesc → LeafDesc) : (updLeaf s i l f).tb = s.tb := rfl
@[simp] theorem updLeaf_groups (s : Dev) (i l : Nat) (f : LeafDesc → LeafDesc) : (updLeaf s i l f).groups = s.groups := rfl
@[simp] theorem updLeaf_flog (s : Dev) (i l : Nat) (f : LeafDesc → LeafDesc) : (updLeaf s i l f).flog = s.flog := rfl
@[simp] theorem updLeaf_units (s : Dev) (i l : Nat) (f : LeafDesc → LeafDesc) : (updLeaf s i l f).units = s.units := rfl
@[simp] theorem updLeaf_power (s : Dev) (i l : Nat) (f : LeafDesc → LeafDesc) : (updLeaf s i l f).power = s.power := rfl
@[simp] theorem updLeaf_bureau (s : Dev) (i l : Nat) (f : LeafDesc → LeafDesc) : (updLeaf s i l f).bureau = s.bureau := rfl
@[simp] theorem updLeaf_free (s : Dev) (i l : Nat) (f : LeafDesc → LeafDesc) : (updLeaf s i l f).free = s.free := rfl
@[simp] theorem updLeaf_out (s : Dev) (i l : Nat) (f : LeafDesc → LeafDesc) : (updLeaf s i l f).out = s.out := rfl
@[simp] theorem updLeaf_due (s : Dev) (i l : Nat) (f : LeafDesc → LeafDesc) : (updLeaf s i l f).due = s.due := rfl

/-! setFrame changes cfg. -/

@[simp] theorem setFrame_regs (s : Dev) (i l f : Nat) (v : Frame) : (setFrame s i l f v).regs = s.regs := rfl
@[simp] theorem setFrame_sectors (s : Dev) (i l f : Nat) (v : Frame) : (setFrame s i l f v).sectors = s.sectors := rfl
@[simp] theorem setFrame_eccLog (s : Dev) (i l f : Nat) (v : Frame) : (setFrame s i l f v).eccLog = s.eccLog := rfl
@[simp] theorem setFrame_thr (s : Dev) (i l f : Nat) (v : Frame) : (setFrame s i l f v).thr = s.thr := rfl
@[simp] theorem setFrame_clk (s : Dev) (i l f : Nat) (v : Frame) : (setFrame s i l f v).clk = s.clk := rfl
@[simp] theorem setFrame_net (s : Dev) (i l f : Nat) (v : Frame) : (setFrame s i l f v).net = s.net := rfl
@[simp] theorem setFrame_mem (s : Dev) (i l f : Nat) (v : Frame) : (setFrame s i l f v).mem = s.mem := rfl
@[simp] theorem setFrame_enc (s : Dev) (i l f : Nat) (v : Frame) : (setFrame s i l f v).enc = s.enc := rfl
@[simp] theorem setFrame_cab (s : Dev) (i l f : Nat) (v : Frame) : (setFrame s i l f v).cab = s.cab := rfl
@[simp] theorem setFrame_links (s : Dev) (i l f : Nat) (v : Frame) : (setFrame s i l f v).links = s.links := rfl
@[simp] theorem setFrame_io (s : Dev) (i l f : Nat) (v : Frame) : (setFrame s i l f v).io = s.io := rfl
@[simp] theorem setFrame_tb (s : Dev) (i l f : Nat) (v : Frame) : (setFrame s i l f v).tb = s.tb := rfl
@[simp] theorem setFrame_groups (s : Dev) (i l f : Nat) (v : Frame) : (setFrame s i l f v).groups = s.groups := rfl
@[simp] theorem setFrame_flog (s : Dev) (i l f : Nat) (v : Frame) : (setFrame s i l f v).flog = s.flog := rfl
@[simp] theorem setFrame_units (s : Dev) (i l f : Nat) (v : Frame) : (setFrame s i l f v).units = s.units := rfl
@[simp] theorem setFrame_power (s : Dev) (i l f : Nat) (v : Frame) : (setFrame s i l f v).power = s.power := rfl
@[simp] theorem setFrame_bureau (s : Dev) (i l f : Nat) (v : Frame) : (setFrame s i l f v).bureau = s.bureau := rfl
@[simp] theorem setFrame_free (s : Dev) (i l f : Nat) (v : Frame) : (setFrame s i l f v).free = s.free := rfl
@[simp] theorem setFrame_out (s : Dev) (i l f : Nat) (v : Frame) : (setFrame s i l f v).out = s.out := rfl
@[simp] theorem setFrame_due (s : Dev) (i l f : Nat) (v : Frame) : (setFrame s i l f v).due = s.due := rfl

/-! bumpMap changes units. -/

@[simp] theorem bumpMap_regs (s : Dev) : (bumpMap s).regs = s.regs := rfl
@[simp] theorem bumpMap_sectors (s : Dev) : (bumpMap s).sectors = s.sectors := rfl
@[simp] theorem bumpMap_eccLog (s : Dev) : (bumpMap s).eccLog = s.eccLog := rfl
@[simp] theorem bumpMap_thr (s : Dev) : (bumpMap s).thr = s.thr := rfl
@[simp] theorem bumpMap_clk (s : Dev) : (bumpMap s).clk = s.clk := rfl
@[simp] theorem bumpMap_cfg (s : Dev) : (bumpMap s).cfg = s.cfg := rfl
@[simp] theorem bumpMap_net (s : Dev) : (bumpMap s).net = s.net := rfl
@[simp] theorem bumpMap_mem (s : Dev) : (bumpMap s).mem = s.mem := rfl
@[simp] theorem bumpMap_enc (s : Dev) : (bumpMap s).enc = s.enc := rfl
@[simp] theorem bumpMap_cab (s : Dev) : (bumpMap s).cab = s.cab := rfl
@[simp] theorem bumpMap_links (s : Dev) : (bumpMap s).links = s.links := rfl
@[simp] theorem bumpMap_io (s : Dev) : (bumpMap s).io = s.io := rfl
@[simp] theorem bumpMap_tb (s : Dev) : (bumpMap s).tb = s.tb := rfl
@[simp] theorem bumpMap_groups (s : Dev) : (bumpMap s).groups = s.groups := rfl
@[simp] theorem bumpMap_flog (s : Dev) : (bumpMap s).flog = s.flog := rfl
@[simp] theorem bumpMap_power (s : Dev) : (bumpMap s).power = s.power := rfl
@[simp] theorem bumpMap_bureau (s : Dev) : (bumpMap s).bureau = s.bureau := rfl
@[simp] theorem bumpMap_free (s : Dev) : (bumpMap s).free = s.free := rfl
@[simp] theorem bumpMap_out (s : Dev) : (bumpMap s).out = s.out := rfl
@[simp] theorem bumpMap_due (s : Dev) : (bumpMap s).due = s.due := rfl

/-! updEp changes net. -/

@[simp] theorem updEp_regs (s : Dev) (k : Nat) (f : Endpoint → Endpoint) : (updEp s k f).regs = s.regs := rfl
@[simp] theorem updEp_sectors (s : Dev) (k : Nat) (f : Endpoint → Endpoint) : (updEp s k f).sectors = s.sectors := rfl
@[simp] theorem updEp_eccLog (s : Dev) (k : Nat) (f : Endpoint → Endpoint) : (updEp s k f).eccLog = s.eccLog := rfl
@[simp] theorem updEp_thr (s : Dev) (k : Nat) (f : Endpoint → Endpoint) : (updEp s k f).thr = s.thr := rfl
@[simp] theorem updEp_clk (s : Dev) (k : Nat) (f : Endpoint → Endpoint) : (updEp s k f).clk = s.clk := rfl
@[simp] theorem updEp_cfg (s : Dev) (k : Nat) (f : Endpoint → Endpoint) : (updEp s k f).cfg = s.cfg := rfl
@[simp] theorem updEp_mem (s : Dev) (k : Nat) (f : Endpoint → Endpoint) : (updEp s k f).mem = s.mem := rfl
@[simp] theorem updEp_enc (s : Dev) (k : Nat) (f : Endpoint → Endpoint) : (updEp s k f).enc = s.enc := rfl
@[simp] theorem updEp_cab (s : Dev) (k : Nat) (f : Endpoint → Endpoint) : (updEp s k f).cab = s.cab := rfl
@[simp] theorem updEp_links (s : Dev) (k : Nat) (f : Endpoint → Endpoint) : (updEp s k f).links = s.links := rfl
@[simp] theorem updEp_io (s : Dev) (k : Nat) (f : Endpoint → Endpoint) : (updEp s k f).io = s.io := rfl
@[simp] theorem updEp_tb (s : Dev) (k : Nat) (f : Endpoint → Endpoint) : (updEp s k f).tb = s.tb := rfl
@[simp] theorem updEp_groups (s : Dev) (k : Nat) (f : Endpoint → Endpoint) : (updEp s k f).groups = s.groups := rfl
@[simp] theorem updEp_flog (s : Dev) (k : Nat) (f : Endpoint → Endpoint) : (updEp s k f).flog = s.flog := rfl
@[simp] theorem updEp_units (s : Dev) (k : Nat) (f : Endpoint → Endpoint) : (updEp s k f).units = s.units := rfl
@[simp] theorem updEp_power (s : Dev) (k : Nat) (f : Endpoint → Endpoint) : (updEp s k f).power = s.power := rfl
@[simp] theorem updEp_bureau (s : Dev) (k : Nat) (f : Endpoint → Endpoint) : (updEp s k f).bureau = s.bureau := rfl
@[simp] theorem updEp_free (s : Dev) (k : Nat) (f : Endpoint → Endpoint) : (updEp s k f).free = s.free := rfl
@[simp] theorem updEp_out (s : Dev) (k : Nat) (f : Endpoint → Endpoint) : (updEp s k f).out = s.out := rfl
@[simp] theorem updEp_due (s : Dev) (k : Nat) (f : Endpoint → Endpoint) : (updEp s k f).due = s.due := rfl

/-! emit changes out. -/

@[simp] theorem emit_regs (s : Dev) (o : Output) : (emit s o).regs = s.regs := rfl
@[simp] theorem emit_sectors (s : Dev) (o : Output) : (emit s o).sectors = s.sectors := rfl
@[simp] theorem emit_eccLog (s : Dev) (o : Output) : (emit s o).eccLog = s.eccLog := rfl
@[simp] theorem emit_thr (s : Dev) (o : Output) : (emit s o).thr = s.thr := rfl
@[simp] theorem emit_clk (s : Dev) (o : Output) : (emit s o).clk = s.clk := rfl
@[simp] theorem emit_cfg (s : Dev) (o : Output) : (emit s o).cfg = s.cfg := rfl
@[simp] theorem emit_net (s : Dev) (o : Output) : (emit s o).net = s.net := rfl
@[simp] theorem emit_mem (s : Dev) (o : Output) : (emit s o).mem = s.mem := rfl
@[simp] theorem emit_enc (s : Dev) (o : Output) : (emit s o).enc = s.enc := rfl
@[simp] theorem emit_cab (s : Dev) (o : Output) : (emit s o).cab = s.cab := rfl
@[simp] theorem emit_links (s : Dev) (o : Output) : (emit s o).links = s.links := rfl
@[simp] theorem emit_io (s : Dev) (o : Output) : (emit s o).io = s.io := rfl
@[simp] theorem emit_tb (s : Dev) (o : Output) : (emit s o).tb = s.tb := rfl
@[simp] theorem emit_groups (s : Dev) (o : Output) : (emit s o).groups = s.groups := rfl
@[simp] theorem emit_flog (s : Dev) (o : Output) : (emit s o).flog = s.flog := rfl
@[simp] theorem emit_units (s : Dev) (o : Output) : (emit s o).units = s.units := rfl
@[simp] theorem emit_power (s : Dev) (o : Output) : (emit s o).power = s.power := rfl
@[simp] theorem emit_bureau (s : Dev) (o : Output) : (emit s o).bureau = s.bureau := rfl
@[simp] theorem emit_free (s : Dev) (o : Output) : (emit s o).free = s.free := rfl
@[simp] theorem emit_due (s : Dev) (o : Output) : (emit s o).due = s.due := rfl

/-! updPcie changes links. -/

@[simp] theorem updPcie_regs (s : Dev) (q : Nat) (f : Pcie → Pcie) : (updPcie s q f).regs = s.regs := rfl
@[simp] theorem updPcie_sectors (s : Dev) (q : Nat) (f : Pcie → Pcie) : (updPcie s q f).sectors = s.sectors := rfl
@[simp] theorem updPcie_eccLog (s : Dev) (q : Nat) (f : Pcie → Pcie) : (updPcie s q f).eccLog = s.eccLog := rfl
@[simp] theorem updPcie_thr (s : Dev) (q : Nat) (f : Pcie → Pcie) : (updPcie s q f).thr = s.thr := rfl
@[simp] theorem updPcie_clk (s : Dev) (q : Nat) (f : Pcie → Pcie) : (updPcie s q f).clk = s.clk := rfl
@[simp] theorem updPcie_cfg (s : Dev) (q : Nat) (f : Pcie → Pcie) : (updPcie s q f).cfg = s.cfg := rfl
@[simp] theorem updPcie_net (s : Dev) (q : Nat) (f : Pcie → Pcie) : (updPcie s q f).net = s.net := rfl
@[simp] theorem updPcie_mem (s : Dev) (q : Nat) (f : Pcie → Pcie) : (updPcie s q f).mem = s.mem := rfl
@[simp] theorem updPcie_enc (s : Dev) (q : Nat) (f : Pcie → Pcie) : (updPcie s q f).enc = s.enc := rfl
@[simp] theorem updPcie_cab (s : Dev) (q : Nat) (f : Pcie → Pcie) : (updPcie s q f).cab = s.cab := rfl
@[simp] theorem updPcie_io (s : Dev) (q : Nat) (f : Pcie → Pcie) : (updPcie s q f).io = s.io := rfl
@[simp] theorem updPcie_tb (s : Dev) (q : Nat) (f : Pcie → Pcie) : (updPcie s q f).tb = s.tb := rfl
@[simp] theorem updPcie_groups (s : Dev) (q : Nat) (f : Pcie → Pcie) : (updPcie s q f).groups = s.groups := rfl
@[simp] theorem updPcie_flog (s : Dev) (q : Nat) (f : Pcie → Pcie) : (updPcie s q f).flog = s.flog := rfl
@[simp] theorem updPcie_units (s : Dev) (q : Nat) (f : Pcie → Pcie) : (updPcie s q f).units = s.units := rfl
@[simp] theorem updPcie_power (s : Dev) (q : Nat) (f : Pcie → Pcie) : (updPcie s q f).power = s.power := rfl
@[simp] theorem updPcie_bureau (s : Dev) (q : Nat) (f : Pcie → Pcie) : (updPcie s q f).bureau = s.bureau := rfl
@[simp] theorem updPcie_free (s : Dev) (q : Nat) (f : Pcie → Pcie) : (updPcie s q f).free = s.free := rfl
@[simp] theorem updPcie_out (s : Dev) (q : Nat) (f : Pcie → Pcie) : (updPcie s q f).out = s.out := rfl
@[simp] theorem updPcie_due (s : Dev) (q : Nat) (f : Pcie → Pcie) : (updPcie s q f).due = s.due := rfl

/-! updDma changes links. -/

@[simp] theorem updDma_regs (s : Dev) (q e : Nat) (f : Dma → Dma) : (updDma s q e f).regs = s.regs := rfl
@[simp] theorem updDma_sectors (s : Dev) (q e : Nat) (f : Dma → Dma) : (updDma s q e f).sectors = s.sectors := rfl
@[simp] theorem updDma_eccLog (s : Dev) (q e : Nat) (f : Dma → Dma) : (updDma s q e f).eccLog = s.eccLog := rfl
@[simp] theorem updDma_thr (s : Dev) (q e : Nat) (f : Dma → Dma) : (updDma s q e f).thr = s.thr := rfl
@[simp] theorem updDma_clk (s : Dev) (q e : Nat) (f : Dma → Dma) : (updDma s q e f).clk = s.clk := rfl
@[simp] theorem updDma_cfg (s : Dev) (q e : Nat) (f : Dma → Dma) : (updDma s q e f).cfg = s.cfg := rfl
@[simp] theorem updDma_net (s : Dev) (q e : Nat) (f : Dma → Dma) : (updDma s q e f).net = s.net := rfl
@[simp] theorem updDma_mem (s : Dev) (q e : Nat) (f : Dma → Dma) : (updDma s q e f).mem = s.mem := rfl
@[simp] theorem updDma_enc (s : Dev) (q e : Nat) (f : Dma → Dma) : (updDma s q e f).enc = s.enc := rfl
@[simp] theorem updDma_cab (s : Dev) (q e : Nat) (f : Dma → Dma) : (updDma s q e f).cab = s.cab := rfl
@[simp] theorem updDma_io (s : Dev) (q e : Nat) (f : Dma → Dma) : (updDma s q e f).io = s.io := rfl
@[simp] theorem updDma_tb (s : Dev) (q e : Nat) (f : Dma → Dma) : (updDma s q e f).tb = s.tb := rfl
@[simp] theorem updDma_groups (s : Dev) (q e : Nat) (f : Dma → Dma) : (updDma s q e f).groups = s.groups := rfl
@[simp] theorem updDma_flog (s : Dev) (q e : Nat) (f : Dma → Dma) : (updDma s q e f).flog = s.flog := rfl
@[simp] theorem updDma_units (s : Dev) (q e : Nat) (f : Dma → Dma) : (updDma s q e f).units = s.units := rfl
@[simp] theorem updDma_power (s : Dev) (q e : Nat) (f : Dma → Dma) : (updDma s q e f).power = s.power := rfl
@[simp] theorem updDma_bureau (s : Dev) (q e : Nat) (f : Dma → Dma) : (updDma s q e f).bureau = s.bureau := rfl
@[simp] theorem updDma_free (s : Dev) (q e : Nat) (f : Dma → Dma) : (updDma s q e f).free = s.free := rfl
@[simp] theorem updDma_out (s : Dev) (q e : Nat) (f : Dma → Dma) : (updDma s q e f).out = s.out := rfl
@[simp] theorem updDma_due (s : Dev) (q e : Nat) (f : Dma → Dma) : (updDma s q e f).due = s.due := rfl

/-! updLane changes links. -/

@[simp] theorem updLane_regs (s : Dev) (n : Nat) (f : Lane → Lane) : (updLane s n f).regs = s.regs := rfl
@[simp] theorem updLane_sectors (s : Dev) (n : Nat) (f : Lane → Lane) : (updLane s n f).sectors = s.sectors := rfl
@[simp] theorem updLane_eccLog (s : Dev) (n : Nat) (f : Lane → Lane) : (updLane s n f).eccLog = s.eccLog := rfl
@[simp] theorem updLane_thr (s : Dev) (n : Nat) (f : Lane → Lane) : (updLane s n f).thr = s.thr := rfl
@[simp] theorem updLane_clk (s : Dev) (n : Nat) (f : Lane → Lane) : (updLane s n f).clk = s.clk := rfl
@[simp] theorem updLane_cfg (s : Dev) (n : Nat) (f : Lane → Lane) : (updLane s n f).cfg = s.cfg := rfl
@[simp] theorem updLane_net (s : Dev) (n : Nat) (f : Lane → Lane) : (updLane s n f).net = s.net := rfl
@[simp] theorem updLane_mem (s : Dev) (n : Nat) (f : Lane → Lane) : (updLane s n f).mem = s.mem := rfl
@[simp] theorem updLane_enc (s : Dev) (n : Nat) (f : Lane → Lane) : (updLane s n f).enc = s.enc := rfl
@[simp] theorem updLane_cab (s : Dev) (n : Nat) (f : Lane → Lane) : (updLane s n f).cab = s.cab := rfl
@[simp] theorem updLane_io (s : Dev) (n : Nat) (f : Lane → Lane) : (updLane s n f).io = s.io := rfl
@[simp] theorem updLane_tb (s : Dev) (n : Nat) (f : Lane → Lane) : (updLane s n f).tb = s.tb := rfl
@[simp] theorem updLane_groups (s : Dev) (n : Nat) (f : Lane → Lane) : (updLane s n f).groups = s.groups := rfl
@[simp] theorem updLane_flog (s : Dev) (n : Nat) (f : Lane → Lane) : (updLane s n f).flog = s.flog := rfl
@[simp] theorem updLane_units (s : Dev) (n : Nat) (f : Lane → Lane) : (updLane s n f).units = s.units := rfl
@[simp] theorem updLane_power (s : Dev) (n : Nat) (f : Lane → Lane) : (updLane s n f).power = s.power := rfl
@[simp] theorem updLane_bureau (s : Dev) (n : Nat) (f : Lane → Lane) : (updLane s n f).bureau = s.bureau := rfl
@[simp] theorem updLane_free (s : Dev) (n : Nat) (f : Lane → Lane) : (updLane s n f).free = s.free := rfl
@[simp] theorem updLane_out (s : Dev) (n : Nat) (f : Lane → Lane) : (updLane s n f).out = s.out := rfl
@[simp] theorem updLane_due (s : Dev) (n : Nat) (f : Lane → Lane) : (updLane s n f).due = s.due := rfl

/-! updBundle changes links. -/

@[simp] theorem updBundle_regs (s : Dev) (b : Nat) (f : Bundle → Bundle) : (updBundle s b f).regs = s.regs := rfl
@[simp] theorem updBundle_sectors (s : Dev) (b : Nat) (f : Bundle → Bundle) : (updBundle s b f).sectors = s.sectors := rfl
@[simp] theorem updBundle_eccLog (s : Dev) (b : Nat) (f : Bundle → Bundle) : (updBundle s b f).eccLog = s.eccLog := rfl
@[simp] theorem updBundle_thr (s : Dev) (b : Nat) (f : Bundle → Bundle) : (updBundle s b f).thr = s.thr := rfl
@[simp] theorem updBundle_clk (s : Dev) (b : Nat) (f : Bundle → Bundle) : (updBundle s b f).clk = s.clk := rfl
@[simp] theorem updBundle_cfg (s : Dev) (b : Nat) (f : Bundle → Bundle) : (updBundle s b f).cfg = s.cfg := rfl
@[simp] theorem updBundle_net (s : Dev) (b : Nat) (f : Bundle → Bundle) : (updBundle s b f).net = s.net := rfl
@[simp] theorem updBundle_mem (s : Dev) (b : Nat) (f : Bundle → Bundle) : (updBundle s b f).mem = s.mem := rfl
@[simp] theorem updBundle_enc (s : Dev) (b : Nat) (f : Bundle → Bundle) : (updBundle s b f).enc = s.enc := rfl
@[simp] theorem updBundle_cab (s : Dev) (b : Nat) (f : Bundle → Bundle) : (updBundle s b f).cab = s.cab := rfl
@[simp] theorem updBundle_io (s : Dev) (b : Nat) (f : Bundle → Bundle) : (updBundle s b f).io = s.io := rfl
@[simp] theorem updBundle_tb (s : Dev) (b : Nat) (f : Bundle → Bundle) : (updBundle s b f).tb = s.tb := rfl
@[simp] theorem updBundle_groups (s : Dev) (b : Nat) (f : Bundle → Bundle) : (updBundle s b f).groups = s.groups := rfl
@[simp] theorem updBundle_flog (s : Dev) (b : Nat) (f : Bundle → Bundle) : (updBundle s b f).flog = s.flog := rfl
@[simp] theorem updBundle_units (s : Dev) (b : Nat) (f : Bundle → Bundle) : (updBundle s b f).units = s.units := rfl
@[simp] theorem updBundle_power (s : Dev) (b : Nat) (f : Bundle → Bundle) : (updBundle s b f).power = s.power := rfl
@[simp] theorem updBundle_bureau (s : Dev) (b : Nat) (f : Bundle → Bundle) : (updBundle s b f).bureau = s.bureau := rfl
@[simp] theorem updBundle_free (s : Dev) (b : Nat) (f : Bundle → Bundle) : (updBundle s b f).free = s.free := rfl
@[simp] theorem updBundle_out (s : Dev) (b : Nat) (f : Bundle → Bundle) : (updBundle s b f).out = s.out := rfl
@[simp] theorem updBundle_due (s : Dev) (b : Nat) (f : Bundle → Bundle) : (updBundle s b f).due = s.due := rfl

/-! updStream changes links. -/

@[simp] theorem updStream_regs (s : Dev) (r : StreamRx) : (updStream s r).regs = s.regs := rfl
@[simp] theorem updStream_sectors (s : Dev) (r : StreamRx) : (updStream s r).sectors = s.sectors := rfl
@[simp] theorem updStream_eccLog (s : Dev) (r : StreamRx) : (updStream s r).eccLog = s.eccLog := rfl
@[simp] theorem updStream_thr (s : Dev) (r : StreamRx) : (updStream s r).thr = s.thr := rfl
@[simp] theorem updStream_clk (s : Dev) (r : StreamRx) : (updStream s r).clk = s.clk := rfl
@[simp] theorem updStream_cfg (s : Dev) (r : StreamRx) : (updStream s r).cfg = s.cfg := rfl
@[simp] theorem updStream_net (s : Dev) (r : StreamRx) : (updStream s r).net = s.net := rfl
@[simp] theorem updStream_mem (s : Dev) (r : StreamRx) : (updStream s r).mem = s.mem := rfl
@[simp] theorem updStream_enc (s : Dev) (r : StreamRx) : (updStream s r).enc = s.enc := rfl
@[simp] theorem updStream_cab (s : Dev) (r : StreamRx) : (updStream s r).cab = s.cab := rfl
@[simp] theorem updStream_io (s : Dev) (r : StreamRx) : (updStream s r).io = s.io := rfl
@[simp] theorem updStream_tb (s : Dev) (r : StreamRx) : (updStream s r).tb = s.tb := rfl
@[simp] theorem updStream_groups (s : Dev) (r : StreamRx) : (updStream s r).groups = s.groups := rfl
@[simp] theorem updStream_flog (s : Dev) (r : StreamRx) : (updStream s r).flog = s.flog := rfl
@[simp] theorem updStream_units (s : Dev) (r : StreamRx) : (updStream s r).units = s.units := rfl
@[simp] theorem updStream_power (s : Dev) (r : StreamRx) : (updStream s r).power = s.power := rfl
@[simp] theorem updStream_bureau (s : Dev) (r : StreamRx) : (updStream s r).bureau = s.bureau := rfl
@[simp] theorem updStream_free (s : Dev) (r : StreamRx) : (updStream s r).free = s.free := rfl
@[simp] theorem updStream_out (s : Dev) (r : StreamRx) : (updStream s r).out = s.out := rfl
@[simp] theorem updStream_due (s : Dev) (r : StreamRx) : (updStream s r).due = s.due := rfl

/-! setPll changes clk. -/

@[simp] theorem setPll_regs (s : Dev) (p : Nat) (st : PllState) : (setPll s p st).regs = s.regs := rfl
@[simp] theorem setPll_sectors (s : Dev) (p : Nat) (st : PllState) : (setPll s p st).sectors = s.sectors := rfl
@[simp] theorem setPll_eccLog (s : Dev) (p : Nat) (st : PllState) : (setPll s p st).eccLog = s.eccLog := rfl
@[simp] theorem setPll_thr (s : Dev) (p : Nat) (st : PllState) : (setPll s p st).thr = s.thr := rfl
@[simp] theorem setPll_cfg (s : Dev) (p : Nat) (st : PllState) : (setPll s p st).cfg = s.cfg := rfl
@[simp] theorem setPll_net (s : Dev) (p : Nat) (st : PllState) : (setPll s p st).net = s.net := rfl
@[simp] theorem setPll_mem (s : Dev) (p : Nat) (st : PllState) : (setPll s p st).mem = s.mem := rfl
@[simp] theorem setPll_enc (s : Dev) (p : Nat) (st : PllState) : (setPll s p st).enc = s.enc := rfl
@[simp] theorem setPll_cab (s : Dev) (p : Nat) (st : PllState) : (setPll s p st).cab = s.cab := rfl
@[simp] theorem setPll_links (s : Dev) (p : Nat) (st : PllState) : (setPll s p st).links = s.links := rfl
@[simp] theorem setPll_io (s : Dev) (p : Nat) (st : PllState) : (setPll s p st).io = s.io := rfl
@[simp] theorem setPll_tb (s : Dev) (p : Nat) (st : PllState) : (setPll s p st).tb = s.tb := rfl
@[simp] theorem setPll_groups (s : Dev) (p : Nat) (st : PllState) : (setPll s p st).groups = s.groups := rfl
@[simp] theorem setPll_flog (s : Dev) (p : Nat) (st : PllState) : (setPll s p st).flog = s.flog := rfl
@[simp] theorem setPll_units (s : Dev) (p : Nat) (st : PllState) : (setPll s p st).units = s.units := rfl
@[simp] theorem setPll_power (s : Dev) (p : Nat) (st : PllState) : (setPll s p st).power = s.power := rfl
@[simp] theorem setPll_bureau (s : Dev) (p : Nat) (st : PllState) : (setPll s p st).bureau = s.bureau := rfl
@[simp] theorem setPll_free (s : Dev) (p : Nat) (st : PllState) : (setPll s p st).free = s.free := rfl
@[simp] theorem setPll_out (s : Dev) (p : Nat) (st : PllState) : (setPll s p st).out = s.out := rfl
@[simp] theorem setPll_due (s : Dev) (p : Nat) (st : PllState) : (setPll s p st).due = s.due := rfl

/-! updClk changes clk. -/

@[simp] theorem updClk_regs (s : Dev) (f : Clocks → Clocks) : (updClk s f).regs = s.regs := rfl
@[simp] theorem updClk_sectors (s : Dev) (f : Clocks → Clocks) : (updClk s f).sectors = s.sectors := rfl
@[simp] theorem updClk_eccLog (s : Dev) (f : Clocks → Clocks) : (updClk s f).eccLog = s.eccLog := rfl
@[simp] theorem updClk_thr (s : Dev) (f : Clocks → Clocks) : (updClk s f).thr = s.thr := rfl
@[simp] theorem updClk_cfg (s : Dev) (f : Clocks → Clocks) : (updClk s f).cfg = s.cfg := rfl
@[simp] theorem updClk_net (s : Dev) (f : Clocks → Clocks) : (updClk s f).net = s.net := rfl
@[simp] theorem updClk_mem (s : Dev) (f : Clocks → Clocks) : (updClk s f).mem = s.mem := rfl
@[simp] theorem updClk_enc (s : Dev) (f : Clocks → Clocks) : (updClk s f).enc = s.enc := rfl
@[simp] theorem updClk_cab (s : Dev) (f : Clocks → Clocks) : (updClk s f).cab = s.cab := rfl
@[simp] theorem updClk_links (s : Dev) (f : Clocks → Clocks) : (updClk s f).links = s.links := rfl
@[simp] theorem updClk_io (s : Dev) (f : Clocks → Clocks) : (updClk s f).io = s.io := rfl
@[simp] theorem updClk_tb (s : Dev) (f : Clocks → Clocks) : (updClk s f).tb = s.tb := rfl
@[simp] theorem updClk_groups (s : Dev) (f : Clocks → Clocks) : (updClk s f).groups = s.groups := rfl
@[simp] theorem updClk_flog (s : Dev) (f : Clocks → Clocks) : (updClk s f).flog = s.flog := rfl
@[simp] theorem updClk_units (s : Dev) (f : Clocks → Clocks) : (updClk s f).units = s.units := rfl
@[simp] theorem updClk_power (s : Dev) (f : Clocks → Clocks) : (updClk s f).power = s.power := rfl
@[simp] theorem updClk_bureau (s : Dev) (f : Clocks → Clocks) : (updClk s f).bureau = s.bureau := rfl
@[simp] theorem updClk_free (s : Dev) (f : Clocks → Clocks) : (updClk s f).free = s.free := rfl
@[simp] theorem updClk_out (s : Dev) (f : Clocks → Clocks) : (updClk s f).out = s.out := rfl
@[simp] theorem updClk_due (s : Dev) (f : Clocks → Clocks) : (updClk s f).due = s.due := rfl

/-! updLine changes clk. -/

@[simp] theorem updLine_regs (s : Dev) (q n : Nat) (f : GlobalLine → GlobalLine) : (updLine s q n f).regs = s.regs := rfl
@[simp] theorem updLine_sectors (s : Dev) (q n : Nat) (f : GlobalLine → GlobalLine) : (updLine s q n f).sectors = s.sectors := rfl
@[simp] theorem updLine_eccLog (s : Dev) (q n : Nat) (f : GlobalLine → GlobalLine) : (updLine s q n f).eccLog = s.eccLog := rfl
@[simp] theorem updLine_thr (s : Dev) (q n : Nat) (f : GlobalLine → GlobalLine) : (updLine s q n f).thr = s.thr := rfl
@[simp] theorem updLine_cfg (s : Dev) (q n : Nat) (f : GlobalLine → GlobalLine) : (updLine s q n f).cfg = s.cfg := rfl
@[simp] theorem updLine_net (s : Dev) (q n : Nat) (f : GlobalLine → GlobalLine) : (updLine s q n f).net = s.net := rfl
@[simp] theorem updLine_mem (s : Dev) (q n : Nat) (f : GlobalLine → GlobalLine) : (updLine s q n f).mem = s.mem := rfl
@[simp] theorem updLine_enc (s : Dev) (q n : Nat) (f : GlobalLine → GlobalLine) : (updLine s q n f).enc = s.enc := rfl
@[simp] theorem updLine_cab (s : Dev) (q n : Nat) (f : GlobalLine → GlobalLine) : (updLine s q n f).cab = s.cab := rfl
@[simp] theorem updLine_links (s : Dev) (q n : Nat) (f : GlobalLine → GlobalLine) : (updLine s q n f).links = s.links := rfl
@[simp] theorem updLine_io (s : Dev) (q n : Nat) (f : GlobalLine → GlobalLine) : (updLine s q n f).io = s.io := rfl
@[simp] theorem updLine_tb (s : Dev) (q n : Nat) (f : GlobalLine → GlobalLine) : (updLine s q n f).tb = s.tb := rfl
@[simp] theorem updLine_groups (s : Dev) (q n : Nat) (f : GlobalLine → GlobalLine) : (updLine s q n f).groups = s.groups := rfl
@[simp] theorem updLine_flog (s : Dev) (q n : Nat) (f : GlobalLine → GlobalLine) : (updLine s q n f).flog = s.flog := rfl
@[simp] theorem updLine_units (s : Dev) (q n : Nat) (f : GlobalLine → GlobalLine) : (updLine s q n f).units = s.units := rfl
@[simp] theorem updLine_power (s : Dev) (q n : Nat) (f : GlobalLine → GlobalLine) : (updLine s q n f).power = s.power := rfl
@[simp] theorem updLine_bureau (s : Dev) (q n : Nat) (f : GlobalLine → GlobalLine) : (updLine s q n f).bureau = s.bureau := rfl
@[simp] theorem updLine_free (s : Dev) (q n : Nat) (f : GlobalLine → GlobalLine) : (updLine s q n f).free = s.free := rfl
@[simp] theorem updLine_out (s : Dev) (q n : Nat) (f : GlobalLine → GlobalLine) : (updLine s q n f).out = s.out := rfl
@[simp] theorem updLine_due (s : Dev) (q n : Nat) (f : GlobalLine → GlobalLine) : (updLine s q n f).due = s.due := rfl

/-! updGroup changes groups. -/

@[simp] theorem updGroup_regs (s : Dev) (g : Nat) (f : FaultGroup → FaultGroup) : (updGroup s g f).regs = s.regs := rfl
@[simp] theorem updGroup_sectors (s : Dev) (g : Nat) (f : FaultGroup → FaultGroup) : (updGroup s g f).sectors = s.sectors := rfl
@[simp] theorem updGroup_eccLog (s : Dev) (g : Nat) (f : FaultGroup → FaultGroup) : (updGroup s g f).eccLog = s.eccLog := rfl
@[simp] theorem updGroup_thr (s : Dev) (g : Nat) (f : FaultGroup → FaultGroup) : (updGroup s g f).thr = s.thr := rfl
@[simp] theorem updGroup_clk (s : Dev) (g : Nat) (f : FaultGroup → FaultGroup) : (updGroup s g f).clk = s.clk := rfl
@[simp] theorem updGroup_cfg (s : Dev) (g : Nat) (f : FaultGroup → FaultGroup) : (updGroup s g f).cfg = s.cfg := rfl
@[simp] theorem updGroup_net (s : Dev) (g : Nat) (f : FaultGroup → FaultGroup) : (updGroup s g f).net = s.net := rfl
@[simp] theorem updGroup_mem (s : Dev) (g : Nat) (f : FaultGroup → FaultGroup) : (updGroup s g f).mem = s.mem := rfl
@[simp] theorem updGroup_enc (s : Dev) (g : Nat) (f : FaultGroup → FaultGroup) : (updGroup s g f).enc = s.enc := rfl
@[simp] theorem updGroup_cab (s : Dev) (g : Nat) (f : FaultGroup → FaultGroup) : (updGroup s g f).cab = s.cab := rfl
@[simp] theorem updGroup_links (s : Dev) (g : Nat) (f : FaultGroup → FaultGroup) : (updGroup s g f).links = s.links := rfl
@[simp] theorem updGroup_io (s : Dev) (g : Nat) (f : FaultGroup → FaultGroup) : (updGroup s g f).io = s.io := rfl
@[simp] theorem updGroup_tb (s : Dev) (g : Nat) (f : FaultGroup → FaultGroup) : (updGroup s g f).tb = s.tb := rfl
@[simp] theorem updGroup_flog (s : Dev) (g : Nat) (f : FaultGroup → FaultGroup) : (updGroup s g f).flog = s.flog := rfl
@[simp] theorem updGroup_units (s : Dev) (g : Nat) (f : FaultGroup → FaultGroup) : (updGroup s g f).units = s.units := rfl
@[simp] theorem updGroup_power (s : Dev) (g : Nat) (f : FaultGroup → FaultGroup) : (updGroup s g f).power = s.power := rfl
@[simp] theorem updGroup_bureau (s : Dev) (g : Nat) (f : FaultGroup → FaultGroup) : (updGroup s g f).bureau = s.bureau := rfl
@[simp] theorem updGroup_free (s : Dev) (g : Nat) (f : FaultGroup → FaultGroup) : (updGroup s g f).free = s.free := rfl
@[simp] theorem updGroup_out (s : Dev) (g : Nat) (f : FaultGroup → FaultGroup) : (updGroup s g f).out = s.out := rfl
@[simp] theorem updGroup_due (s : Dev) (g : Nat) (f : FaultGroup → FaultGroup) : (updGroup s g f).due = s.due := rfl

/-! updCfg changes cfg. -/

@[simp] theorem updCfg_regs (s : Dev) (f : Config → Config) : (updCfg s f).regs = s.regs := rfl
@[simp] theorem updCfg_sectors (s : Dev) (f : Config → Config) : (updCfg s f).sectors = s.sectors := rfl
@[simp] theorem updCfg_eccLog (s : Dev) (f : Config → Config) : (updCfg s f).eccLog = s.eccLog := rfl
@[simp] theorem updCfg_thr (s : Dev) (f : Config → Config) : (updCfg s f).thr = s.thr := rfl
@[simp] theorem updCfg_clk (s : Dev) (f : Config → Config) : (updCfg s f).clk = s.clk := rfl
@[simp] theorem updCfg_net (s : Dev) (f : Config → Config) : (updCfg s f).net = s.net := rfl
@[simp] theorem updCfg_mem (s : Dev) (f : Config → Config) : (updCfg s f).mem = s.mem := rfl
@[simp] theorem updCfg_enc (s : Dev) (f : Config → Config) : (updCfg s f).enc = s.enc := rfl
@[simp] theorem updCfg_cab (s : Dev) (f : Config → Config) : (updCfg s f).cab = s.cab := rfl
@[simp] theorem updCfg_links (s : Dev) (f : Config → Config) : (updCfg s f).links = s.links := rfl
@[simp] theorem updCfg_io (s : Dev) (f : Config → Config) : (updCfg s f).io = s.io := rfl
@[simp] theorem updCfg_tb (s : Dev) (f : Config → Config) : (updCfg s f).tb = s.tb := rfl
@[simp] theorem updCfg_groups (s : Dev) (f : Config → Config) : (updCfg s f).groups = s.groups := rfl
@[simp] theorem updCfg_flog (s : Dev) (f : Config → Config) : (updCfg s f).flog = s.flog := rfl
@[simp] theorem updCfg_units (s : Dev) (f : Config → Config) : (updCfg s f).units = s.units := rfl
@[simp] theorem updCfg_power (s : Dev) (f : Config → Config) : (updCfg s f).power = s.power := rfl
@[simp] theorem updCfg_bureau (s : Dev) (f : Config → Config) : (updCfg s f).bureau = s.bureau := rfl
@[simp] theorem updCfg_free (s : Dev) (f : Config → Config) : (updCfg s f).free = s.free := rfl
@[simp] theorem updCfg_out (s : Dev) (f : Config → Config) : (updCfg s f).out = s.out := rfl
@[simp] theorem updCfg_due (s : Dev) (f : Config → Config) : (updCfg s f).due = s.due := rfl

/-! updScrub changes cfg. -/

@[simp] theorem updScrub_regs (s : Dev) (f : Scrub → Scrub) : (updScrub s f).regs = s.regs := rfl
@[simp] theorem updScrub_sectors (s : Dev) (f : Scrub → Scrub) : (updScrub s f).sectors = s.sectors := rfl
@[simp] theorem updScrub_eccLog (s : Dev) (f : Scrub → Scrub) : (updScrub s f).eccLog = s.eccLog := rfl
@[simp] theorem updScrub_thr (s : Dev) (f : Scrub → Scrub) : (updScrub s f).thr = s.thr := rfl
@[simp] theorem updScrub_clk (s : Dev) (f : Scrub → Scrub) : (updScrub s f).clk = s.clk := rfl
@[simp] theorem updScrub_net (s : Dev) (f : Scrub → Scrub) : (updScrub s f).net = s.net := rfl
@[simp] theorem updScrub_mem (s : Dev) (f : Scrub → Scrub) : (updScrub s f).mem = s.mem := rfl
@[simp] theorem updScrub_enc (s : Dev) (f : Scrub → Scrub) : (updScrub s f).enc = s.enc := rfl
@[simp] theorem updScrub_cab (s : Dev) (f : Scrub → Scrub) : (updScrub s f).cab = s.cab := rfl
@[simp] theorem updScrub_links (s : Dev) (f : Scrub → Scrub) : (updScrub s f).links = s.links := rfl
@[simp] theorem updScrub_io (s : Dev) (f : Scrub → Scrub) : (updScrub s f).io = s.io := rfl
@[simp] theorem updScrub_tb (s : Dev) (f : Scrub → Scrub) : (updScrub s f).tb = s.tb := rfl
@[simp] theorem updScrub_groups (s : Dev) (f : Scrub → Scrub) : (updScrub s f).groups = s.groups := rfl
@[simp] theorem updScrub_flog (s : Dev) (f : Scrub → Scrub) : (updScrub s f).flog = s.flog := rfl
@[simp] theorem updScrub_units (s : Dev) (f : Scrub → Scrub) : (updScrub s f).units = s.units := rfl
@[simp] theorem updScrub_power (s : Dev) (f : Scrub → Scrub) : (updScrub s f).power = s.power := rfl
@[simp] theorem updScrub_bureau (s : Dev) (f : Scrub → Scrub) : (updScrub s f).bureau = s.bureau := rfl
@[simp] theorem updScrub_free (s : Dev) (f : Scrub → Scrub) : (updScrub s f).free = s.free := rfl
@[simp] theorem updScrub_out (s : Dev) (f : Scrub → Scrub) : (updScrub s f).out = s.out := rfl
@[simp] theorem updScrub_due (s : Dev) (f : Scrub → Scrub) : (updScrub s f).due = s.due := rfl

/-! setLedger changes cfg. -/

@[simp] theorem setLedger_regs (s : Dev) (k : Nat) (w : PWord) : (setLedger s k w).regs = s.regs := rfl
@[simp] theorem setLedger_sectors (s : Dev) (k : Nat) (w : PWord) : (setLedger s k w).sectors = s.sectors := rfl
@[simp] theorem setLedger_eccLog (s : Dev) (k : Nat) (w : PWord) : (setLedger s k w).eccLog = s.eccLog := rfl
@[simp] theorem setLedger_thr (s : Dev) (k : Nat) (w : PWord) : (setLedger s k w).thr = s.thr := rfl
@[simp] theorem setLedger_clk (s : Dev) (k : Nat) (w : PWord) : (setLedger s k w).clk = s.clk := rfl
@[simp] theorem setLedger_net (s : Dev) (k : Nat) (w : PWord) : (setLedger s k w).net = s.net := rfl
@[simp] theorem setLedger_mem (s : Dev) (k : Nat) (w : PWord) : (setLedger s k w).mem = s.mem := rfl
@[simp] theorem setLedger_enc (s : Dev) (k : Nat) (w : PWord) : (setLedger s k w).enc = s.enc := rfl
@[simp] theorem setLedger_cab (s : Dev) (k : Nat) (w : PWord) : (setLedger s k w).cab = s.cab := rfl
@[simp] theorem setLedger_links (s : Dev) (k : Nat) (w : PWord) : (setLedger s k w).links = s.links := rfl
@[simp] theorem setLedger_io (s : Dev) (k : Nat) (w : PWord) : (setLedger s k w).io = s.io := rfl
@[simp] theorem setLedger_tb (s : Dev) (k : Nat) (w : PWord) : (setLedger s k w).tb = s.tb := rfl
@[simp] theorem setLedger_groups (s : Dev) (k : Nat) (w : PWord) : (setLedger s k w).groups = s.groups := rfl
@[simp] theorem setLedger_flog (s : Dev) (k : Nat) (w : PWord) : (setLedger s k w).flog = s.flog := rfl
@[simp] theorem setLedger_units (s : Dev) (k : Nat) (w : PWord) : (setLedger s k w).units = s.units := rfl
@[simp] theorem setLedger_power (s : Dev) (k : Nat) (w : PWord) : (setLedger s k w).power = s.power := rfl
@[simp] theorem setLedger_bureau (s : Dev) (k : Nat) (w : PWord) : (setLedger s k w).bureau = s.bureau := rfl
@[simp] theorem setLedger_free (s : Dev) (k : Nat) (w : PWord) : (setLedger s k w).free = s.free := rfl
@[simp] theorem setLedger_out (s : Dev) (k : Nat) (w : PWord) : (setLedger s k w).out = s.out := rfl
@[simp] theorem setLedger_due (s : Dev) (k : Nat) (w : PWord) : (setLedger s k w).due = s.due := rfl

/-! setCopy changes cfg. -/

@[simp] theorem setCopy_regs (s : Dev) (k : Nat) (v : StoreCopy) : (setCopy s k v).regs = s.regs := rfl
@[simp] theorem setCopy_sectors (s : Dev) (k : Nat) (v : StoreCopy) : (setCopy s k v).sectors = s.sectors := rfl
@[simp] theorem setCopy_eccLog (s : Dev) (k : Nat) (v : StoreCopy) : (setCopy s k v).eccLog = s.eccLog := rfl
@[simp] theorem setCopy_thr (s : Dev) (k : Nat) (v : StoreCopy) : (setCopy s k v).thr = s.thr := rfl
@[simp] theorem setCopy_clk (s : Dev) (k : Nat) (v : StoreCopy) : (setCopy s k v).clk = s.clk := rfl
@[simp] theorem setCopy_net (s : Dev) (k : Nat) (v : StoreCopy) : (setCopy s k v).net = s.net := rfl
@[simp] theorem setCopy_mem (s : Dev) (k : Nat) (v : StoreCopy) : (setCopy s k v).mem = s.mem := rfl
@[simp] theorem setCopy_enc (s : Dev) (k : Nat) (v : StoreCopy) : (setCopy s k v).enc = s.enc := rfl
@[simp] theorem setCopy_cab (s : Dev) (k : Nat) (v : StoreCopy) : (setCopy s k v).cab = s.cab := rfl
@[simp] theorem setCopy_links (s : Dev) (k : Nat) (v : StoreCopy) : (setCopy s k v).links = s.links := rfl
@[simp] theorem setCopy_io (s : Dev) (k : Nat) (v : StoreCopy) : (setCopy s k v).io = s.io := rfl
@[simp] theorem setCopy_tb (s : Dev) (k : Nat) (v : StoreCopy) : (setCopy s k v).tb = s.tb := rfl
@[simp] theorem setCopy_groups (s : Dev) (k : Nat) (v : StoreCopy) : (setCopy s k v).groups = s.groups := rfl
@[simp] theorem setCopy_flog (s : Dev) (k : Nat) (v : StoreCopy) : (setCopy s k v).flog = s.flog := rfl
@[simp] theorem setCopy_units (s : Dev) (k : Nat) (v : StoreCopy) : (setCopy s k v).units = s.units := rfl
@[simp] theorem setCopy_power (s : Dev) (k : Nat) (v : StoreCopy) : (setCopy s k v).power = s.power := rfl
@[simp] theorem setCopy_bureau (s : Dev) (k : Nat) (v : StoreCopy) : (setCopy s k v).bureau = s.bureau := rfl
@[simp] theorem setCopy_free (s : Dev) (k : Nat) (v : StoreCopy) : (setCopy s k v).free = s.free := rfl
@[simp] theorem setCopy_out (s : Dev) (k : Nat) (v : StoreCopy) : (setCopy s k v).out = s.out := rfl
@[simp] theorem setCopy_due (s : Dev) (k : Nat) (v : StoreCopy) : (setCopy s k v).due = s.due := rfl

/-! setLoad changes cfg. -/

@[simp] theorem setLoad_regs (l : Load) (s : Dev) : (setLoad l s).regs = s.regs := rfl
@[simp] theorem setLoad_sectors (l : Load) (s : Dev) : (setLoad l s).sectors = s.sectors := rfl
@[simp] theorem setLoad_eccLog (l : Load) (s : Dev) : (setLoad l s).eccLog = s.eccLog := rfl
@[simp] theorem setLoad_thr (l : Load) (s : Dev) : (setLoad l s).thr = s.thr := rfl
@[simp] theorem setLoad_clk (l : Load) (s : Dev) : (setLoad l s).clk = s.clk := rfl
@[simp] theorem setLoad_net (l : Load) (s : Dev) : (setLoad l s).net = s.net := rfl
@[simp] theorem setLoad_mem (l : Load) (s : Dev) : (setLoad l s).mem = s.mem := rfl
@[simp] theorem setLoad_enc (l : Load) (s : Dev) : (setLoad l s).enc = s.enc := rfl
@[simp] theorem setLoad_cab (l : Load) (s : Dev) : (setLoad l s).cab = s.cab := rfl
@[simp] theorem setLoad_links (l : Load) (s : Dev) : (setLoad l s).links = s.links := rfl
@[simp] theorem setLoad_io (l : Load) (s : Dev) : (setLoad l s).io = s.io := rfl
@[simp] theorem setLoad_tb (l : Load) (s : Dev) : (setLoad l s).tb = s.tb := rfl
@[simp] theorem setLoad_groups (l : Load) (s : Dev) : (setLoad l s).groups = s.groups := rfl
@[simp] theorem setLoad_flog (l : Load) (s : Dev) : (setLoad l s).flog = s.flog := rfl
@[simp] theorem setLoad_units (l : Load) (s : Dev) : (setLoad l s).units = s.units := rfl
@[simp] theorem setLoad_power (l : Load) (s : Dev) : (setLoad l s).power = s.power := rfl
@[simp] theorem setLoad_bureau (l : Load) (s : Dev) : (setLoad l s).bureau = s.bureau := rfl
@[simp] theorem setLoad_free (l : Load) (s : Dev) : (setLoad l s).free = s.free := rfl
@[simp] theorem setLoad_out (l : Load) (s : Dev) : (setLoad l s).out = s.out := rfl
@[simp] theorem setLoad_due (l : Load) (s : Dev) : (setLoad l s).due = s.due := rfl

/-! setStartup changes cfg. -/

@[simp] theorem setStartup_regs (u : StartupRun) (s : Dev) : (setStartup u s).regs = s.regs := rfl
@[simp] theorem setStartup_sectors (u : StartupRun) (s : Dev) : (setStartup u s).sectors = s.sectors := rfl
@[simp] theorem setStartup_eccLog (u : StartupRun) (s : Dev) : (setStartup u s).eccLog = s.eccLog := rfl
@[simp] theorem setStartup_thr (u : StartupRun) (s : Dev) : (setStartup u s).thr = s.thr := rfl
@[simp] theorem setStartup_clk (u : StartupRun) (s : Dev) : (setStartup u s).clk = s.clk := rfl
@[simp] theorem setStartup_net (u : StartupRun) (s : Dev) : (setStartup u s).net = s.net := rfl
@[simp] theorem setStartup_mem (u : StartupRun) (s : Dev) : (setStartup u s).mem = s.mem := rfl
@[simp] theorem setStartup_enc (u : StartupRun) (s : Dev) : (setStartup u s).enc = s.enc := rfl
@[simp] theorem setStartup_cab (u : StartupRun) (s : Dev) : (setStartup u s).cab = s.cab := rfl
@[simp] theorem setStartup_links (u : StartupRun) (s : Dev) : (setStartup u s).links = s.links := rfl
@[simp] theorem setStartup_io (u : StartupRun) (s : Dev) : (setStartup u s).io = s.io := rfl
@[simp] theorem setStartup_tb (u : StartupRun) (s : Dev) : (setStartup u s).tb = s.tb := rfl
@[simp] theorem setStartup_groups (u : StartupRun) (s : Dev) : (setStartup u s).groups = s.groups := rfl
@[simp] theorem setStartup_flog (u : StartupRun) (s : Dev) : (setStartup u s).flog = s.flog := rfl
@[simp] theorem setStartup_units (u : StartupRun) (s : Dev) : (setStartup u s).units = s.units := rfl
@[simp] theorem setStartup_power (u : StartupRun) (s : Dev) : (setStartup u s).power = s.power := rfl
@[simp] theorem setStartup_bureau (u : StartupRun) (s : Dev) : (setStartup u s).bureau = s.bureau := rfl
@[simp] theorem setStartup_free (u : StartupRun) (s : Dev) : (setStartup u s).free = s.free := rfl
@[simp] theorem setStartup_out (u : StartupRun) (s : Dev) : (setStartup u s).out = s.out := rfl
@[simp] theorem setStartup_due (u : StartupRun) (s : Dev) : (setStartup u s).due = s.due := rfl

/-! updBureau changes bureau. -/

@[simp] theorem updBureau_regs (s : Dev) (f : Bureau → Bureau) : (updBureau s f).regs = s.regs := rfl
@[simp] theorem updBureau_sectors (s : Dev) (f : Bureau → Bureau) : (updBureau s f).sectors = s.sectors := rfl
@[simp] theorem updBureau_eccLog (s : Dev) (f : Bureau → Bureau) : (updBureau s f).eccLog = s.eccLog := rfl
@[simp] theorem updBureau_thr (s : Dev) (f : Bureau → Bureau) : (updBureau s f).thr = s.thr := rfl
@[simp] theorem updBureau_clk (s : Dev) (f : Bureau → Bureau) : (updBureau s f).clk = s.clk := rfl
@[simp] theorem updBureau_cfg (s : Dev) (f : Bureau → Bureau) : (updBureau s f).cfg = s.cfg := rfl
@[simp] theorem updBureau_net (s : Dev) (f : Bureau → Bureau) : (updBureau s f).net = s.net := rfl
@[simp] theorem updBureau_mem (s : Dev) (f : Bureau → Bureau) : (updBureau s f).mem = s.mem := rfl
@[simp] theorem updBureau_enc (s : Dev) (f : Bureau → Bureau) : (updBureau s f).enc = s.enc := rfl
@[simp] theorem updBureau_cab (s : Dev) (f : Bureau → Bureau) : (updBureau s f).cab = s.cab := rfl
@[simp] theorem updBureau_links (s : Dev) (f : Bureau → Bureau) : (updBureau s f).links = s.links := rfl
@[simp] theorem updBureau_io (s : Dev) (f : Bureau → Bureau) : (updBureau s f).io = s.io := rfl
@[simp] theorem updBureau_tb (s : Dev) (f : Bureau → Bureau) : (updBureau s f).tb = s.tb := rfl
@[simp] theorem updBureau_groups (s : Dev) (f : Bureau → Bureau) : (updBureau s f).groups = s.groups := rfl
@[simp] theorem updBureau_flog (s : Dev) (f : Bureau → Bureau) : (updBureau s f).flog = s.flog := rfl
@[simp] theorem updBureau_units (s : Dev) (f : Bureau → Bureau) : (updBureau s f).units = s.units := rfl
@[simp] theorem updBureau_power (s : Dev) (f : Bureau → Bureau) : (updBureau s f).power = s.power := rfl
@[simp] theorem updBureau_free (s : Dev) (f : Bureau → Bureau) : (updBureau s f).free = s.free := rfl
@[simp] theorem updBureau_out (s : Dev) (f : Bureau → Bureau) : (updBureau s f).out = s.out := rfl
@[simp] theorem updBureau_due (s : Dev) (f : Bureau → Bureau) : (updBureau s f).due = s.due := rfl

/-! updKeys changes bureau. -/

@[simp] theorem updKeys_regs (s : Dev) (f : KeyStore → KeyStore) : (updKeys s f).regs = s.regs := rfl
@[simp] theorem updKeys_sectors (s : Dev) (f : KeyStore → KeyStore) : (updKeys s f).sectors = s.sectors := rfl
@[simp] theorem updKeys_eccLog (s : Dev) (f : KeyStore → KeyStore) : (updKeys s f).eccLog = s.eccLog := rfl
@[simp] theorem updKeys_thr (s : Dev) (f : KeyStore → KeyStore) : (updKeys s f).thr = s.thr := rfl
@[simp] theorem updKeys_clk (s : Dev) (f : KeyStore → KeyStore) : (updKeys s f).clk = s.clk := rfl
@[simp] theorem updKeys_cfg (s : Dev) (f : KeyStore → KeyStore) : (updKeys s f).cfg = s.cfg := rfl
@[simp] theorem updKeys_net (s : Dev) (f : KeyStore → KeyStore) : (updKeys s f).net = s.net := rfl
@[simp] theorem updKeys_mem (s : Dev) (f : KeyStore → KeyStore) : (updKeys s f).mem = s.mem := rfl
@[simp] theorem updKeys_enc (s : Dev) (f : KeyStore → KeyStore) : (updKeys s f).enc = s.enc := rfl
@[simp] theorem updKeys_cab (s : Dev) (f : KeyStore → KeyStore) : (updKeys s f).cab = s.cab := rfl
@[simp] theorem updKeys_links (s : Dev) (f : KeyStore → KeyStore) : (updKeys s f).links = s.links := rfl
@[simp] theorem updKeys_io (s : Dev) (f : KeyStore → KeyStore) : (updKeys s f).io = s.io := rfl
@[simp] theorem updKeys_tb (s : Dev) (f : KeyStore → KeyStore) : (updKeys s f).tb = s.tb := rfl
@[simp] theorem updKeys_groups (s : Dev) (f : KeyStore → KeyStore) : (updKeys s f).groups = s.groups := rfl
@[simp] theorem updKeys_flog (s : Dev) (f : KeyStore → KeyStore) : (updKeys s f).flog = s.flog := rfl
@[simp] theorem updKeys_units (s : Dev) (f : KeyStore → KeyStore) : (updKeys s f).units = s.units := rfl
@[simp] theorem updKeys_power (s : Dev) (f : KeyStore → KeyStore) : (updKeys s f).power = s.power := rfl
@[simp] theorem updKeys_free (s : Dev) (f : KeyStore → KeyStore) : (updKeys s f).free = s.free := rfl
@[simp] theorem updKeys_out (s : Dev) (f : KeyStore → KeyStore) : (updKeys s f).out = s.out := rfl
@[simp] theorem updKeys_due (s : Dev) (f : KeyStore → KeyStore) : (updKeys s f).due = s.due := rfl

/-! putSign changes bureau. -/

@[simp] theorem putSign_regs (s : Dev) (k : Nat) (e : SignEntry) : (putSign s k e).regs = s.regs := rfl
@[simp] theorem putSign_sectors (s : Dev) (k : Nat) (e : SignEntry) : (putSign s k e).sectors = s.sectors := rfl
@[simp] theorem putSign_eccLog (s : Dev) (k : Nat) (e : SignEntry) : (putSign s k e).eccLog = s.eccLog := rfl
@[simp] theorem putSign_thr (s : Dev) (k : Nat) (e : SignEntry) : (putSign s k e).thr = s.thr := rfl
@[simp] theorem putSign_clk (s : Dev) (k : Nat) (e : SignEntry) : (putSign s k e).clk = s.clk := rfl
@[simp] theorem putSign_cfg (s : Dev) (k : Nat) (e : SignEntry) : (putSign s k e).cfg = s.cfg := rfl
@[simp] theorem putSign_net (s : Dev) (k : Nat) (e : SignEntry) : (putSign s k e).net = s.net := rfl
@[simp] theorem putSign_mem (s : Dev) (k : Nat) (e : SignEntry) : (putSign s k e).mem = s.mem := rfl
@[simp] theorem putSign_enc (s : Dev) (k : Nat) (e : SignEntry) : (putSign s k e).enc = s.enc := rfl
@[simp] theorem putSign_cab (s : Dev) (k : Nat) (e : SignEntry) : (putSign s k e).cab = s.cab := rfl
@[simp] theorem putSign_links (s : Dev) (k : Nat) (e : SignEntry) : (putSign s k e).links = s.links := rfl
@[simp] theorem putSign_io (s : Dev) (k : Nat) (e : SignEntry) : (putSign s k e).io = s.io := rfl
@[simp] theorem putSign_tb (s : Dev) (k : Nat) (e : SignEntry) : (putSign s k e).tb = s.tb := rfl
@[simp] theorem putSign_groups (s : Dev) (k : Nat) (e : SignEntry) : (putSign s k e).groups = s.groups := rfl
@[simp] theorem putSign_flog (s : Dev) (k : Nat) (e : SignEntry) : (putSign s k e).flog = s.flog := rfl
@[simp] theorem putSign_units (s : Dev) (k : Nat) (e : SignEntry) : (putSign s k e).units = s.units := rfl
@[simp] theorem putSign_power (s : Dev) (k : Nat) (e : SignEntry) : (putSign s k e).power = s.power := rfl
@[simp] theorem putSign_free (s : Dev) (k : Nat) (e : SignEntry) : (putSign s k e).free = s.free := rfl
@[simp] theorem putSign_out (s : Dev) (k : Nat) (e : SignEntry) : (putSign s k e).out = s.out := rfl
@[simp] theorem putSign_due (s : Dev) (k : Nat) (e : SignEntry) : (putSign s k e).due = s.due := rfl

/-! updTb changes tb. -/

@[simp] theorem updTb_regs (s : Dev) (f : Timebase → Timebase) : (updTb s f).regs = s.regs := rfl
@[simp] theorem updTb_sectors (s : Dev) (f : Timebase → Timebase) : (updTb s f).sectors = s.sectors := rfl
@[simp] theorem updTb_eccLog (s : Dev) (f : Timebase → Timebase) : (updTb s f).eccLog = s.eccLog := rfl
@[simp] theorem updTb_thr (s : Dev) (f : Timebase → Timebase) : (updTb s f).thr = s.thr := rfl
@[simp] theorem updTb_clk (s : Dev) (f : Timebase → Timebase) : (updTb s f).clk = s.clk := rfl
@[simp] theorem updTb_cfg (s : Dev) (f : Timebase → Timebase) : (updTb s f).cfg = s.cfg := rfl
@[simp] theorem updTb_net (s : Dev) (f : Timebase → Timebase) : (updTb s f).net = s.net := rfl
@[simp] theorem updTb_mem (s : Dev) (f : Timebase → Timebase) : (updTb s f).mem = s.mem := rfl
@[simp] theorem updTb_enc (s : Dev) (f : Timebase → Timebase) : (updTb s f).enc = s.enc := rfl
@[simp] theorem updTb_cab (s : Dev) (f : Timebase → Timebase) : (updTb s f).cab = s.cab := rfl
@[simp] theorem updTb_links (s : Dev) (f : Timebase → Timebase) : (updTb s f).links = s.links := rfl
@[simp] theorem updTb_io (s : Dev) (f : Timebase → Timebase) : (updTb s f).io = s.io := rfl
@[simp] theorem updTb_groups (s : Dev) (f : Timebase → Timebase) : (updTb s f).groups = s.groups := rfl
@[simp] theorem updTb_flog (s : Dev) (f : Timebase → Timebase) : (updTb s f).flog = s.flog := rfl
@[simp] theorem updTb_units (s : Dev) (f : Timebase → Timebase) : (updTb s f).units = s.units := rfl
@[simp] theorem updTb_power (s : Dev) (f : Timebase → Timebase) : (updTb s f).power = s.power := rfl
@[simp] theorem updTb_bureau (s : Dev) (f : Timebase → Timebase) : (updTb s f).bureau = s.bureau := rfl
@[simp] theorem updTb_free (s : Dev) (f : Timebase → Timebase) : (updTb s f).free = s.free := rfl
@[simp] theorem updTb_out (s : Dev) (f : Timebase → Timebase) : (updTb s f).out = s.out := rfl
@[simp] theorem updTb_due (s : Dev) (f : Timebase → Timebase) : (updTb s f).due = s.due := rfl

/-! setLate changes tb. -/

@[simp] theorem setLate_regs (s : Dev) (n v : Nat) : (setLate s n v).regs = s.regs := rfl
@[simp] theorem setLate_sectors (s : Dev) (n v : Nat) : (setLate s n v).sectors = s.sectors := rfl
@[simp] theorem setLate_eccLog (s : Dev) (n v : Nat) : (setLate s n v).eccLog = s.eccLog := rfl
@[simp] theorem setLate_thr (s : Dev) (n v : Nat) : (setLate s n v).thr = s.thr := rfl
@[simp] theorem setLate_clk (s : Dev) (n v : Nat) : (setLate s n v).clk = s.clk := rfl
@[simp] theorem setLate_cfg (s : Dev) (n v : Nat) : (setLate s n v).cfg = s.cfg := rfl
@[simp] theorem setLate_net (s : Dev) (n v : Nat) : (setLate s n v).net = s.net := rfl
@[simp] theorem setLate_mem (s : Dev) (n v : Nat) : (setLate s n v).mem = s.mem := rfl
@[simp] theorem setLate_enc (s : Dev) (n v : Nat) : (setLate s n v).enc = s.enc := rfl
@[simp] theorem setLate_cab (s : Dev) (n v : Nat) : (setLate s n v).cab = s.cab := rfl
@[simp] theorem setLate_links (s : Dev) (n v : Nat) : (setLate s n v).links = s.links := rfl
@[simp] theorem setLate_io (s : Dev) (n v : Nat) : (setLate s n v).io = s.io := rfl
@[simp] theorem setLate_groups (s : Dev) (n v : Nat) : (setLate s n v).groups = s.groups := rfl
@[simp] theorem setLate_flog (s : Dev) (n v : Nat) : (setLate s n v).flog = s.flog := rfl
@[simp] theorem setLate_units (s : Dev) (n v : Nat) : (setLate s n v).units = s.units := rfl
@[simp] theorem setLate_power (s : Dev) (n v : Nat) : (setLate s n v).power = s.power := rfl
@[simp] theorem setLate_bureau (s : Dev) (n v : Nat) : (setLate s n v).bureau = s.bureau := rfl
@[simp] theorem setLate_free (s : Dev) (n v : Nat) : (setLate s n v).free = s.free := rfl
@[simp] theorem setLate_out (s : Dev) (n v : Nat) : (setLate s n v).out = s.out := rfl
@[simp] theorem setLate_due (s : Dev) (n v : Nat) : (setLate s n v).due = s.due := rfl

/-! setLevel changes tb. -/

@[simp] theorem setLevel_regs (s : Dev) (n : Nat) (v : Bool) : (setLevel s n v).regs = s.regs := rfl
@[simp] theorem setLevel_sectors (s : Dev) (n : Nat) (v : Bool) : (setLevel s n v).sectors = s.sectors := rfl
@[simp] theorem setLevel_eccLog (s : Dev) (n : Nat) (v : Bool) : (setLevel s n v).eccLog = s.eccLog := rfl
@[simp] theorem setLevel_thr (s : Dev) (n : Nat) (v : Bool) : (setLevel s n v).thr = s.thr := rfl
@[simp] theorem setLevel_clk (s : Dev) (n : Nat) (v : Bool) : (setLevel s n v).clk = s.clk := rfl
@[simp] theorem setLevel_cfg (s : Dev) (n : Nat) (v : Bool) : (setLevel s n v).cfg = s.cfg := rfl
@[simp] theorem setLevel_net (s : Dev) (n : Nat) (v : Bool) : (setLevel s n v).net = s.net := rfl
@[simp] theorem setLevel_mem (s : Dev) (n : Nat) (v : Bool) : (setLevel s n v).mem = s.mem := rfl
@[simp] theorem setLevel_enc (s : Dev) (n : Nat) (v : Bool) : (setLevel s n v).enc = s.enc := rfl
@[simp] theorem setLevel_cab (s : Dev) (n : Nat) (v : Bool) : (setLevel s n v).cab = s.cab := rfl
@[simp] theorem setLevel_links (s : Dev) (n : Nat) (v : Bool) : (setLevel s n v).links = s.links := rfl
@[simp] theorem setLevel_io (s : Dev) (n : Nat) (v : Bool) : (setLevel s n v).io = s.io := rfl
@[simp] theorem setLevel_groups (s : Dev) (n : Nat) (v : Bool) : (setLevel s n v).groups = s.groups := rfl
@[simp] theorem setLevel_flog (s : Dev) (n : Nat) (v : Bool) : (setLevel s n v).flog = s.flog := rfl
@[simp] theorem setLevel_units (s : Dev) (n : Nat) (v : Bool) : (setLevel s n v).units = s.units := rfl
@[simp] theorem setLevel_power (s : Dev) (n : Nat) (v : Bool) : (setLevel s n v).power = s.power := rfl
@[simp] theorem setLevel_bureau (s : Dev) (n : Nat) (v : Bool) : (setLevel s n v).bureau = s.bureau := rfl
@[simp] theorem setLevel_free (s : Dev) (n : Nat) (v : Bool) : (setLevel s n v).free = s.free := rfl
@[simp] theorem setLevel_out (s : Dev) (n : Nat) (v : Bool) : (setLevel s n v).out = s.out := rfl
@[simp] theorem setLevel_due (s : Dev) (n : Nat) (v : Bool) : (setLevel s n v).due = s.due := rfl

/-! setPulse changes tb. -/

@[simp] theorem setPulse_regs (s : Dev) (n : Nat) (v : Option Bool) : (setPulse s n v).regs = s.regs := rfl
@[simp] theorem setPulse_sectors (s : Dev) (n : Nat) (v : Option Bool) : (setPulse s n v).sectors = s.sectors := rfl
@[simp] theorem setPulse_eccLog (s : Dev) (n : Nat) (v : Option Bool) : (setPulse s n v).eccLog = s.eccLog := rfl
@[simp] theorem setPulse_thr (s : Dev) (n : Nat) (v : Option Bool) : (setPulse s n v).thr = s.thr := rfl
@[simp] theorem setPulse_clk (s : Dev) (n : Nat) (v : Option Bool) : (setPulse s n v).clk = s.clk := rfl
@[simp] theorem setPulse_cfg (s : Dev) (n : Nat) (v : Option Bool) : (setPulse s n v).cfg = s.cfg := rfl
@[simp] theorem setPulse_net (s : Dev) (n : Nat) (v : Option Bool) : (setPulse s n v).net = s.net := rfl
@[simp] theorem setPulse_mem (s : Dev) (n : Nat) (v : Option Bool) : (setPulse s n v).mem = s.mem := rfl
@[simp] theorem setPulse_enc (s : Dev) (n : Nat) (v : Option Bool) : (setPulse s n v).enc = s.enc := rfl
@[simp] theorem setPulse_cab (s : Dev) (n : Nat) (v : Option Bool) : (setPulse s n v).cab = s.cab := rfl
@[simp] theorem setPulse_links (s : Dev) (n : Nat) (v : Option Bool) : (setPulse s n v).links = s.links := rfl
@[simp] theorem setPulse_io (s : Dev) (n : Nat) (v : Option Bool) : (setPulse s n v).io = s.io := rfl
@[simp] theorem setPulse_groups (s : Dev) (n : Nat) (v : Option Bool) : (setPulse s n v).groups = s.groups := rfl
@[simp] theorem setPulse_flog (s : Dev) (n : Nat) (v : Option Bool) : (setPulse s n v).flog = s.flog := rfl
@[simp] theorem setPulse_units (s : Dev) (n : Nat) (v : Option Bool) : (setPulse s n v).units = s.units := rfl
@[simp] theorem setPulse_power (s : Dev) (n : Nat) (v : Option Bool) : (setPulse s n v).power = s.power := rfl
@[simp] theorem setPulse_bureau (s : Dev) (n : Nat) (v : Option Bool) : (setPulse s n v).bureau = s.bureau := rfl
@[simp] theorem setPulse_free (s : Dev) (n : Nat) (v : Option Bool) : (setPulse s n v).free = s.free := rfl
@[simp] theorem setPulse_out (s : Dev) (n : Nat) (v : Option Bool) : (setPulse s n v).out = s.out := rfl
@[simp] theorem setPulse_due (s : Dev) (n : Nat) (v : Option Bool) : (setPulse s n v).due = s.due := rfl

/-! putTrigTime changes regs. -/

@[simp] theorem putTrigTime_sectors (s : Dev) (n t : Nat) : (putTrigTime s n t).sectors = s.sectors := rfl
@[simp] theorem putTrigTime_eccLog (s : Dev) (n t : Nat) : (putTrigTime s n t).eccLog = s.eccLog := rfl
@[simp] theorem putTrigTime_thr (s : Dev) (n t : Nat) : (putTrigTime s n t).thr = s.thr := rfl
@[simp] theorem putTrigTime_clk (s : Dev) (n t : Nat) : (putTrigTime s n t).clk = s.clk := rfl
@[simp] theorem putTrigTime_cfg (s : Dev) (n t : Nat) : (putTrigTime s n t).cfg = s.cfg := rfl
@[simp] theorem putTrigTime_net (s : Dev) (n t : Nat) : (putTrigTime s n t).net = s.net := rfl
@[simp] theorem putTrigTime_mem (s : Dev) (n t : Nat) : (putTrigTime s n t).mem = s.mem := rfl
@[simp] theorem putTrigTime_enc (s : Dev) (n t : Nat) : (putTrigTime s n t).enc = s.enc := rfl
@[simp] theorem putTrigTime_cab (s : Dev) (n t : Nat) : (putTrigTime s n t).cab = s.cab := rfl
@[simp] theorem putTrigTime_links (s : Dev) (n t : Nat) : (putTrigTime s n t).links = s.links := rfl
@[simp] theorem putTrigTime_io (s : Dev) (n t : Nat) : (putTrigTime s n t).io = s.io := rfl
@[simp] theorem putTrigTime_tb (s : Dev) (n t : Nat) : (putTrigTime s n t).tb = s.tb := rfl
@[simp] theorem putTrigTime_groups (s : Dev) (n t : Nat) : (putTrigTime s n t).groups = s.groups := rfl
@[simp] theorem putTrigTime_flog (s : Dev) (n t : Nat) : (putTrigTime s n t).flog = s.flog := rfl
@[simp] theorem putTrigTime_units (s : Dev) (n t : Nat) : (putTrigTime s n t).units = s.units := rfl
@[simp] theorem putTrigTime_power (s : Dev) (n t : Nat) : (putTrigTime s n t).power = s.power := rfl
@[simp] theorem putTrigTime_bureau (s : Dev) (n t : Nat) : (putTrigTime s n t).bureau = s.bureau := rfl
@[simp] theorem putTrigTime_free (s : Dev) (n t : Nat) : (putTrigTime s n t).free = s.free := rfl
@[simp] theorem putTrigTime_out (s : Dev) (n t : Nat) : (putTrigTime s n t).out = s.out := rfl
@[simp] theorem putTrigTime_due (s : Dev) (n t : Nat) : (putTrigTime s n t).due = s.due := rfl

/-! updCab changes cab. -/

@[simp] theorem updCab_regs (s : Dev) (f : Cabinet → Cabinet) : (updCab s f).regs = s.regs := rfl
@[simp] theorem updCab_sectors (s : Dev) (f : Cabinet → Cabinet) : (updCab s f).sectors = s.sectors := rfl
@[simp] theorem updCab_eccLog (s : Dev) (f : Cabinet → Cabinet) : (updCab s f).eccLog = s.eccLog := rfl
@[simp] theorem updCab_thr (s : Dev) (f : Cabinet → Cabinet) : (updCab s f).thr = s.thr := rfl
@[simp] theorem updCab_clk (s : Dev) (f : Cabinet → Cabinet) : (updCab s f).clk = s.clk := rfl
@[simp] theorem updCab_cfg (s : Dev) (f : Cabinet → Cabinet) : (updCab s f).cfg = s.cfg := rfl
@[simp] theorem updCab_net (s : Dev) (f : Cabinet → Cabinet) : (updCab s f).net = s.net := rfl
@[simp] theorem updCab_mem (s : Dev) (f : Cabinet → Cabinet) : (updCab s f).mem = s.mem := rfl
@[simp] theorem updCab_enc (s : Dev) (f : Cabinet → Cabinet) : (updCab s f).enc = s.enc := rfl
@[simp] theorem updCab_links (s : Dev) (f : Cabinet → Cabinet) : (updCab s f).links = s.links := rfl
@[simp] theorem updCab_io (s : Dev) (f : Cabinet → Cabinet) : (updCab s f).io = s.io := rfl
@[simp] theorem updCab_tb (s : Dev) (f : Cabinet → Cabinet) : (updCab s f).tb = s.tb := rfl
@[simp] theorem updCab_groups (s : Dev) (f : Cabinet → Cabinet) : (updCab s f).groups = s.groups := rfl
@[simp] theorem updCab_flog (s : Dev) (f : Cabinet → Cabinet) : (updCab s f).flog = s.flog := rfl
@[simp] theorem updCab_units (s : Dev) (f : Cabinet → Cabinet) : (updCab s f).units = s.units := rfl
@[simp] theorem updCab_power (s : Dev) (f : Cabinet → Cabinet) : (updCab s f).power = s.power := rfl
@[simp] theorem updCab_bureau (s : Dev) (f : Cabinet → Cabinet) : (updCab s f).bureau = s.bureau := rfl
@[simp] theorem updCab_free (s : Dev) (f : Cabinet → Cabinet) : (updCab s f).free = s.free := rfl
@[simp] theorem updCab_out (s : Dev) (f : Cabinet → Cabinet) : (updCab s f).out = s.out := rfl
@[simp] theorem updCab_due (s : Dev) (f : Cabinet → Cabinet) : (updCab s f).due = s.due := rfl

/-! updTile changes cab. -/

@[simp] theorem updTile_regs (s : Dev) (t : Nat) (f : Tile → Tile) : (updTile s t f).regs = s.regs := rfl
@[simp] theorem updTile_sectors (s : Dev) (t : Nat) (f : Tile → Tile) : (updTile s t f).sectors = s.sectors := rfl
@[simp] theorem updTile_eccLog (s : Dev) (t : Nat) (f : Tile → Tile) : (updTile s t f).eccLog = s.eccLog := rfl
@[simp] theorem updTile_thr (s : Dev) (t : Nat) (f : Tile → Tile) : (updTile s t f).thr = s.thr := rfl
@[simp] theorem updTile_clk (s : Dev) (t : Nat) (f : Tile → Tile) : (updTile s t f).clk = s.clk := rfl
@[simp] theorem updTile_cfg (s : Dev) (t : Nat) (f : Tile → Tile) : (updTile s t f).cfg = s.cfg := rfl
@[simp] theorem updTile_net (s : Dev) (t : Nat) (f : Tile → Tile) : (updTile s t f).net = s.net := rfl
@[simp] theorem updTile_mem (s : Dev) (t : Nat) (f : Tile → Tile) : (updTile s t f).mem = s.mem := rfl
@[simp] theorem updTile_enc (s : Dev) (t : Nat) (f : Tile → Tile) : (updTile s t f).enc = s.enc := rfl
@[simp] theorem updTile_links (s : Dev) (t : Nat) (f : Tile → Tile) : (updTile s t f).links = s.links := rfl
@[simp] theorem updTile_io (s : Dev) (t : Nat) (f : Tile → Tile) : (updTile s t f).io = s.io := rfl
@[simp] theorem updTile_tb (s : Dev) (t : Nat) (f : Tile → Tile) : (updTile s t f).tb = s.tb := rfl
@[simp] theorem updTile_groups (s : Dev) (t : Nat) (f : Tile → Tile) : (updTile s t f).groups = s.groups := rfl
@[simp] theorem updTile_flog (s : Dev) (t : Nat) (f : Tile → Tile) : (updTile s t f).flog = s.flog := rfl
@[simp] theorem updTile_units (s : Dev) (t : Nat) (f : Tile → Tile) : (updTile s t f).units = s.units := rfl
@[simp] theorem updTile_power (s : Dev) (t : Nat) (f : Tile → Tile) : (updTile s t f).power = s.power := rfl
@[simp] theorem updTile_bureau (s : Dev) (t : Nat) (f : Tile → Tile) : (updTile s t f).bureau = s.bureau := rfl
@[simp] theorem updTile_free (s : Dev) (t : Nat) (f : Tile → Tile) : (updTile s t f).free = s.free := rfl
@[simp] theorem updTile_out (s : Dev) (t : Nat) (f : Tile → Tile) : (updTile s t f).out = s.out := rfl
@[simp] theorem updTile_due (s : Dev) (t : Nat) (f : Tile → Tile) : (updTile s t f).due = s.due := rfl

/-! updCell changes io. -/

@[simp] theorem updCell_regs (s : Dev) (c : Nat) (f : IoCell → IoCell) : (updCell s c f).regs = s.regs := rfl
@[simp] theorem updCell_sectors (s : Dev) (c : Nat) (f : IoCell → IoCell) : (updCell s c f).sectors = s.sectors := rfl
@[simp] theorem updCell_eccLog (s : Dev) (c : Nat) (f : IoCell → IoCell) : (updCell s c f).eccLog = s.eccLog := rfl
@[simp] theorem updCell_thr (s : Dev) (c : Nat) (f : IoCell → IoCell) : (updCell s c f).thr = s.thr := rfl
@[simp] theorem updCell_clk (s : Dev) (c : Nat) (f : IoCell → IoCell) : (updCell s c f).clk = s.clk := rfl
@[simp] theorem updCell_cfg (s : Dev) (c : Nat) (f : IoCell → IoCell) : (updCell s c f).cfg = s.cfg := rfl
@[simp] theorem updCell_net (s : Dev) (c : Nat) (f : IoCell → IoCell) : (updCell s c f).net = s.net := rfl
@[simp] theorem updCell_mem (s : Dev) (c : Nat) (f : IoCell → IoCell) : (updCell s c f).mem = s.mem := rfl
@[simp] theorem updCell_enc (s : Dev) (c : Nat) (f : IoCell → IoCell) : (updCell s c f).enc = s.enc := rfl
@[simp] theorem updCell_cab (s : Dev) (c : Nat) (f : IoCell → IoCell) : (updCell s c f).cab = s.cab := rfl
@[simp] theorem updCell_links (s : Dev) (c : Nat) (f : IoCell → IoCell) : (updCell s c f).links = s.links := rfl
@[simp] theorem updCell_tb (s : Dev) (c : Nat) (f : IoCell → IoCell) : (updCell s c f).tb = s.tb := rfl
@[simp] theorem updCell_groups (s : Dev) (c : Nat) (f : IoCell → IoCell) : (updCell s c f).groups = s.groups := rfl
@[simp] theorem updCell_flog (s : Dev) (c : Nat) (f : IoCell → IoCell) : (updCell s c f).flog = s.flog := rfl
@[simp] theorem updCell_units (s : Dev) (c : Nat) (f : IoCell → IoCell) : (updCell s c f).units = s.units := rfl
@[simp] theorem updCell_power (s : Dev) (c : Nat) (f : IoCell → IoCell) : (updCell s c f).power = s.power := rfl
@[simp] theorem updCell_bureau (s : Dev) (c : Nat) (f : IoCell → IoCell) : (updCell s c f).bureau = s.bureau := rfl
@[simp] theorem updCell_free (s : Dev) (c : Nat) (f : IoCell → IoCell) : (updCell s c f).free = s.free := rfl
@[simp] theorem updCell_out (s : Dev) (c : Nat) (f : IoCell → IoCell) : (updCell s c f).out = s.out := rfl
@[simp] theorem updCell_due (s : Dev) (c : Nat) (f : IoCell → IoCell) : (updCell s c f).due = s.due := rfl

/-! updHinge changes sectors. -/

@[simp] theorem updHinge_regs (i h : Nat) (f : Hinge → Hinge) (s : Dev) : (updHinge i h f s).regs = s.regs := rfl
@[simp] theorem updHinge_eccLog (i h : Nat) (f : Hinge → Hinge) (s : Dev) : (updHinge i h f s).eccLog = s.eccLog := rfl
@[simp] theorem updHinge_thr (i h : Nat) (f : Hinge → Hinge) (s : Dev) : (updHinge i h f s).thr = s.thr := rfl
@[simp] theorem updHinge_clk (i h : Nat) (f : Hinge → Hinge) (s : Dev) : (updHinge i h f s).clk = s.clk := rfl
@[simp] theorem updHinge_cfg (i h : Nat) (f : Hinge → Hinge) (s : Dev) : (updHinge i h f s).cfg = s.cfg := rfl
@[simp] theorem updHinge_net (i h : Nat) (f : Hinge → Hinge) (s : Dev) : (updHinge i h f s).net = s.net := rfl
@[simp] theorem updHinge_mem (i h : Nat) (f : Hinge → Hinge) (s : Dev) : (updHinge i h f s).mem = s.mem := rfl
@[simp] theorem updHinge_enc (i h : Nat) (f : Hinge → Hinge) (s : Dev) : (updHinge i h f s).enc = s.enc := rfl
@[simp] theorem updHinge_cab (i h : Nat) (f : Hinge → Hinge) (s : Dev) : (updHinge i h f s).cab = s.cab := rfl
@[simp] theorem updHinge_links (i h : Nat) (f : Hinge → Hinge) (s : Dev) : (updHinge i h f s).links = s.links := rfl
@[simp] theorem updHinge_io (i h : Nat) (f : Hinge → Hinge) (s : Dev) : (updHinge i h f s).io = s.io := rfl
@[simp] theorem updHinge_tb (i h : Nat) (f : Hinge → Hinge) (s : Dev) : (updHinge i h f s).tb = s.tb := rfl
@[simp] theorem updHinge_groups (i h : Nat) (f : Hinge → Hinge) (s : Dev) : (updHinge i h f s).groups = s.groups := rfl
@[simp] theorem updHinge_flog (i h : Nat) (f : Hinge → Hinge) (s : Dev) : (updHinge i h f s).flog = s.flog := rfl
@[simp] theorem updHinge_units (i h : Nat) (f : Hinge → Hinge) (s : Dev) : (updHinge i h f s).units = s.units := rfl
@[simp] theorem updHinge_power (i h : Nat) (f : Hinge → Hinge) (s : Dev) : (updHinge i h f s).power = s.power := rfl
@[simp] theorem updHinge_bureau (i h : Nat) (f : Hinge → Hinge) (s : Dev) : (updHinge i h f s).bureau = s.bureau := rfl
@[simp] theorem updHinge_free (i h : Nat) (f : Hinge → Hinge) (s : Dev) : (updHinge i h f s).free = s.free := rfl
@[simp] theorem updHinge_out (i h : Nat) (f : Hinge → Hinge) (s : Dev) : (updHinge i h f s).out = s.out := rfl
@[simp] theorem updHinge_due (i h : Nat) (f : Hinge → Hinge) (s : Dev) : (updHinge i h f s).due = s.due := rfl

/-! updLink changes net. -/

@[simp] theorem updLink_regs (s : Dev) (a d : Nat) (f : List Parcel → List Parcel) : (updLink s a d f).regs = s.regs := rfl
@[simp] theorem updLink_sectors (s : Dev) (a d : Nat) (f : List Parcel → List Parcel) : (updLink s a d f).sectors = s.sectors := rfl
@[simp] theorem updLink_eccLog (s : Dev) (a d : Nat) (f : List Parcel → List Parcel) : (updLink s a d f).eccLog = s.eccLog := rfl
@[simp] theorem updLink_thr (s : Dev) (a d : Nat) (f : List Parcel → List Parcel) : (updLink s a d f).thr = s.thr := rfl
@[simp] theorem updLink_clk (s : Dev) (a d : Nat) (f : List Parcel → List Parcel) : (updLink s a d f).clk = s.clk := rfl
@[simp] theorem updLink_cfg (s : Dev) (a d : Nat) (f : List Parcel → List Parcel) : (updLink s a d f).cfg = s.cfg := rfl
@[simp] theorem updLink_mem (s : Dev) (a d : Nat) (f : List Parcel → List Parcel) : (updLink s a d f).mem = s.mem := rfl
@[simp] theorem updLink_enc (s : Dev) (a d : Nat) (f : List Parcel → List Parcel) : (updLink s a d f).enc = s.enc := rfl
@[simp] theorem updLink_cab (s : Dev) (a d : Nat) (f : List Parcel → List Parcel) : (updLink s a d f).cab = s.cab := rfl
@[simp] theorem updLink_links (s : Dev) (a d : Nat) (f : List Parcel → List Parcel) : (updLink s a d f).links = s.links := rfl
@[simp] theorem updLink_io (s : Dev) (a d : Nat) (f : List Parcel → List Parcel) : (updLink s a d f).io = s.io := rfl
@[simp] theorem updLink_tb (s : Dev) (a d : Nat) (f : List Parcel → List Parcel) : (updLink s a d f).tb = s.tb := rfl
@[simp] theorem updLink_groups (s : Dev) (a d : Nat) (f : List Parcel → List Parcel) : (updLink s a d f).groups = s.groups := rfl
@[simp] theorem updLink_flog (s : Dev) (a d : Nat) (f : List Parcel → List Parcel) : (updLink s a d f).flog = s.flog := rfl
@[simp] theorem updLink_units (s : Dev) (a d : Nat) (f : List Parcel → List Parcel) : (updLink s a d f).units = s.units := rfl
@[simp] theorem updLink_power (s : Dev) (a d : Nat) (f : List Parcel → List Parcel) : (updLink s a d f).power = s.power := rfl
@[simp] theorem updLink_bureau (s : Dev) (a d : Nat) (f : List Parcel → List Parcel) : (updLink s a d f).bureau = s.bureau := rfl
@[simp] theorem updLink_free (s : Dev) (a d : Nat) (f : List Parcel → List Parcel) : (updLink s a d f).free = s.free := rfl
@[simp] theorem updLink_out (s : Dev) (a d : Nat) (f : List Parcel → List Parcel) : (updLink s a d f).out = s.out := rfl
@[simp] theorem updLink_due (s : Dev) (a d : Nat) (f : List Parcel → List Parcel) : (updLink s a d f).due = s.due := rfl

/-! setTaken changes net. -/

@[simp] theorem setTaken_regs (s : Dev) (a v : Nat) : (setTaken s a v).regs = s.regs := rfl
@[simp] theorem setTaken_sectors (s : Dev) (a v : Nat) : (setTaken s a v).sectors = s.sectors := rfl
@[simp] theorem setTaken_eccLog (s : Dev) (a v : Nat) : (setTaken s a v).eccLog = s.eccLog := rfl
@[simp] theorem setTaken_thr (s : Dev) (a v : Nat) : (setTaken s a v).thr = s.thr := rfl
@[simp] theorem setTaken_clk (s : Dev) (a v : Nat) : (setTaken s a v).clk = s.clk := rfl
@[simp] theorem setTaken_cfg (s : Dev) (a v : Nat) : (setTaken s a v).cfg = s.cfg := rfl
@[simp] theorem setTaken_mem (s : Dev) (a v : Nat) : (setTaken s a v).mem = s.mem := rfl
@[simp] theorem setTaken_enc (s : Dev) (a v : Nat) : (setTaken s a v).enc = s.enc := rfl
@[simp] theorem setTaken_cab (s : Dev) (a v : Nat) : (setTaken s a v).cab = s.cab := rfl
@[simp] theorem setTaken_links (s : Dev) (a v : Nat) : (setTaken s a v).links = s.links := rfl
@[simp] theorem setTaken_io (s : Dev) (a v : Nat) : (setTaken s a v).io = s.io := rfl
@[simp] theorem setTaken_tb (s : Dev) (a v : Nat) : (setTaken s a v).tb = s.tb := rfl
@[simp] theorem setTaken_groups (s : Dev) (a v : Nat) : (setTaken s a v).groups = s.groups := rfl
@[simp] theorem setTaken_flog (s : Dev) (a v : Nat) : (setTaken s a v).flog = s.flog := rfl
@[simp] theorem setTaken_units (s : Dev) (a v : Nat) : (setTaken s a v).units = s.units := rfl
@[simp] theorem setTaken_power (s : Dev) (a v : Nat) : (setTaken s a v).power = s.power := rfl
@[simp] theorem setTaken_bureau (s : Dev) (a v : Nat) : (setTaken s a v).bureau = s.bureau := rfl
@[simp] theorem setTaken_free (s : Dev) (a v : Nat) : (setTaken s a v).free = s.free := rfl
@[simp] theorem setTaken_out (s : Dev) (a v : Nat) : (setTaken s a v).out = s.out := rfl
@[simp] theorem setTaken_due (s : Dev) (a v : Nat) : (setTaken s a v).due = s.due := rfl

/-! updDie changes mem. -/

@[simp] theorem updDie_regs (s : Dev) (n : Nat) (f : SramDie → SramDie) : (updDie s n f).regs = s.regs := rfl
@[simp] theorem updDie_sectors (s : Dev) (n : Nat) (f : SramDie → SramDie) : (updDie s n f).sectors = s.sectors := rfl
@[simp] theorem updDie_eccLog (s : Dev) (n : Nat) (f : SramDie → SramDie) : (updDie s n f).eccLog = s.eccLog := rfl
@[simp] theorem updDie_thr (s : Dev) (n : Nat) (f : SramDie → SramDie) : (updDie s n f).thr = s.thr := rfl
@[simp] theorem updDie_clk (s : Dev) (n : Nat) (f : SramDie → SramDie) : (updDie s n f).clk = s.clk := rfl
@[simp] theorem updDie_cfg (s : Dev) (n : Nat) (f : SramDie → SramDie) : (updDie s n f).cfg = s.cfg := rfl
@[simp] theorem updDie_net (s : Dev) (n : Nat) (f : SramDie → SramDie) : (updDie s n f).net = s.net := rfl
@[simp] theorem updDie_enc (s : Dev) (n : Nat) (f : SramDie → SramDie) : (updDie s n f).enc = s.enc := rfl
@[simp] theorem updDie_cab (s : Dev) (n : Nat) (f : SramDie → SramDie) : (updDie s n f).cab = s.cab := rfl
@[simp] theorem updDie_links (s : Dev) (n : Nat) (f : SramDie → SramDie) : (updDie s n f).links = s.links := rfl
@[simp] theorem updDie_io (s : Dev) (n : Nat) (f : SramDie → SramDie) : (updDie s n f).io = s.io := rfl
@[simp] theorem updDie_tb (s : Dev) (n : Nat) (f : SramDie → SramDie) : (updDie s n f).tb = s.tb := rfl
@[simp] theorem updDie_groups (s : Dev) (n : Nat) (f : SramDie → SramDie) : (updDie s n f).groups = s.groups := rfl
@[simp] theorem updDie_flog (s : Dev) (n : Nat) (f : SramDie → SramDie) : (updDie s n f).flog = s.flog := rfl
@[simp] theorem updDie_units (s : Dev) (n : Nat) (f : SramDie → SramDie) : (updDie s n f).units = s.units := rfl
@[simp] theorem updDie_power (s : Dev) (n : Nat) (f : SramDie → SramDie) : (updDie s n f).power = s.power := rfl
@[simp] theorem updDie_bureau (s : Dev) (n : Nat) (f : SramDie → SramDie) : (updDie s n f).bureau = s.bureau := rfl
@[simp] theorem updDie_free (s : Dev) (n : Nat) (f : SramDie → SramDie) : (updDie s n f).free = s.free := rfl
@[simp] theorem updDie_out (s : Dev) (n : Nat) (f : SramDie → SramDie) : (updDie s n f).out = s.out := rfl
@[simp] theorem updDie_due (s : Dev) (n : Nat) (f : SramDie → SramDie) : (updDie s n f).due = s.due := rfl

/-! updCh changes mem. -/

@[simp] theorem updCh_regs (s : Dev) (n : Nat) (f : DdrChan → DdrChan) : (updCh s n f).regs = s.regs := rfl
@[simp] theorem updCh_sectors (s : Dev) (n : Nat) (f : DdrChan → DdrChan) : (updCh s n f).sectors = s.sectors := rfl
@[simp] theorem updCh_eccLog (s : Dev) (n : Nat) (f : DdrChan → DdrChan) : (updCh s n f).eccLog = s.eccLog := rfl
@[simp] theorem updCh_thr (s : Dev) (n : Nat) (f : DdrChan → DdrChan) : (updCh s n f).thr = s.thr := rfl
@[simp] theorem updCh_clk (s : Dev) (n : Nat) (f : DdrChan → DdrChan) : (updCh s n f).clk = s.clk := rfl
@[simp] theorem updCh_cfg (s : Dev) (n : Nat) (f : DdrChan → DdrChan) : (updCh s n f).cfg = s.cfg := rfl
@[simp] theorem updCh_net (s : Dev) (n : Nat) (f : DdrChan → DdrChan) : (updCh s n f).net = s.net := rfl
@[simp] theorem updCh_enc (s : Dev) (n : Nat) (f : DdrChan → DdrChan) : (updCh s n f).enc = s.enc := rfl
@[simp] theorem updCh_cab (s : Dev) (n : Nat) (f : DdrChan → DdrChan) : (updCh s n f).cab = s.cab := rfl
@[simp] theorem updCh_links (s : Dev) (n : Nat) (f : DdrChan → DdrChan) : (updCh s n f).links = s.links := rfl
@[simp] theorem updCh_io (s : Dev) (n : Nat) (f : DdrChan → DdrChan) : (updCh s n f).io = s.io := rfl
@[simp] theorem updCh_tb (s : Dev) (n : Nat) (f : DdrChan → DdrChan) : (updCh s n f).tb = s.tb := rfl
@[simp] theorem updCh_groups (s : Dev) (n : Nat) (f : DdrChan → DdrChan) : (updCh s n f).groups = s.groups := rfl
@[simp] theorem updCh_flog (s : Dev) (n : Nat) (f : DdrChan → DdrChan) : (updCh s n f).flog = s.flog := rfl
@[simp] theorem updCh_units (s : Dev) (n : Nat) (f : DdrChan → DdrChan) : (updCh s n f).units = s.units := rfl
@[simp] theorem updCh_power (s : Dev) (n : Nat) (f : DdrChan → DdrChan) : (updCh s n f).power = s.power := rfl
@[simp] theorem updCh_bureau (s : Dev) (n : Nat) (f : DdrChan → DdrChan) : (updCh s n f).bureau = s.bureau := rfl
@[simp] theorem updCh_free (s : Dev) (n : Nat) (f : DdrChan → DdrChan) : (updCh s n f).free = s.free := rfl
@[simp] theorem updCh_out (s : Dev) (n : Nat) (f : DdrChan → DdrChan) : (updCh s n f).out = s.out := rfl
@[simp] theorem updCh_due (s : Dev) (n : Nat) (f : DdrChan → DdrChan) : (updCh s n f).due = s.due := rfl

/-! updEng changes enc. -/

@[simp] theorem updEng_regs (s : Dev) (e : Nat) (f : Engine → Engine) : (updEng s e f).regs = s.regs := rfl
@[simp] theorem updEng_sectors (s : Dev) (e : Nat) (f : Engine → Engine) : (updEng s e f).sectors = s.sectors := rfl
@[simp] theorem updEng_eccLog (s : Dev) (e : Nat) (f : Engine → Engine) : (updEng s e f).eccLog = s.eccLog := rfl
@[simp] theorem updEng_thr (s : Dev) (e : Nat) (f : Engine → Engine) : (updEng s e f).thr = s.thr := rfl
@[simp] theorem updEng_clk (s : Dev) (e : Nat) (f : Engine → Engine) : (updEng s e f).clk = s.clk := rfl
@[simp] theorem updEng_cfg (s : Dev) (e : Nat) (f : Engine → Engine) : (updEng s e f).cfg = s.cfg := rfl
@[simp] theorem updEng_net (s : Dev) (e : Nat) (f : Engine → Engine) : (updEng s e f).net = s.net := rfl
@[simp] theorem updEng_mem (s : Dev) (e : Nat) (f : Engine → Engine) : (updEng s e f).mem = s.mem := rfl
@[simp] theorem updEng_cab (s : Dev) (e : Nat) (f : Engine → Engine) : (updEng s e f).cab = s.cab := rfl
@[simp] theorem updEng_links (s : Dev) (e : Nat) (f : Engine → Engine) : (updEng s e f).links = s.links := rfl
@[simp] theorem updEng_io (s : Dev) (e : Nat) (f : Engine → Engine) : (updEng s e f).io = s.io := rfl
@[simp] theorem updEng_tb (s : Dev) (e : Nat) (f : Engine → Engine) : (updEng s e f).tb = s.tb := rfl
@[simp] theorem updEng_groups (s : Dev) (e : Nat) (f : Engine → Engine) : (updEng s e f).groups = s.groups := rfl
@[simp] theorem updEng_flog (s : Dev) (e : Nat) (f : Engine → Engine) : (updEng s e f).flog = s.flog := rfl
@[simp] theorem updEng_units (s : Dev) (e : Nat) (f : Engine → Engine) : (updEng s e f).units = s.units := rfl
@[simp] theorem updEng_power (s : Dev) (e : Nat) (f : Engine → Engine) : (updEng s e f).power = s.power := rfl
@[simp] theorem updEng_bureau (s : Dev) (e : Nat) (f : Engine → Engine) : (updEng s e f).bureau = s.bureau := rfl
@[simp] theorem updEng_free (s : Dev) (e : Nat) (f : Engine → Engine) : (updEng s e f).free = s.free := rfl
@[simp] theorem updEng_out (s : Dev) (e : Nat) (f : Engine → Engine) : (updEng s e f).out = s.out := rfl
@[simp] theorem updEng_due (s : Dev) (e : Nat) (f : Engine → Engine) : (updEng s e f).due = s.due := rfl

/-! updSlot changes enc. -/

@[simp] theorem updSlot_regs (s : Dev) (e n : Nat) (f : KeySlot → KeySlot) : (updSlot s e n f).regs = s.regs := rfl
@[simp] theorem updSlot_sectors (s : Dev) (e n : Nat) (f : KeySlot → KeySlot) : (updSlot s e n f).sectors = s.sectors := rfl
@[simp] theorem updSlot_eccLog (s : Dev) (e n : Nat) (f : KeySlot → KeySlot) : (updSlot s e n f).eccLog = s.eccLog := rfl
@[simp] theorem updSlot_thr (s : Dev) (e n : Nat) (f : KeySlot → KeySlot) : (updSlot s e n f).thr = s.thr := rfl
@[simp] theorem updSlot_clk (s : Dev) (e n : Nat) (f : KeySlot → KeySlot) : (updSlot s e n f).clk = s.clk := rfl
@[simp] theorem updSlot_cfg (s : Dev) (e n : Nat) (f : KeySlot → KeySlot) : (updSlot s e n f).cfg = s.cfg := rfl
@[simp] theorem updSlot_net (s : Dev) (e n : Nat) (f : KeySlot → KeySlot) : (updSlot s e n f).net = s.net := rfl
@[simp] theorem updSlot_mem (s : Dev) (e n : Nat) (f : KeySlot → KeySlot) : (updSlot s e n f).mem = s.mem := rfl
@[simp] theorem updSlot_cab (s : Dev) (e n : Nat) (f : KeySlot → KeySlot) : (updSlot s e n f).cab = s.cab := rfl
@[simp] theorem updSlot_links (s : Dev) (e n : Nat) (f : KeySlot → KeySlot) : (updSlot s e n f).links = s.links := rfl
@[simp] theorem updSlot_io (s : Dev) (e n : Nat) (f : KeySlot → KeySlot) : (updSlot s e n f).io = s.io := rfl
@[simp] theorem updSlot_tb (s : Dev) (e n : Nat) (f : KeySlot → KeySlot) : (updSlot s e n f).tb = s.tb := rfl
@[simp] theorem updSlot_groups (s : Dev) (e n : Nat) (f : KeySlot → KeySlot) : (updSlot s e n f).groups = s.groups := rfl
@[simp] theorem updSlot_flog (s : Dev) (e n : Nat) (f : KeySlot → KeySlot) : (updSlot s e n f).flog = s.flog := rfl
@[simp] theorem updSlot_units (s : Dev) (e n : Nat) (f : KeySlot → KeySlot) : (updSlot s e n f).units = s.units := rfl
@[simp] theorem updSlot_power (s : Dev) (e n : Nat) (f : KeySlot → KeySlot) : (updSlot s e n f).power = s.power := rfl
@[simp] theorem updSlot_bureau (s : Dev) (e n : Nat) (f : KeySlot → KeySlot) : (updSlot s e n f).bureau = s.bureau := rfl
@[simp] theorem updSlot_free (s : Dev) (e n : Nat) (f : KeySlot → KeySlot) : (updSlot s e n f).free = s.free := rfl
@[simp] theorem updSlot_out (s : Dev) (e n : Nat) (f : KeySlot → KeySlot) : (updSlot s e n f).out = s.out := rfl
@[simp] theorem updSlot_due (s : Dev) (e n : Nat) (f : KeySlot → KeySlot) : (updSlot s e n f).due = s.due := rfl

/-! updRange changes enc. -/

@[simp] theorem updRange_regs (s : Dev) (k : Nat) (f : KeyRange → KeyRange) : (updRange s k f).regs = s.regs := rfl
@[simp] theorem updRange_sectors (s : Dev) (k : Nat) (f : KeyRange → KeyRange) : (updRange s k f).sectors = s.sectors := rfl
@[simp] theorem updRange_eccLog (s : Dev) (k : Nat) (f : KeyRange → KeyRange) : (updRange s k f).eccLog = s.eccLog := rfl
@[simp] theorem updRange_thr (s : Dev) (k : Nat) (f : KeyRange → KeyRange) : (updRange s k f).thr = s.thr := rfl
@[simp] theorem updRange_clk (s : Dev) (k : Nat) (f : KeyRange → KeyRange) : (updRange s k f).clk = s.clk := rfl
@[simp] theorem updRange_cfg (s : Dev) (k : Nat) (f : KeyRange → KeyRange) : (updRange s k f).cfg = s.cfg := rfl
@[simp] theorem updRange_net (s : Dev) (k : Nat) (f : KeyRange → KeyRange) : (updRange s k f).net = s.net := rfl
@[simp] theorem updRange_mem (s : Dev) (k : Nat) (f : KeyRange → KeyRange) : (updRange s k f).mem = s.mem := rfl
@[simp] theorem updRange_cab (s : Dev) (k : Nat) (f : KeyRange → KeyRange) : (updRange s k f).cab = s.cab := rfl
@[simp] theorem updRange_links (s : Dev) (k : Nat) (f : KeyRange → KeyRange) : (updRange s k f).links = s.links := rfl
@[simp] theorem updRange_io (s : Dev) (k : Nat) (f : KeyRange → KeyRange) : (updRange s k f).io = s.io := rfl
@[simp] theorem updRange_tb (s : Dev) (k : Nat) (f : KeyRange → KeyRange) : (updRange s k f).tb = s.tb := rfl
@[simp] theorem updRange_groups (s : Dev) (k : Nat) (f : KeyRange → KeyRange) : (updRange s k f).groups = s.groups := rfl
@[simp] theorem updRange_flog (s : Dev) (k : Nat) (f : KeyRange → KeyRange) : (updRange s k f).flog = s.flog := rfl
@[simp] theorem updRange_units (s : Dev) (k : Nat) (f : KeyRange → KeyRange) : (updRange s k f).units = s.units := rfl
@[simp] theorem updRange_power (s : Dev) (k : Nat) (f : KeyRange → KeyRange) : (updRange s k f).power = s.power := rfl
@[simp] theorem updRange_bureau (s : Dev) (k : Nat) (f : KeyRange → KeyRange) : (updRange s k f).bureau = s.bureau := rfl
@[simp] theorem updRange_free (s : Dev) (k : Nat) (f : KeyRange → KeyRange) : (updRange s k f).free = s.free := rfl
@[simp] theorem updRange_out (s : Dev) (k : Nat) (f : KeyRange → KeyRange) : (updRange s k f).out = s.out := rfl
@[simp] theorem updRange_due (s : Dev) (k : Nat) (f : KeyRange → KeyRange) : (updRange s k f).due = s.due := rfl

/-! setRoot changes enc. -/

@[simp] theorem setRoot_regs (s : Dev) (e k i v : Nat) : (setRoot s e k i v).regs = s.regs := rfl
@[simp] theorem setRoot_sectors (s : Dev) (e k i v : Nat) : (setRoot s e k i v).sectors = s.sectors := rfl
@[simp] theorem setRoot_eccLog (s : Dev) (e k i v : Nat) : (setRoot s e k i v).eccLog = s.eccLog := rfl
@[simp] theorem setRoot_thr (s : Dev) (e k i v : Nat) : (setRoot s e k i v).thr = s.thr := rfl
@[simp] theorem setRoot_clk (s : Dev) (e k i v : Nat) : (setRoot s e k i v).clk = s.clk := rfl
@[simp] theorem setRoot_cfg (s : Dev) (e k i v : Nat) : (setRoot s e k i v).cfg = s.cfg := rfl
@[simp] theorem setRoot_net (s : Dev) (e k i v : Nat) : (setRoot s e k i v).net = s.net := rfl
@[simp] theorem setRoot_mem (s : Dev) (e k i v : Nat) : (setRoot s e k i v).mem = s.mem := rfl
@[simp] theorem setRoot_cab (s : Dev) (e k i v : Nat) : (setRoot s e k i v).cab = s.cab := rfl
@[simp] theorem setRoot_links (s : Dev) (e k i v : Nat) : (setRoot s e k i v).links = s.links := rfl
@[simp] theorem setRoot_io (s : Dev) (e k i v : Nat) : (setRoot s e k i v).io = s.io := rfl
@[simp] theorem setRoot_tb (s : Dev) (e k i v : Nat) : (setRoot s e k i v).tb = s.tb := rfl
@[simp] theorem setRoot_groups (s : Dev) (e k i v : Nat) : (setRoot s e k i v).groups = s.groups := rfl
@[simp] theorem setRoot_flog (s : Dev) (e k i v : Nat) : (setRoot s e k i v).flog = s.flog := rfl
@[simp] theorem setRoot_units (s : Dev) (e k i v : Nat) : (setRoot s e k i v).units = s.units := rfl
@[simp] theorem setRoot_power (s : Dev) (e k i v : Nat) : (setRoot s e k i v).power = s.power := rfl
@[simp] theorem setRoot_bureau (s : Dev) (e k i v : Nat) : (setRoot s e k i v).bureau = s.bureau := rfl
@[simp] theorem setRoot_free (s : Dev) (e k i v : Nat) : (setRoot s e k i v).free = s.free := rfl
@[simp] theorem setRoot_out (s : Dev) (e k i v : Nat) : (setRoot s e k i v).out = s.out := rfl
@[simp] theorem setRoot_due (s : Dev) (e k i v : Nat) : (setRoot s e k i v).due = s.due := rfl

/-! eccLogFree changes eccLog. -/

@[simp] theorem eccLogFree_regs (u n : Nat) (s : Dev) : (eccLogFree u n s).regs = s.regs := rfl
@[simp] theorem eccLogFree_sectors (u n : Nat) (s : Dev) : (eccLogFree u n s).sectors = s.sectors := rfl
@[simp] theorem eccLogFree_thr (u n : Nat) (s : Dev) : (eccLogFree u n s).thr = s.thr := rfl
@[simp] theorem eccLogFree_clk (u n : Nat) (s : Dev) : (eccLogFree u n s).clk = s.clk := rfl
@[simp] theorem eccLogFree_cfg (u n : Nat) (s : Dev) : (eccLogFree u n s).cfg = s.cfg := rfl
@[simp] theorem eccLogFree_net (u n : Nat) (s : Dev) : (eccLogFree u n s).net = s.net := rfl
@[simp] theorem eccLogFree_mem (u n : Nat) (s : Dev) : (eccLogFree u n s).mem = s.mem := rfl
@[simp] theorem eccLogFree_enc (u n : Nat) (s : Dev) : (eccLogFree u n s).enc = s.enc := rfl
@[simp] theorem eccLogFree_cab (u n : Nat) (s : Dev) : (eccLogFree u n s).cab = s.cab := rfl
@[simp] theorem eccLogFree_links (u n : Nat) (s : Dev) : (eccLogFree u n s).links = s.links := rfl
@[simp] theorem eccLogFree_io (u n : Nat) (s : Dev) : (eccLogFree u n s).io = s.io := rfl
@[simp] theorem eccLogFree_tb (u n : Nat) (s : Dev) : (eccLogFree u n s).tb = s.tb := rfl
@[simp] theorem eccLogFree_groups (u n : Nat) (s : Dev) : (eccLogFree u n s).groups = s.groups := rfl
@[simp] theorem eccLogFree_flog (u n : Nat) (s : Dev) : (eccLogFree u n s).flog = s.flog := rfl
@[simp] theorem eccLogFree_units (u n : Nat) (s : Dev) : (eccLogFree u n s).units = s.units := rfl
@[simp] theorem eccLogFree_power (u n : Nat) (s : Dev) : (eccLogFree u n s).power = s.power := rfl
@[simp] theorem eccLogFree_bureau (u n : Nat) (s : Dev) : (eccLogFree u n s).bureau = s.bureau := rfl
@[simp] theorem eccLogFree_free (u n : Nat) (s : Dev) : (eccLogFree u n s).free = s.free := rfl
@[simp] theorem eccLogFree_out (u n : Nat) (s : Dev) : (eccLogFree u n s).out = s.out := rfl
@[simp] theorem eccLogFree_due (u n : Nat) (s : Dev) : (eccLogFree u n s).due = s.due := rfl

/-! emptyNetwork changes net. -/

@[simp] theorem emptyNetwork_regs (s : Dev) : (emptyNetwork s).regs = s.regs := rfl
@[simp] theorem emptyNetwork_sectors (s : Dev) : (emptyNetwork s).sectors = s.sectors := rfl
@[simp] theorem emptyNetwork_eccLog (s : Dev) : (emptyNetwork s).eccLog = s.eccLog := rfl
@[simp] theorem emptyNetwork_thr (s : Dev) : (emptyNetwork s).thr = s.thr := rfl
@[simp] theorem emptyNetwork_clk (s : Dev) : (emptyNetwork s).clk = s.clk := rfl
@[simp] theorem emptyNetwork_cfg (s : Dev) : (emptyNetwork s).cfg = s.cfg := rfl
@[simp] theorem emptyNetwork_mem (s : Dev) : (emptyNetwork s).mem = s.mem := rfl
@[simp] theorem emptyNetwork_enc (s : Dev) : (emptyNetwork s).enc = s.enc := rfl
@[simp] theorem emptyNetwork_cab (s : Dev) : (emptyNetwork s).cab = s.cab := rfl
@[simp] theorem emptyNetwork_links (s : Dev) : (emptyNetwork s).links = s.links := rfl
@[simp] theorem emptyNetwork_io (s : Dev) : (emptyNetwork s).io = s.io := rfl
@[simp] theorem emptyNetwork_tb (s : Dev) : (emptyNetwork s).tb = s.tb := rfl
@[simp] theorem emptyNetwork_groups (s : Dev) : (emptyNetwork s).groups = s.groups := rfl
@[simp] theorem emptyNetwork_flog (s : Dev) : (emptyNetwork s).flog = s.flog := rfl
@[simp] theorem emptyNetwork_units (s : Dev) : (emptyNetwork s).units = s.units := rfl
@[simp] theorem emptyNetwork_power (s : Dev) : (emptyNetwork s).power = s.power := rfl
@[simp] theorem emptyNetwork_bureau (s : Dev) : (emptyNetwork s).bureau = s.bureau := rfl
@[simp] theorem emptyNetwork_free (s : Dev) : (emptyNetwork s).free = s.free := rfl
@[simp] theorem emptyNetwork_out (s : Dev) : (emptyNetwork s).out = s.out := rfl
@[simp] theorem emptyNetwork_due (s : Dev) : (emptyNetwork s).due = s.due := rfl

end Sys2Proof.Machine
end

