-- ==== Sys2Proof/Laws/Run.lean ====
section
/-! SUPPORT. Laws of running a command: where no escalation level is applied, the next state is what the operation gives. -/

namespace Sys2Proof.Machine

theorem settleN_idle {n : Nat} {d : Dev} (h : d.due = []) : settleN n d = d := by
  cases n with
  | zero => cases d; cases h; rfl
  | succ n => simp [settleN, h]

theorem reloadDue_settled {d : Dev} (h : d.settled) : reloadDue d = false := by
  unfold reloadDue
  cases hr : d.cfg.boot.reload with
  | false => rfl
  | true => cases hc : d.cfg.commit with
    | some c => rfl
    | none => have := h.2 hr; simp [hc] at this

/-- A device in which nothing is left to carry out stays as it is. -/
theorem settle_idle {d : Dev} (h : d.settled) : settle d = d := by
  unfold settle
  rw [settleN_idle h.1]
  simp [reloadDue_settled h]

theorem settleN_due : ∀ (n : Nat) (d : Dev), (settleN n d).due = []
  | 0, _ => rfl
  | n + 1, d => by
    unfold settleN
    split
    · assumption
    · exact settleN_due n _

/-- At the end of a command no level is left to carry out, and a reload waits only while a commit runs. -/
theorem settle_settled (d : Dev) : (settle d).settled := by
  unfold settle
  by_cases h : reloadDue (settleN 3 d) = true
  · simp only [h, if_true]
    exact ⟨settleN_due 3 _, fun hr => by simp [updCfg] at hr⟩
  · simp only [h]
    refine ⟨settleN_due 3 d, fun hr => ?_⟩
    cases hc : (settleN 3 d).cfg.commit with
    | some c => simp [hc]
    | none => exact absurd (by simp [reloadDue, hc]; exact hr) h

theorem run_quiet {f : Dev → Dev} {s : State} (h : (f { s.dev with out := [] }).settled) :
    run f s = .next { s with dev := f { s.dev with out := [] } } := by
  unfold run runDev; rw [settle_idle h]

@[simp] theorem mainUp_out (d : Dev) (o : List Output) : mainUp { d with out := o } = mainUp d := rfl

@[simp] theorem getR_out (d : Dev) (o : List Output) (a : Nat) : getR { d with out := o } a = getR d a := rfl

@[simp] theorem fldR_out (d : Dev) (o : List Output) (a hi lo : Nat) : fldR { d with out := o } a hi lo = fldR d a hi lo := rfl

@[simp] theorem bitR_out (d : Dev) (o : List Output) (a i : Nat) : bitR { d with out := o } a i = bitR d a i := rfl

@[simp] theorem reactionOf_out (d : Dev) (o : List Output) (i : Nat) : reactionOf { d with out := o } i = reactionOf d i := rfl

theorem whenMain_up {f : Dev → Dev} {d : Dev} (h : mainUp d = true) : whenMain f d = f d := by simp [whenMain, h]

theorem whenSec_up {i : Sec} {f : Dev → Dev} {d : Dev} (h : mainUp d = true) : whenSec i f d = f d := by simp [whenSec, h]

theorem whenDom_up {x : ClkDomain} {f : Dev → Dev} {d : Dev} (h : mainUp d = true) : whenDom x f d = f d := by simp [whenDom, h]

theorem whenSlot_up {q : Fin 5} {f : Dev → Dev} {d : Dev} (h : mainUp d = true) : whenSlot q f d = f d := by simp [whenSlot, h]

/-- A row of the main side runs: the next state is what its operation gives. -/
theorem run_main {f : Dev → Dev} {s : State} (hr : s.ready) (h : (f { s.dev with out := [] }).settled) :
    run (whenMain f) s = .next { s with dev := f { s.dev with out := [] } } := by
  have hu : mainUp { s.dev with out := [] } = true := hr.1
  have e : whenMain f { s.dev with out := [] } = f { s.dev with out := [] } := whenMain_up hu
  rw [run_quiet (by rw [e]; exact h), e]

theorem run_sec {i : Sec} {f : Dev → Dev} {s : State} (hr : s.ready) (h : (f { s.dev with out := [] }).settled) :
    run (whenSec i f) s = .next { s with dev := f { s.dev with out := [] } } := by
  have hu : mainUp { s.dev with out := [] } = true := hr.1
  have e : whenSec i f { s.dev with out := [] } = f { s.dev with out := [] } := whenSec_up hu
  rw [run_quiet (by rw [e]; exact h), e]

theorem run_dom {x : ClkDomain} {f : Dev → Dev} {s : State} (hr : s.ready) (h : (f { s.dev with out := [] }).settled) :
    run (whenDom x f) s = .next { s with dev := f { s.dev with out := [] } } := by
  have hu : mainUp { s.dev with out := [] } = true := hr.1
  have e : whenDom x f { s.dev with out := [] } = f { s.dev with out := [] } := whenDom_up hu
  rw [run_quiet (by rw [e]; exact h), e]

theorem run_slot {q : Fin 5} {f : Dev → Dev} {s : State} (hr : s.ready) (h : (f { s.dev with out := [] }).settled) :
    run (whenSlot q f) s = .next { s with dev := f { s.dev with out := [] } } := by
  have hu : mainUp { s.dev with out := [] } = true := hr.1
  have e : whenSlot q f { s.dev with out := [] } = f { s.dev with out := [] } := whenSlot_up hu
  rw [run_quiet (by rw [e]; exact h), e]

theorem sameBut_refl (ps : List Part) (a : Dev) : sameBut ps a { a with out := [] } := by constructor <;> simp

end Sys2Proof.Machine
end

