-- ==== Sys2Proof/Laws/Table.lean ====
section
/-! SUPPORT. Laws of sparse tables: every operation keeps the canonical form; what a read gives after a write, a drop, a sequence
of writes. -/

namespace Sys2Proof.Machine

variable {α : Type} (dflt : Nat → α)

@[simp] theorem tGet_nil (k : Nat) : tGet dflt [] k = dflt k := rfl

theorem tAbove_cons (b : Nat) (e : Nat × α) (t : Tbl α) : tAbove b (e :: t) = (decide (b < e.1) && tAbove b t) := rfl

theorem tAbove_mono {a b : Nat} (h : a ≤ b) : ∀ {t : Tbl α}, tAbove b t = true → tAbove a t = true
  | [], _ => rfl
  | e :: t, ht => by
    simp only [tAbove_cons, Bool.and_eq_true, decide_eq_true_eq] at ht ⊢
    exact ⟨by omega, tAbove_mono h ht.2⟩

theorem tGet_of_above {k : Nat} : ∀ {t : Tbl α}, tAbove k t = true → tGet dflt t k = dflt k
  | [], _ => rfl
  | (j, v) :: t, ht => by
    simp only [tAbove_cons, Bool.and_eq_true, decide_eq_true_eq] at ht
    simp [tGet, ht.1]

variable [DecidableEq α]

theorem tAbove_tSet {b k : Nat} (hk : b < k) (v : α) : ∀ {t : Tbl α}, tAbove b t = true → tAbove b (tSet dflt t k v) = true
  | [], _ => by unfold tSet; split <;> simp [tAbove, hk]
  | (j, w) :: t, ht => by
    simp only [tAbove_cons, Bool.and_eq_true, decide_eq_true_eq] at ht
    have ih := tAbove_tSet hk v ht.2
    unfold tSet
    repeat' split
    all_goals simp_all [tAbove_cons]

/-- Writing keeps the canonical form. -/
theorem tWf_tSet (k : Nat) (v : α) : ∀ {t : Tbl α}, tWf dflt t = true → tWf dflt (tSet dflt t k v) = true
  | [], _ => by unfold tSet; split <;> simp_all [tWf, tAbove]
  | (j, w) :: t, ht => by
    simp only [tWf, Bool.and_eq_true, decide_eq_true_eq] at ht
    obtain ⟨⟨ha, hw⟩, ht⟩ := ht
    have ih := tWf_tSet k v ht
    unfold tSet
    split
    · rename_i h1
      split
      · simp [tWf, ha, hw, ht]
      · rename_i h2
        simp [tWf, ha, hw, ht, h2, tAbove_cons, h1, tAbove_mono (Nat.le_of_lt h1) ha]
    · split
      · rename_i h3
        subst h3
        split
        · exact ht
        · rename_i h4
          simp [tWf, ha, ht, h4]
      · simp [tWf, hw, ih, tAbove_tSet dflt (show j < k by omega) v ha]

theorem tWf_tUpd (k : Nat) (f : α → α) {t : Tbl α} (h : tWf dflt t = true) : tWf dflt (tUpd dflt t k f) = true :=
  tWf_tSet dflt k _ h

omit [DecidableEq α] in
theorem tAbove_tDrop (p : Nat → Bool) {b : Nat} {t : Tbl α} (h : tAbove b t = true) : tAbove b (tDrop p t) = true := by
  simp only [tAbove, tDrop, List.all_eq_true, List.mem_filter] at h ⊢
  exact fun e he => h e he.1

/-- Dropping keys keeps the canonical form. -/
theorem tWf_tDrop (p : Nat → Bool) : ∀ {t : Tbl α}, tWf dflt t = true → tWf dflt (tDrop p t) = true
  | [], _ => rfl
  | (j, w) :: t, ht => by
    simp only [tWf, Bool.and_eq_true, decide_eq_true_eq] at ht
    have ih := tWf_tDrop p ht.2
    simp only [tDrop, List.filter_cons]
    split
    · simp only [tWf, Bool.and_eq_true, decide_eq_true_eq]
      exact ⟨⟨tAbove_tDrop p ht.1.1, ht.1.2⟩, ih⟩
    · exact ih

theorem tWf_tUpdAll (f : Nat → α → α) : ∀ (ks : List Nat) {t : Tbl α}, tWf dflt t = true → tWf dflt (tUpdAll dflt t ks f) = true
  | [], _, h => h
  | k :: ks, _, h => tWf_tUpdAll f ks (tWf_tUpd dflt k (f k) h)

/-- A read after a write: the value written at its key, everything else as before. -/
theorem tGet_tSet (k i : Nat) (v : α) : ∀ {t : Tbl α}, tWf dflt t = true →
    tGet dflt (tSet dflt t k v) i = if i = k then v else tGet dflt t i
  | [], _ => by
    unfold tSet
    by_cases hi : i = k
    · subst hi; split <;> simp_all [tGet]
    · split <;> simp only [tGet, hi, if_false]
      split <;> rfl
  | (j, w) :: t, ht => by
    simp only [tWf, Bool.and_eq_true, decide_eq_true_eq] at ht
    obtain ⟨⟨ha, hw⟩, ht⟩ := ht
    have ih := tGet_tSet k i v ht
    unfold tSet
    by_cases h1 : k < j
    · by_cases hi : i = k
      · subst hi; simp only [h1, if_true]; split <;> simp_all [tGet]
      · simp only [h1, if_true, hi, if_false]
        split
        · rfl
        · show (if i < k then dflt i else if i = k then v else tGet dflt ((j, w) :: t) i) = _
          simp only [hi, if_false]
          split
          · have : i < j := by omega
            simp [tGet, this]
          · rfl
    · by_cases h2 : k = j
      · subst h2
        by_cases hi : i = k
        · subst hi
          simp only [h1, if_true, if_false]
          split
          · rename_i hv; rw [tGet_of_above dflt ha, hv]
          · simp [tGet]
        · simp only [h1, if_true, hi, if_false]
          split
          · simp only [tGet, hi, if_false]
            split
            · exact tGet_of_above dflt (tAbove_mono (by omega) ha)
            · rfl
          · simp [tGet, hi]
      · simp only [h1, h2, if_false, tGet, ih]
        by_cases hi : i = k
        · subst hi; simp [h1, h2]
        · simp [hi]

theorem tGet_tUpd (k i : Nat) (f : α → α) {t : Tbl α} (h : tWf dflt t = true) :
    tGet dflt (tUpd dflt t k f) i = if i = k then f (tGet dflt t k) else tGet dflt t i := tGet_tSet dflt k i _ h

/-- A dropped key reads as unlisted, every other as before. -/
theorem tGet_tDrop (p : Nat → Bool) (i : Nat) : ∀ {t : Tbl α}, tWf dflt t = true →
    tGet dflt (tDrop p t) i = if p i then dflt i else tGet dflt t i
  | [], _ => by simp [tDrop, tGet]
  | (j, w) :: t, ht => by
    simp only [tWf, Bool.and_eq_true, decide_eq_true_eq] at ht
    obtain ⟨⟨ha, hw⟩, ht⟩ := ht
    have ih := tGet_tDrop p i ht
    simp only [tDrop, List.filter_cons] at ih ⊢
    by_cases h : p j
    · simp only [h, Bool.not_true, Bool.false_eq_true, if_false, ih, tGet]
      by_cases hi : i < j
      · simp [hi, tGet_of_above dflt (tAbove_mono (Nat.le_of_lt hi) ha)]
      · by_cases hj : i = j
        · subst hj; simp [h]
        · simp [hi, hj]
    · simp only [h, tGet, ih, Bool.not_false, if_true]
      by_cases hi : i < j
      · simp [hi]
      · by_cases hj : i = j
        · subst hj; simp [h]
        · simp [hi, hj]

end Sys2Proof.Machine
end

