-- ==== Sys2Proof/Laws/Bits.lean ====
section
/-! SUPPORT. Laws of bit fields and of the register file: what a field reads as after it, or another one, was written. -/

namespace Sys2Proof.Machine

theorem nbits_lt (w hi lo : Nat) : nbits w hi lo < 2 ^ (hi + 1 - lo) := Nat.mod_lt _ (Nat.two_pow_pos _)

theorem testBit_nbits (w hi lo i : Nat) : (nbits w hi lo).testBit i = (decide (i < hi + 1 - lo) && w.testBit (lo + i)) := by
  simp [nbits, Nat.testBit_mod_two_pow, Nat.testBit_shiftRight]

/-- The CRCs' fold is the list fold. -/
theorem foldNat_eq {α : Type} (f : Nat → α → Nat) (l : List α) (c : Nat) : foldNat f c l = l.foldl f c := by
  induction l generalizing c with
  | nil => cases c <;> rfl
  | cons x l ih => cases c <;> exact ih _

/-- Two numbers whose high part, field and low part are told apart. -/
theorem putFld_toNat_testBit {n : Nat} (w : BitVec n) (hi lo v i : Nat) :
    (putFld w hi lo v).toNat.testBit i =
      (decide (i < n) && if lo ≤ i ∧ i ≤ hi then v.testBit (i - lo) else w.toNat.testBit i) := by
  have key : w.toNat - (nbits w.toNat hi lo) * 2 ^ lo + (v % 2 ^ (hi + 1 - lo)) * 2 ^ lo =
      (w.toNat / 2 ^ (lo + (hi + 1 - lo)) * 2 ^ (hi + 1 - lo) + v % 2 ^ (hi + 1 - lo)) * 2 ^ lo + w.toNat % 2 ^ lo := by
    have h1 := Nat.div_add_mod w.toNat (2 ^ lo)
    have h2 := Nat.div_add_mod (w.toNat / 2 ^ lo) (2 ^ (hi + 1 - lo))
    rw [Nat.div_div_eq_div_mul, ← Nat.pow_add] at h2
    simp only [nbits, Nat.shiftRight_eq_div_pow]
    generalize w.toNat / 2 ^ (lo + (hi + 1 - lo)) = q at *
    generalize w.toNat / 2 ^ lo % 2 ^ (hi + 1 - lo) = m at *
    generalize w.toNat % 2 ^ lo = l at *
    rw [← h2] at h1
    have h3 : w.toNat = (q * 2 ^ (hi + 1 - lo)) * 2 ^ lo + m * 2 ^ lo + l := by
      rw [← h1, Nat.mul_add, Nat.mul_comm (2 ^ lo) m, Nat.mul_comm (2 ^ lo), Nat.mul_comm (2 ^ (hi + 1 - lo)) q]
    rw [h3, Nat.add_mul]
    omega
  simp only [putFld, BitVec.toNat_ofNat, key, Nat.testBit_mod_two_pow]
  congr 1
  rw [Nat.mul_comm, Nat.testBit_two_pow_mul_add _ (Nat.mod_lt _ (Nat.two_pow_pos _))]
  rw [Nat.mul_comm (w.toNat / _), Nat.testBit_two_pow_mul_add _ (Nat.mod_lt _ (Nat.two_pow_pos _))]
  by_cases h1 : i < lo
  · simp [h1, Nat.testBit_mod_two_pow, show ¬ lo ≤ i by omega]
  · by_cases h2 : i - lo < hi + 1 - lo
    · simp [h1, h2, Nat.testBit_mod_two_pow, show lo ≤ i by omega, show i ≤ hi by omega]
    · simp only [h1, h2, if_false, Nat.testBit_div_two_pow]
      have h3 : ¬ (lo ≤ i ∧ i ≤ hi) := by omega
      simp only [h3, if_false]
      congr 1
      omega

/-- A field reads as what was written to it. -/
theorem fld_putFld {n : Nat} (w : BitVec n) (hi lo v : Nat) (h : hi < n) : fld (putFld w hi lo v) hi lo = v % 2 ^ (hi + 1 - lo) := by
  apply Nat.eq_of_testBit_eq
  intro i
  simp only [fld, testBit_nbits, putFld_toNat_testBit, Nat.testBit_mod_two_pow]
  by_cases hi' : i < hi + 1 - lo
  · simp [hi', show lo + i < n by omega, show lo + i ≤ hi by omega]
  · simp [hi']

/-- Other fields keep their value. -/
theorem fld_putFld_ne {n : Nat} (w : BitVec n) (hi lo v hi' lo' : Nat) (h : hi' < lo ∨ hi < lo') :
    fld (putFld w hi lo v) hi' lo' = fld w hi' lo' := by
  apply Nat.eq_of_testBit_eq
  intro i
  simp only [fld, testBit_nbits, putFld_toNat_testBit]
  by_cases hi' : i < hi' + 1 - lo'
  · by_cases hn : lo' + i < n
    · simp only [hi', hn, decide_true, Bool.true_and]
      rw [if_neg (by omega)]
    · simp only [hn, decide_false, Bool.false_and, Bool.and_false]
      rw [Nat.testBit_lt_two_pow]
      · simp
      · exact Nat.lt_of_lt_of_le w.isLt (Nat.pow_le_pow_right (by omega) (by omega))
  · simp [hi']

theorem bit_eq_testBit {n : Nat} (w : BitVec n) (i : Nat) : bit w i = w.toNat.testBit i := by simp [bit, BitVec.testBit_toNat]

theorem bit_putFld_ne {n : Nat} (w : BitVec n) (hi lo v i : Nat) (h : i < lo ∨ hi < i) : bit (putFld w hi lo v) i = bit w i := by
  simp only [bit_eq_testBit, putFld_toNat_testBit]
  rw [if_neg (by omega)]
  by_cases hn : i < n
  · simp [hn]
  · rw [Nat.testBit_lt_two_pow]
    · simp
    · exact Nat.lt_of_lt_of_le w.isLt (Nat.pow_le_pow_right (by omega) (by omega))

theorem bit_putFld {n : Nat} (w : BitVec n) (i v : Nat) (h : i < n) : bit (putFld w i i v) i = decide (v % 2 = 1) := by
  simp only [bit_eq_testBit, putFld_toNat_testBit]
  simp [h, Nat.testBit_zero]

/-! ## Registers -/

/-- Every register operation keeps the register file in canonical form. -/
theorem putR_wf {s : Dev} (h : tWf regReset s.regs = true) (a : Nat) (v : Word) : tWf regReset (putR s a v).regs = true :=
  tWf_tSet regReset a v h

theorem setR_wf {s : Dev} (h : tWf regReset s.regs = true) (a hi lo v : Nat) : tWf regReset (setR s a hi lo v).regs = true :=
  putR_wf h a _

theorem resetR_wf {s : Dev} (h : tWf regReset s.regs = true) (p : Nat → Bool) : tWf regReset (resetR s p).regs = true :=
  tWf_tDrop regReset p h

theorem getR_putR {s : Dev} (h : tWf regReset s.regs = true) (a b : Nat) (v : Word) :
    getR (putR s a v) b = if b = a then v else getR s b := tGet_tSet regReset a b v h

theorem getR_setR {s : Dev} (h : tWf regReset s.regs = true) (a hi lo v : Nat) :
    getR (setR s a hi lo v) a = putFld (getR s a) hi lo v := by simp [setR, getR_putR h]

theorem getR_setR_ne {s : Dev} (h : tWf regReset s.regs = true) {a b : Nat} (hb : b ≠ a) (hi lo v : Nat) :
    getR (setR s a hi lo v) b = getR s b := by simp [setR, getR_putR h, hb]

theorem fldR_setR {s : Dev} (h : tWf regReset s.regs = true) (a hi lo v : Nat) (hh : hi < 64) :
    fldR (setR s a hi lo v) a hi lo = v % 2 ^ (hi + 1 - lo) := by simp [fldR, getR_setR h, fld_putFld _ _ _ _ hh]

theorem bitR_setR {s : Dev} (h : tWf regReset s.regs = true) (a i v : Nat) (hi : i < 64) :
    bitR (setR s a i i v) a i = decide (v % 2 = 1) := by simp [bitR, getR_setR h, bit_putFld _ _ _ hi]

theorem fldR_setR_ne {s : Dev} (h : tWf regReset s.regs = true) {a b : Nat} (hb : b ≠ a) (hi lo v hi' lo' : Nat) :
    fldR (setR s a hi lo v) b hi' lo' = fldR s b hi' lo' := by simp [fldR, getR_setR_ne h hb]

theorem fldR_setR_field {s : Dev} (h : tWf regReset s.regs = true) (a hi lo v hi' lo' : Nat) (hf : hi' < lo ∨ hi < lo') :
    fldR (setR s a hi lo v) a hi' lo' = fldR s a hi' lo' := by simp [fldR, getR_setR h, fld_putFld_ne _ _ _ _ _ _ hf]

theorem bitR_setR_ne {s : Dev} (h : tWf regReset s.regs = true) {a b : Nat} (hb : b ≠ a) (hi lo v i : Nat) :
    bitR (setR s a hi lo v) b i = bitR s b i := by simp [bitR, getR_setR_ne h hb]

theorem bitR_setR_field {s : Dev} (h : tWf regReset s.regs = true) (a hi lo v i : Nat) (hf : i < lo ∨ hi < i) :
    bitR (setR s a hi lo v) a i = bitR s a i := by simp [bitR, getR_setR h, bit_putFld_ne _ _ _ _ _ hf]

end Sys2Proof.Machine
end

