-- ==== Sys2Proof/Laws/Faults.lean ====
section
/-! SUPPORT. What raising a fault can change: the group's record, the log, the message of its vector, and, where the source's
reaction is 3, the levels to carry out (R489 to R492). -/

namespace Sys2Proof.Machine

@[simp] theorem sendVector_sectors (s : Dev) (v : Nat) : (sendVector s v).sectors = s.sectors := by unfold sendVector; split <;> simp
@[simp] theorem sendVector_eccLog (s : Dev) (v : Nat) : (sendVector s v).eccLog = s.eccLog := by unfold sendVector; split <;> simp
@[simp] theorem sendVector_thr (s : Dev) (v : Nat) : (sendVector s v).thr = s.thr := by unfold sendVector; split <;> simp
@[simp] theorem sendVector_clk (s : Dev) (v : Nat) : (sendVector s v).clk = s.clk := by unfold sendVector; split <;> simp
@[simp] theorem sendVector_cfg (s : Dev) (v : Nat) : (sendVector s v).cfg = s.cfg := by unfold sendVector; split <;> simp
@[simp] theorem sendVector_net (s : Dev) (v : Nat) : (sendVector s v).net = s.net := by unfold sendVector; split <;> simp
@[simp] theorem sendVector_mem (s : Dev) (v : Nat) : (sendVector s v).mem = s.mem := by unfold sendVector; split <;> simp
@[simp] theorem sendVector_enc (s : Dev) (v : Nat) : (sendVector s v).enc = s.enc := by unfold sendVector; split <;> simp
@[simp] theorem sendVector_cab (s : Dev) (v : Nat) : (sendVector s v).cab = s.cab := by unfold sendVector; split <;> simp
@[simp] theorem sendVector_links (s : Dev) (v : Nat) : (sendVector s v).links = s.links := by unfold sendVector; split <;> simp
@[simp] theorem sendVector_io (s : Dev) (v : Nat) : (sendVector s v).io = s.io := by unfold sendVector; split <;> simp
@[simp] theorem sendVector_tb (s : Dev) (v : Nat) : (sendVector s v).tb = s.tb := by unfold sendVector; split <;> simp
@[simp] theorem sendVector_units (s : Dev) (v : Nat) : (sendVector s v).units = s.units := by unfold sendVector; split <;> simp
@[simp] theorem sendVector_power (s : Dev) (v : Nat) : (sendVector s v).power = s.power := by unfold sendVector; split <;> simp
@[simp] theorem sendVector_bureau (s : Dev) (v : Nat) : (sendVector s v).bureau = s.bureau := by unfold sendVector; split <;> simp
@[simp] theorem sendVector_free (s : Dev) (v : Nat) : (sendVector s v).free = s.free := by unfold sendVector; split <;> simp
@[simp] theorem sendVector_groups (s : Dev) (v : Nat) : (sendVector s v).groups = s.groups := by unfold sendVector; split <;> simp
@[simp] theorem sendVector_flog (s : Dev) (v : Nat) : (sendVector s v).flog = s.flog := by unfold sendVector; split <;> simp
@[simp] theorem sendVector_due (s : Dev) (v : Nat) : (sendVector s v).due = s.due := by unfold sendVector; split <;> simp

@[simp] theorem logFault_sectors (s : Dev) (k i d t : Nat) : (logFault s k i d t).sectors = s.sectors := by unfold logFault; split <;> simp
@[simp] theorem logFault_eccLog (s : Dev) (k i d t : Nat) : (logFault s k i d t).eccLog = s.eccLog := by unfold logFault; split <;> simp
@[simp] theorem logFault_thr (s : Dev) (k i d t : Nat) : (logFault s k i d t).thr = s.thr := by unfold logFault; split <;> simp
@[simp] theorem logFault_clk (s : Dev) (k i d t : Nat) : (logFault s k i d t).clk = s.clk := by unfold logFault; split <;> simp
@[simp] theorem logFault_cfg (s : Dev) (k i d t : Nat) : (logFault s k i d t).cfg = s.cfg := by unfold logFault; split <;> simp
@[simp] theorem logFault_net (s : Dev) (k i d t : Nat) : (logFault s k i d t).net = s.net := by unfold logFault; split <;> simp
@[simp] theorem logFault_mem (s : Dev) (k i d t : Nat) : (logFault s k i d t).mem = s.mem := by unfold logFault; split <;> simp
@[simp] theorem logFault_enc (s : Dev) (k i d t : Nat) : (logFault s k i d t).enc = s.enc := by unfold logFault; split <;> simp
@[simp] theorem logFault_cab (s : Dev) (k i d t : Nat) : (logFault s k i d t).cab = s.cab := by unfold logFault; split <;> simp
@[simp] theorem logFault_links (s : Dev) (k i d t : Nat) : (logFault s k i d t).links = s.links := by unfold logFault; split <;> simp
@[simp] theorem logFault_io (s : Dev) (k i d t : Nat) : (logFault s k i d t).io = s.io := by unfold logFault; split <;> simp
@[simp] theorem logFault_tb (s : Dev) (k i d t : Nat) : (logFault s k i d t).tb = s.tb := by unfold logFault; split <;> simp
@[simp] theorem logFault_units (s : Dev) (k i d t : Nat) : (logFault s k i d t).units = s.units := by unfold logFault; split <;> simp
@[simp] theorem logFault_power (s : Dev) (k i d t : Nat) : (logFault s k i d t).power = s.power := by unfold logFault; split <;> simp
@[simp] theorem logFault_bureau (s : Dev) (k i d t : Nat) : (logFault s k i d t).bureau = s.bureau := by unfold logFault; split <;> simp
@[simp] theorem logFault_free (s : Dev) (k i d t : Nat) : (logFault s k i d t).free = s.free := by unfold logFault; split <;> simp
@[simp] theorem logFault_groups (s : Dev) (k i d t : Nat) : (logFault s k i d t).groups = s.groups := by unfold logFault; split <;> simp
@[simp] theorem logFault_due (s : Dev) (k i d t : Nat) : (logFault s k i d t).due = s.due := by unfold logFault; split <;> simp
@[simp] theorem logFault_out (s : Dev) (k i d t : Nat) : (logFault s k i d t).out = s.out := by unfold logFault; split <;> simp

@[simp] theorem latchFault_sectors (s : Dev) (i d : Nat) : (latchFault s i d).sectors = s.sectors := by unfold latchFault; simp only; split <;> simp
@[simp] theorem latchFault_eccLog (s : Dev) (i d : Nat) : (latchFault s i d).eccLog = s.eccLog := by unfold latchFault; simp only; split <;> simp
@[simp] theorem latchFault_thr (s : Dev) (i d : Nat) : (latchFault s i d).thr = s.thr := by unfold latchFault; simp only; split <;> simp
@[simp] theorem latchFault_clk (s : Dev) (i d : Nat) : (latchFault s i d).clk = s.clk := by unfold latchFault; simp only; split <;> simp
@[simp] theorem latchFault_cfg (s : Dev) (i d : Nat) : (latchFault s i d).cfg = s.cfg := by unfold latchFault; simp only; split <;> simp
@[simp] theorem latchFault_net (s : Dev) (i d : Nat) : (latchFault s i d).net = s.net := by unfold latchFault; simp only; split <;> simp
@[simp] theorem latchFault_mem (s : Dev) (i d : Nat) : (latchFault s i d).mem = s.mem := by unfold latchFault; simp only; split <;> simp
@[simp] theorem latchFault_enc (s : Dev) (i d : Nat) : (latchFault s i d).enc = s.enc := by unfold latchFault; simp only; split <;> simp
@[simp] theorem latchFault_cab (s : Dev) (i d : Nat) : (latchFault s i d).cab = s.cab := by unfold latchFault; simp only; split <;> simp
@[simp] theorem latchFault_links (s : Dev) (i d : Nat) : (latchFault s i d).links = s.links := by unfold latchFault; simp only; split <;> simp
@[simp] theorem latchFault_io (s : Dev) (i d : Nat) : (latchFault s i d).io = s.io := by unfold latchFault; simp only; split <;> simp
@[simp] theorem latchFault_tb (s : Dev) (i d : Nat) : (latchFault s i d).tb = s.tb := by unfold latchFault; simp only; split <;> simp
@[simp] theorem latchFault_units (s : Dev) (i d : Nat) : (latchFault s i d).units = s.units := by unfold latchFault; simp only; split <;> simp
@[simp] theorem latchFault_power (s : Dev) (i d : Nat) : (latchFault s i d).power = s.power := by unfold latchFault; simp only; split <;> simp
@[simp] theorem latchFault_bureau (s : Dev) (i d : Nat) : (latchFault s i d).bureau = s.bureau := by unfold latchFault; simp only; split <;> simp
@[simp] theorem latchFault_free (s : Dev) (i d : Nat) : (latchFault s i d).free = s.free := by unfold latchFault; simp only; split <;> simp
@[simp] theorem latchFault_due (s : Dev) (i d : Nat) : (latchFault s i d).due = s.due := by unfold latchFault; simp only; split <;> simp
@[simp] theorem latchFault_out (s : Dev) (i d : Nat) : (latchFault s i d).out = s.out := by unfold latchFault; simp only; split <;> simp

@[simp] theorem notifyGroup_sectors (s : Dev) (g : Nat) : (notifyGroup s g).sectors = s.sectors := by unfold notifyGroup; split <;> simp
@[simp] theorem notifyGroup_eccLog (s : Dev) (g : Nat) : (notifyGroup s g).eccLog = s.eccLog := by unfold notifyGroup; split <;> simp
@[simp] theorem notifyGroup_thr (s : Dev) (g : Nat) : (notifyGroup s g).thr = s.thr := by unfold notifyGroup; split <;> simp
@[simp] theorem notifyGroup_clk (s : Dev) (g : Nat) : (notifyGroup s g).clk = s.clk := by unfold notifyGroup; split <;> simp
@[simp] theorem notifyGroup_cfg (s : Dev) (g : Nat) : (notifyGroup s g).cfg = s.cfg := by unfold notifyGroup; split <;> simp
@[simp] theorem notifyGroup_net (s : Dev) (g : Nat) : (notifyGroup s g).net = s.net := by unfold notifyGroup; split <;> simp
@[simp] theorem notifyGroup_mem (s : Dev) (g : Nat) : (notifyGroup s g).mem = s.mem := by unfold notifyGroup; split <;> simp
@[simp] theorem notifyGroup_enc (s : Dev) (g : Nat) : (notifyGroup s g).enc = s.enc := by unfold notifyGroup; split <;> simp
@[simp] theorem notifyGroup_cab (s : Dev) (g : Nat) : (notifyGroup s g).cab = s.cab := by unfold notifyGroup; split <;> simp
@[simp] theorem notifyGroup_links (s : Dev) (g : Nat) : (notifyGroup s g).links = s.links := by unfold notifyGroup; split <;> simp
@[simp] theorem notifyGroup_io (s : Dev) (g : Nat) : (notifyGroup s g).io = s.io := by unfold notifyGroup; split <;> simp
@[simp] theorem notifyGroup_tb (s : Dev) (g : Nat) : (notifyGroup s g).tb = s.tb := by unfold notifyGroup; split <;> simp
@[simp] theorem notifyGroup_units (s : Dev) (g : Nat) : (notifyGroup s g).units = s.units := by unfold notifyGroup; split <;> simp
@[simp] theorem notifyGroup_power (s : Dev) (g : Nat) : (notifyGroup s g).power = s.power := by unfold notifyGroup; split <;> simp
@[simp] theorem notifyGroup_bureau (s : Dev) (g : Nat) : (notifyGroup s g).bureau = s.bureau := by unfold notifyGroup; split <;> simp
@[simp] theorem notifyGroup_free (s : Dev) (g : Nat) : (notifyGroup s g).free = s.free := by unfold notifyGroup; split <;> simp
@[simp] theorem notifyGroup_flog (s : Dev) (g : Nat) : (notifyGroup s g).flog = s.flog := by unfold notifyGroup; split <;> simp
@[simp] theorem notifyGroup_due (s : Dev) (g : Nat) : (notifyGroup s g).due = s.due := by unfold notifyGroup; split <;> simp

@[simp] theorem applyLevel_sectors (s : Dev) (g l a : Nat) : (applyLevel s g l a).sectors = s.sectors := by unfold applyLevel; simp only; split <;> simp
@[simp] theorem applyLevel_eccLog (s : Dev) (g l a : Nat) : (applyLevel s g l a).eccLog = s.eccLog := by unfold applyLevel; simp only; split <;> simp
@[simp] theorem applyLevel_thr (s : Dev) (g l a : Nat) : (applyLevel s g l a).thr = s.thr := by unfold applyLevel; simp only; split <;> simp
@[simp] theorem applyLevel_clk (s : Dev) (g l a : Nat) : (applyLevel s g l a).clk = s.clk := by unfold applyLevel; simp only; split <;> simp
@[simp] theorem applyLevel_cfg (s : Dev) (g l a : Nat) : (applyLevel s g l a).cfg = s.cfg := by unfold applyLevel; simp only; split <;> simp
@[simp] theorem applyLevel_net (s : Dev) (g l a : Nat) : (applyLevel s g l a).net = s.net := by unfold applyLevel; simp only; split <;> simp
@[simp] theorem applyLevel_mem (s : Dev) (g l a : Nat) : (applyLevel s g l a).mem = s.mem := by unfold applyLevel; simp only; split <;> simp
@[simp] theorem applyLevel_enc (s : Dev) (g l a : Nat) : (applyLevel s g l a).enc = s.enc := by unfold applyLevel; simp only; split <;> simp
@[simp] theorem applyLevel_cab (s : Dev) (g l a : Nat) : (applyLevel s g l a).cab = s.cab := by unfold applyLevel; simp only; split <;> simp
@[simp] theorem applyLevel_links (s : Dev) (g l a : Nat) : (applyLevel s g l a).links = s.links := by unfold applyLevel; simp only; split <;> simp
@[simp] theorem applyLevel_io (s : Dev) (g l a : Nat) : (applyLevel s g l a).io = s.io := by unfold applyLevel; simp only; split <;> simp
@[simp] theorem applyLevel_tb (s : Dev) (g l a : Nat) : (applyLevel s g l a).tb = s.tb := by unfold applyLevel; simp only; split <;> simp
@[simp] theorem applyLevel_units (s : Dev) (g l a : Nat) : (applyLevel s g l a).units = s.units := by unfold applyLevel; simp only; split <;> simp
@[simp] theorem applyLevel_power (s : Dev) (g l a : Nat) : (applyLevel s g l a).power = s.power := by unfold applyLevel; simp only; split <;> simp
@[simp] theorem applyLevel_bureau (s : Dev) (g l a : Nat) : (applyLevel s g l a).bureau = s.bureau := by unfold applyLevel; simp only; split <;> simp
@[simp] theorem applyLevel_free (s : Dev) (g l a : Nat) : (applyLevel s g l a).free = s.free := by unfold applyLevel; simp only; split <;> simp
@[simp] theorem applyLevel_out (s : Dev) (g l a : Nat) : (applyLevel s g l a).out = s.out := by unfold applyLevel; simp only; split <;> simp

@[simp] theorem escalate_sectors (s : Dev) (i c : Nat) : (escalate s i c).sectors = s.sectors := by unfold escalate; simp only; (repeat' split) <;> simp
@[simp] theorem escalate_eccLog (s : Dev) (i c : Nat) : (escalate s i c).eccLog = s.eccLog := by unfold escalate; simp only; (repeat' split) <;> simp
@[simp] theorem escalate_thr (s : Dev) (i c : Nat) : (escalate s i c).thr = s.thr := by unfold escalate; simp only; (repeat' split) <;> simp
@[simp] theorem escalate_clk (s : Dev) (i c : Nat) : (escalate s i c).clk = s.clk := by unfold escalate; simp only; (repeat' split) <;> simp
@[simp] theorem escalate_cfg (s : Dev) (i c : Nat) : (escalate s i c).cfg = s.cfg := by unfold escalate; simp only; (repeat' split) <;> simp
@[simp] theorem escalate_net (s : Dev) (i c : Nat) : (escalate s i c).net = s.net := by unfold escalate; simp only; (repeat' split) <;> simp
@[simp] theorem escalate_mem (s : Dev) (i c : Nat) : (escalate s i c).mem = s.mem := by unfold escalate; simp only; (repeat' split) <;> simp
@[simp] theorem escalate_enc (s : Dev) (i c : Nat) : (escalate s i c).enc = s.enc := by unfold escalate; simp only; (repeat' split) <;> simp
@[simp] theorem escalate_cab (s : Dev) (i c : Nat) : (escalate s i c).cab = s.cab := by unfold escalate; simp only; (repeat' split) <;> simp
@[simp] theorem escalate_links (s : Dev) (i c : Nat) : (escalate s i c).links = s.links := by unfold escalate; simp only; (repeat' split) <;> simp
@[simp] theorem escalate_io (s : Dev) (i c : Nat) : (escalate s i c).io = s.io := by unfold escalate; simp only; (repeat' split) <;> simp
@[simp] theorem escalate_tb (s : Dev) (i c : Nat) : (escalate s i c).tb = s.tb := by unfold escalate; simp only; (repeat' split) <;> simp
@[simp] theorem escalate_units (s : Dev) (i c : Nat) : (escalate s i c).units = s.units := by unfold escalate; simp only; (repeat' split) <;> simp
@[simp] theorem escalate_power (s : Dev) (i c : Nat) : (escalate s i c).power = s.power := by unfold escalate; simp only; (repeat' split) <;> simp
@[simp] theorem escalate_bureau (s : Dev) (i c : Nat) : (escalate s i c).bureau = s.bureau := by unfold escalate; simp only; (repeat' split) <;> simp
@[simp] theorem escalate_free (s : Dev) (i c : Nat) : (escalate s i c).free = s.free := by unfold escalate; simp only; (repeat' split) <;> simp
@[simp] theorem escalate_out (s : Dev) (i c : Nat) : (escalate s i c).out = s.out := by unfold escalate; simp only; (repeat' split) <;> simp

@[simp] theorem raise_sectors (s : Dev) (i d c : Nat) : (raise s i d c).sectors = s.sectors := by unfold raise; simp only; (repeat' split) <;> simp
@[simp] theorem raise_eccLog (s : Dev) (i d c : Nat) : (raise s i d c).eccLog = s.eccLog := by unfold raise; simp only; (repeat' split) <;> simp
@[simp] theorem raise_thr (s : Dev) (i d c : Nat) : (raise s i d c).thr = s.thr := by unfold raise; simp only; (repeat' split) <;> simp
@[simp] theorem raise_clk (s : Dev) (i d c : Nat) : (raise s i d c).clk = s.clk := by unfold raise; simp only; (repeat' split) <;> simp
@[simp] theorem raise_cfg (s : Dev) (i d c : Nat) : (raise s i d c).cfg = s.cfg := by unfold raise; simp only; (repeat' split) <;> simp
@[simp] theorem raise_net (s : Dev) (i d c : Nat) : (raise s i d c).net = s.net := by unfold raise; simp only; (repeat' split) <;> simp
@[simp] theorem raise_mem (s : Dev) (i d c : Nat) : (raise s i d c).mem = s.mem := by unfold raise; simp only; (repeat' split) <;> simp
@[simp] theorem raise_enc (s : Dev) (i d c : Nat) : (raise s i d c).enc = s.enc := by unfold raise; simp only; (repeat' split) <;> simp
@[simp] theorem raise_cab (s : Dev) (i d c : Nat) : (raise s i d c).cab = s.cab := by unfold raise; simp only; (repeat' split) <;> simp
@[simp] theorem raise_links (s : Dev) (i d c : Nat) : (raise s i d c).links = s.links := by unfold raise; simp only; (repeat' split) <;> simp
@[simp] theorem raise_io (s : Dev) (i d c : Nat) : (raise s i d c).io = s.io := by unfold raise; simp only; (repeat' split) <;> simp
@[simp] theorem raise_tb (s : Dev) (i d c : Nat) : (raise s i d c).tb = s.tb := by unfold raise; simp only; (repeat' split) <;> simp
@[simp] theorem raise_units (s : Dev) (i d c : Nat) : (raise s i d c).units = s.units := by unfold raise; simp only; (repeat' split) <;> simp
@[simp] theorem raise_power (s : Dev) (i d c : Nat) : (raise s i d c).power = s.power := by unfold raise; simp only; (repeat' split) <;> simp
@[simp] theorem raise_bureau (s : Dev) (i d c : Nat) : (raise s i d c).bureau = s.bureau := by unfold raise; simp only; (repeat' split) <;> simp
@[simp] theorem raise_free (s : Dev) (i d c : Nat) : (raise s i d c).free = s.free := by unfold raise; simp only; (repeat' split) <;> simp

@[simp] theorem raiseS_sectors (s : Dev) (i d c : Nat) : (raiseS s i d c).sectors = s.sectors := by simp [raiseS]
@[simp] theorem raiseS_eccLog (s : Dev) (i d c : Nat) : (raiseS s i d c).eccLog = s.eccLog := by simp [raiseS]
@[simp] theorem raiseS_thr (s : Dev) (i d c : Nat) : (raiseS s i d c).thr = s.thr := by simp [raiseS]
@[simp] theorem raiseS_clk (s : Dev) (i d c : Nat) : (raiseS s i d c).clk = s.clk := by simp [raiseS]
@[simp] theorem raiseS_cfg (s : Dev) (i d c : Nat) : (raiseS s i d c).cfg = s.cfg := by simp [raiseS]
@[simp] theorem raiseS_net (s : Dev) (i d c : Nat) : (raiseS s i d c).net = s.net := by simp [raiseS]
@[simp] theorem raiseS_mem (s : Dev) (i d c : Nat) : (raiseS s i d c).mem = s.mem := by simp [raiseS]
@[simp] theorem raiseS_enc (s : Dev) (i d c : Nat) : (raiseS s i d c).enc = s.enc := by simp [raiseS]
@[simp] theorem raiseS_cab (s : Dev) (i d c : Nat) : (raiseS s i d c).cab = s.cab := by simp [raiseS]
@[simp] theorem raiseS_links (s : Dev) (i d c : Nat) : (raiseS s i d c).links = s.links := by simp [raiseS]
@[simp] theorem raiseS_io (s : Dev) (i d c : Nat) : (raiseS s i d c).io = s.io := by simp [raiseS]
@[simp] theorem raiseS_tb (s : Dev) (i d c : Nat) : (raiseS s i d c).tb = s.tb := by simp [raiseS]
@[simp] theorem raiseS_units (s : Dev) (i d c : Nat) : (raiseS s i d c).units = s.units := by simp [raiseS]
@[simp] theorem raiseS_power (s : Dev) (i d c : Nat) : (raiseS s i d c).power = s.power := by simp [raiseS]
@[simp] theorem raiseS_bureau (s : Dev) (i d c : Nat) : (raiseS s i d c).bureau = s.bureau := by simp [raiseS]
@[simp] theorem raiseS_free (s : Dev) (i d c : Nat) : (raiseS s i d c).free = s.free := by simp [raiseS]

@[simp] theorem raiseU_sectors (s : Dev) (i d c : Nat) : (raiseU s i d c).sectors = s.sectors := by simp [raiseU]
@[simp] theorem raiseU_eccLog (s : Dev) (i d c : Nat) : (raiseU s i d c).eccLog = s.eccLog := by simp [raiseU]
@[simp] theorem raiseU_thr (s : Dev) (i d c : Nat) : (raiseU s i d c).thr = s.thr := by simp [raiseU]
@[simp] theorem raiseU_clk (s : Dev) (i d c : Nat) : (raiseU s i d c).clk = s.clk := by simp [raiseU]
@[simp] theorem raiseU_cfg (s : Dev) (i d c : Nat) : (raiseU s i d c).cfg = s.cfg := by simp [raiseU]
@[simp] theorem raiseU_net (s : Dev) (i d c : Nat) : (raiseU s i d c).net = s.net := by simp [raiseU]
@[simp] theorem raiseU_mem (s : Dev) (i d c : Nat) : (raiseU s i d c).mem = s.mem := by simp [raiseU]
@[simp] theorem raiseU_enc (s : Dev) (i d c : Nat) : (raiseU s i d c).enc = s.enc := by simp [raiseU]
@[simp] theorem raiseU_cab (s : Dev) (i d c : Nat) : (raiseU s i d c).cab = s.cab := by simp [raiseU]
@[simp] theorem raiseU_links (s : Dev) (i d c : Nat) : (raiseU s i d c).links = s.links := by simp [raiseU]
@[simp] theorem raiseU_io (s : Dev) (i d c : Nat) : (raiseU s i d c).io = s.io := by simp [raiseU]
@[simp] theorem raiseU_tb (s : Dev) (i d c : Nat) : (raiseU s i d c).tb = s.tb := by simp [raiseU]
@[simp] theorem raiseU_units (s : Dev) (i d c : Nat) : (raiseU s i d c).units = s.units := by simp [raiseU]
@[simp] theorem raiseU_power (s : Dev) (i d c : Nat) : (raiseU s i d c).power = s.power := by simp [raiseU]
@[simp] theorem raiseU_bureau (s : Dev) (i d c : Nat) : (raiseU s i d c).bureau = s.bureau := by simp [raiseU]
@[simp] theorem raiseU_free (s : Dev) (i d c : Nat) : (raiseU s i d c).free = s.free := by simp [raiseU]

@[simp] theorem raiseD_sectors (s : Dev) (i d : Nat) : (raiseD s i d).sectors = s.sectors := by simp [raiseD]
@[simp] theorem raiseD_eccLog (s : Dev) (i d : Nat) : (raiseD s i d).eccLog = s.eccLog := by simp [raiseD]
@[simp] theorem raiseD_thr (s : Dev) (i d : Nat) : (raiseD s i d).thr = s.thr := by simp [raiseD]
@[simp] theorem raiseD_clk (s : Dev) (i d : Nat) : (raiseD s i d).clk = s.clk := by simp [raiseD]
@[simp] theorem raiseD_cfg (s : Dev) (i d : Nat) : (raiseD s i d).cfg = s.cfg := by simp [raiseD]
@[simp] theorem raiseD_net (s : Dev) (i d : Nat) : (raiseD s i d).net = s.net := by simp [raiseD]
@[simp] theorem raiseD_mem (s : Dev) (i d : Nat) : (raiseD s i d).mem = s.mem := by simp [raiseD]
@[simp] theorem raiseD_enc (s : Dev) (i d : Nat) : (raiseD s i d).enc = s.enc := by simp [raiseD]
@[simp] theorem raiseD_cab (s : Dev) (i d : Nat) : (raiseD s i d).cab = s.cab := by simp [raiseD]
@[simp] theorem raiseD_links (s : Dev) (i d : Nat) : (raiseD s i d).links = s.links := by simp [raiseD]
@[simp] theorem raiseD_io (s : Dev) (i d : Nat) : (raiseD s i d).io = s.io := by simp [raiseD]
@[simp] theorem raiseD_tb (s : Dev) (i d : Nat) : (raiseD s i d).tb = s.tb := by simp [raiseD]
@[simp] theorem raiseD_units (s : Dev) (i d : Nat) : (raiseD s i d).units = s.units := by simp [raiseD]
@[simp] theorem raiseD_power (s : Dev) (i d : Nat) : (raiseD s i d).power = s.power := by simp [raiseD]
@[simp] theorem raiseD_bureau (s : Dev) (i d : Nat) : (raiseD s i d).bureau = s.bureau := by simp [raiseD]
@[simp] theorem raiseD_free (s : Dev) (i d : Nat) : (raiseD s i d).free = s.free := by simp [raiseD]

@[simp] theorem raiseC_sectors (s : Dev) (i d : Nat) : (raiseC s i d).sectors = s.sectors := by unfold raiseC; split <;> simp
@[simp] theorem raiseC_eccLog (s : Dev) (i d : Nat) : (raiseC s i d).eccLog = s.eccLog := by unfold raiseC; split <;> simp
@[simp] theorem raiseC_thr (s : Dev) (i d : Nat) : (raiseC s i d).thr = s.thr := by unfold raiseC; split <;> simp
@[simp] theorem raiseC_clk (s : Dev) (i d : Nat) : (raiseC s i d).clk = s.clk := by unfold raiseC; split <;> simp
@[simp] theorem raiseC_cfg (s : Dev) (i d : Nat) : (raiseC s i d).cfg = s.cfg := by unfold raiseC; split <;> simp
@[simp] theorem raiseC_net (s : Dev) (i d : Nat) : (raiseC s i d).net = s.net := by unfold raiseC; split <;> simp
@[simp] theorem raiseC_mem (s : Dev) (i d : Nat) : (raiseC s i d).mem = s.mem := by unfold raiseC; split <;> simp
@[simp] theorem raiseC_enc (s : Dev) (i d : Nat) : (raiseC s i d).enc = s.enc := by unfold raiseC; split <;> simp
@[simp] theorem raiseC_cab (s : Dev) (i d : Nat) : (raiseC s i d).cab = s.cab := by unfold raiseC; split <;> simp
@[simp] theorem raiseC_links (s : Dev) (i d : Nat) : (raiseC s i d).links = s.links := by unfold raiseC; split <;> simp
@[simp] theorem raiseC_io (s : Dev) (i d : Nat) : (raiseC s i d).io = s.io := by unfold raiseC; split <;> simp
@[simp] theorem raiseC_tb (s : Dev) (i d : Nat) : (raiseC s i d).tb = s.tb := by unfold raiseC; split <;> simp
@[simp] theorem raiseC_units (s : Dev) (i d : Nat) : (raiseC s i d).units = s.units := by unfold raiseC; split <;> simp
@[simp] theorem raiseC_power (s : Dev) (i d : Nat) : (raiseC s i d).power = s.power := by unfold raiseC; split <;> simp
@[simp] theorem raiseC_bureau (s : Dev) (i d : Nat) : (raiseC s i d).bureau = s.bureau := by unfold raiseC; split <;> simp
@[simp] theorem raiseC_free (s : Dev) (i d : Nat) : (raiseC s i d).free = s.free := by unfold raiseC; split <;> simp

/-- A source whose reaction is 0 is masked: raising it changes nothing (R489). -/
theorem raise_masked {s : Dev} {i : Nat} (h : reactionOf s i = 0) (d c : Nat) : raise s i d c = s := by simp [raise, h]

/-- A source whose reaction is not 3 applies no level (R489). -/
theorem raise_due {s : Dev} {i : Nat} (h : reactionOf s i ≠ 3) (d c : Nat) : (raise s i d c).due = s.due := by
  unfold raise; simp only
  repeat' split
  all_goals simp_all

/-- The reaction of a source stands in its reaction register. -/
theorem reactionOf_regs {a b : Dev} (h : a.regs = b.regs) (i : Nat) : reactionOf a i = reactionOf b i := by
  simp [reactionOf, fldR, getR, h]

end Sys2Proof.Machine
end

