-- ==== Sys2Proof/Laws/Memory.lean ====
section
/-! SUPPORT. Laws of the memories: writing words keeps their canonical form, and the memories after reset have it. -/

namespace Sys2Proof.Machine

/-- What holds of every entry of a table, and of the unlisted value, holds of every value read. -/
theorem tGet_all {α : Type} {dflt : Nat → α} {p : α → Bool} (h0 : ∀ n, p (dflt n) = true) :
    ∀ {t : Tbl α}, (t.all fun e => p e.2) = true → ∀ n, p (tGet dflt t n) = true
  | [], _, n => h0 n
  | (j, v) :: t, h, n => by
    rw [List.all_cons, Bool.and_eq_true] at h
    unfold tGet
    split
    · exact h0 n
    · split
      · exact h.1
      · exact tGet_all h0 h.2 n

theorem tSet_all {α : Type} [DecidableEq α] {dflt : Nat → α} {p : α → Bool} {v : α} (hv : p v = true) (k : Nat) :
    ∀ {t : Tbl α}, (t.all fun e => p e.2) = true → ((tSet dflt t k v).all fun e => p e.2) = true
  | [], _ => by unfold tSet; split <;> simp [hv]
  | (j, w) :: t, h => by
    have ih := tSet_all (dflt := dflt) hv k (t := t)
    rw [List.all_cons, Bool.and_eq_true] at h
    unfold tSet
    repeat' split
    all_goals simp only [List.all_cons, h.1, h.2, hv, ih h.2, Bool.and_self]

theorem memory_wf_iff {d : Dev} : Memory.wf d = true ↔
    tWf dieDflt d.mem.sram = true ∧ tWf chDflt d.mem.ddr = true ∧ (d.mem.sram.all fun e => tWf (fun _ => none) e.2.arr) = true ∧
      (d.mem.ddr.all fun e => tWf (fun _ => none) e.2.arr) = true := by
  simp only [Memory.wf, Bool.and_eq_true, and_assoc]

theorem memory_wf_updDie (d : Dev) (n : Nat) (f : SramDie → SramDie)
    (hf : ∀ x : SramDie, tWf (fun _ => none) x.arr = true → tWf (fun _ => none) (f x).arr = true) (h : Memory.wf d = true) :
    Memory.wf (updDie d n f) = true := by
  rw [memory_wf_iff] at h ⊢
  refine ⟨tWf_tUpd dieDflt n f h.1, h.2.1, ?_, h.2.2.2⟩
  exact tSet_all (p := fun x : SramDie => tWf (fun _ => none) x.arr)
    (hf _ (tGet_all (p := fun x : SramDie => tWf (fun _ => none) x.arr) (fun _ => rfl) h.2.2.1 n)) n h.2.2.1

theorem memory_wf_updCh (d : Dev) (n : Nat) (f : DdrChan → DdrChan)
    (hf : ∀ x : DdrChan, tWf (fun _ => none) x.arr = true → tWf (fun _ => none) (f x).arr = true) (h : Memory.wf d = true) :
    Memory.wf (updCh d n f) = true := by
  rw [memory_wf_iff] at h ⊢
  refine ⟨h.1, tWf_tUpd chDflt n f h.2.1, h.2.2.1, ?_⟩
  exact tSet_all (p := fun x : DdrChan => tWf (fun _ => none) x.arr)
    (hf _ (tGet_all (p := fun x : DdrChan => tWf (fun _ => none) x.arr) (fun _ => rfl) h.2.2.2 n)) n h.2.2.2

/-- Writing a word keeps the form. -/
theorem memory_wf_memSet (d : Dev) (a : Nat) (v : PWord) (h : Memory.wf d = true) : Memory.wf (memSet d a v) = true := by
  unfold memSet
  generalize plainAddr a = a
  generalize hu : storeUnit d a = u
  generalize hx : (if v = unlistedWord d u a then none else some v) = x
  by_cases h8 : u < 8
  · simp only [hu, h8, if_true]
    exact memory_wf_updCh d _ _ (fun y hy => tWf_tSet _ _ _ hy) h
  · by_cases h12 : u < 12
    · simp only [hu, h8, h12, if_true, if_false]
      exact memory_wf_updDie d _ _ (fun y hy => tWf_tSet _ _ _ hy) h
    · simp only [hu, h8, h12, if_false]
      exact h

/-- Writing a list of words keeps it. -/
theorem memory_wf_memSets (l : List (Nat × PWord)) : ∀ d : Dev, Memory.wf d = true → Memory.wf (memSets d l) = true := by
  induction l with
  | nil => exact fun _ h => h
  | cons x l ih => exact fun d h => ih _ (memory_wf_memSet d x.1 x.2 h)

theorem tUpdAll_all {α : Type} [DecidableEq α] {dflt : Nat → α} {p : α → Bool} (h0 : ∀ n, p (dflt n) = true) {f : Nat → α → α}
    (hf : ∀ n x, p x = true → p (f n x) = true) :
    ∀ (ks : List Nat) {t : Tbl α}, (t.all fun e => p e.2) = true → ((tUpdAll dflt t ks f).all fun e => p e.2) = true
  | [], _, h => h
  | k :: ks, _, h => tUpdAll_all h0 hf ks (tSet_all (hf k _ (tGet_all h0 h k)) k h)

/-- Unlisting what a fill covers keeps it. -/
theorem memory_wf_unlist (f : TreeFill) (d : Dev) (h : Memory.wf d = true) : Memory.wf (unlist f d) = true := by
  rw [memory_wf_iff] at h ⊢
  obtain ⟨h1, h2, h3, h4⟩ := h
  simp only [unlist]
  generalize List.range 8 = chs
  generalize List.range 4 = dies
  exact ⟨tWf_tUpdAll dieDflt _ dies h1, tWf_tUpdAll chDflt _ chs h2,
    tUpdAll_all (p := fun x : SramDie => tWf (fun _ => none) x.arr) (fun _ => rfl)
      (fun n _ hx => tWf_tDrop _ (fun w => (fillWordAt d f (8 + n) (sramBase n + 8 * w)).isSome) hx) dies h3,
    tUpdAll_all (p := fun x : DdrChan => tWf (fun _ => none) x.arr) (fun _ => rfl)
      (fun n _ hx => tWf_tDrop _ (fun w => (fillWordAt d f n (0 + 8 * w)).isSome) hx) chs h4⟩

/-- Losing a memory's contents keeps it. -/
theorem memory_wf_contentsLost (u : Nat) (d : Dev) (h : Memory.wf d = true) : Memory.wf (contentsLost u d) = true := by
  unfold contentsLost
  dsimp only
  split
  · exact memory_wf_updCh _ _ _ (fun _ _ => rfl) h
  · exact memory_wf_updDie _ _ _ (fun _ _ => rfl) h

theorem memory_wf_reset : Memory.wf State.reset.dev = true := by decide

end Sys2Proof.Machine
end

