-- ==== Sys2Proof/Laws/Parts.lean ====
section
/-! SUPPORT. Reading a numbered part of the device after one of them was updated: the updated one, or the one that was there. -/

namespace Sys2Proof.Machine

theorem getCh_updCh {s : Dev} (h : tWf chDflt s.mem.ddr = true) (i j : Nat) (f : DdrChan → DdrChan) :
    getCh (updCh s i f) j = if j = i then f (getCh s i) else getCh s j := tGet_tUpd chDflt i j f h

theorem updCh_wf {s : Dev} (h : tWf chDflt s.mem.ddr = true) (i : Nat) (f : DdrChan → DdrChan) : tWf chDflt (updCh s i f).mem.ddr = true :=
  tWf_tUpd chDflt i f h

theorem getTile_updTile {s : Dev} (h : tWf tileDflt s.cab.tiles = true) (i j : Nat) (f : Tile → Tile) :
    getTile (updTile s i f) j = if j = i then f (getTile s i) else getTile s j := tGet_tUpd tileDflt i j f h

theorem updTile_wf {s : Dev} (h : tWf tileDflt s.cab.tiles = true) (i : Nat) (f : Tile → Tile) : tWf tileDflt (updTile s i f).cab.tiles = true :=
  tWf_tUpd tileDflt i f h

theorem getGroup_updGroup {s : Dev} (h : tWf groupDflt s.groups = true) (i j : Nat) (f : FaultGroup → FaultGroup) :
    getGroup (updGroup s i f) j = if j = i then f (getGroup s i) else getGroup s j := tGet_tUpd groupDflt i j f h

theorem updGroup_wf {s : Dev} (h : tWf groupDflt s.groups = true) (i : Nat) (f : FaultGroup → FaultGroup) : tWf groupDflt (updGroup s i f).groups = true :=
  tWf_tUpd groupDflt i f h

theorem getCell_updCell {s : Dev} (h : tWf cellDflt s.io.cells = true) (i j : Nat) (f : IoCell → IoCell) :
    getCell (updCell s i f) j = if j = i then f (getCell s i) else getCell s j := tGet_tUpd cellDflt i j f h

theorem updCell_wf {s : Dev} (h : tWf cellDflt s.io.cells = true) (i : Nat) (f : IoCell → IoCell) : tWf cellDflt (updCell s i f).io.cells = true :=
  tWf_tUpd cellDflt i f h

theorem getBundle_updBundle {s : Dev} (h : tWf bundleDflt s.links.bundles = true) (i j : Nat) (f : Bundle → Bundle) :
    getBundle (updBundle s i f) j = if j = i then f (getBundle s i) else getBundle s j := tGet_tUpd bundleDflt i j f h

theorem updBundle_wf {s : Dev} (h : tWf bundleDflt s.links.bundles = true) (i : Nat) (f : Bundle → Bundle) : tWf bundleDflt (updBundle s i f).links.bundles = true :=
  tWf_tUpd bundleDflt i f h

theorem getSec_updSec {s : Dev} (h : tWf sectorDflt s.sectors = true) (i j : Nat) (f : Sector → Sector) :
    getSec (updSec s i f) j = if j = i then f (getSec s i) else getSec s j := tGet_tUpd sectorDflt i j f h

theorem updSec_wf {s : Dev} (h : tWf sectorDflt s.sectors = true) (i : Nat) (f : Sector → Sector) : tWf sectorDflt (updSec s i f).sectors = true :=
  tWf_tUpd sectorDflt i f h

theorem getEp_updEp {s : Dev} (h : tWf epDflt s.net.eps = true) (i j : Nat) (f : Endpoint → Endpoint) :
    getEp (updEp s i f) j = if j = i then f (getEp s i) else getEp s j := tGet_tUpd epDflt i j f h

theorem updEp_wf {s : Dev} (h : tWf epDflt s.net.eps = true) (i : Nat) (f : Endpoint → Endpoint) : tWf epDflt (updEp s i f).net.eps = true :=
  tWf_tUpd epDflt i f h

theorem getPcie_updPcie {s : Dev} (h : tWf pcieDflt s.links.pcie = true) (i j : Nat) (f : Pcie → Pcie) :
    getPcie (updPcie s i f) j = if j = i then f (getPcie s i) else getPcie s j := tGet_tUpd pcieDflt i j f h

theorem updPcie_wf {s : Dev} (h : tWf pcieDflt s.links.pcie = true) (i : Nat) (f : Pcie → Pcie) : tWf pcieDflt (updPcie s i f).links.pcie = true :=
  tWf_tUpd pcieDflt i f h

theorem getLane_updLane {s : Dev} (h : tWf laneDflt s.links.lanes.lanes = true) (i j : Nat) (f : Lane → Lane) :
    getLane (updLane s i f) j = if j = i then f (getLane s i) else getLane s j := tGet_tUpd laneDflt i j f h

theorem updLane_wf {s : Dev} (h : tWf laneDflt s.links.lanes.lanes = true) (i : Nat) (f : Lane → Lane) : tWf laneDflt (updLane s i f).links.lanes.lanes = true :=
  tWf_tUpd laneDflt i f h

theorem getDie_updDie {s : Dev} (h : tWf dieDflt s.mem.sram = true) (i j : Nat) (f : SramDie → SramDie) :
    getDie (updDie s i f) j = if j = i then f (getDie s i) else getDie s j := tGet_tUpd dieDflt i j f h

theorem updDie_wf {s : Dev} (h : tWf dieDflt s.mem.sram = true) (i : Nat) (f : SramDie → SramDie) : tWf dieDflt (updDie s i f).mem.sram = true :=
  tWf_tUpd dieDflt i f h

theorem getEng_updEng {s : Dev} (h : tWf engDflt s.enc.engines = true) (i j : Nat) (f : Engine → Engine) :
    getEng (updEng s i f) j = if j = i then f (getEng s i) else getEng s j := tGet_tUpd engDflt i j f h

theorem updEng_wf {s : Dev} (h : tWf engDflt s.enc.engines = true) (i : Nat) (f : Engine → Engine) : tWf engDflt (updEng s i f).enc.engines = true :=
  tWf_tUpd engDflt i f h

theorem getRange_updRange {s : Dev} (h : tWf rangeDflt s.enc.ranges = true) (i j : Nat) (f : KeyRange → KeyRange) :
    getRange (updRange s i f) j = if j = i then f (getRange s i) else getRange s j := tGet_tUpd rangeDflt i j f h

theorem updRange_wf {s : Dev} (h : tWf rangeDflt s.enc.ranges = true) (i : Nat) (f : KeyRange → KeyRange) : tWf rangeDflt (updRange s i f).enc.ranges = true :=
  tWf_tUpd rangeDflt i f h

end Sys2Proof.Machine
end

