-- ==== Sys2Proof/Laws/Routing.lean ====
section
/-! SUPPORT. What routing, the DDR5 burst and the outbound queue's entry can do: one lemma for each, for proofs to cite. -/

namespace Sys2Proof.Machine

/-! ## Routing -/

theorem axisStep_lt (up : Bool) {size x : Nat} (reach : Nat) (hx : x < size) (hr : reach ≤ size) : (axisStep up size reach x).1 < size := by
  unfold axisStep
  split <;> split <;> dsimp only <;> omega

theorem nextSector_quadrant {i d j : Nat} (h : nextSector i d = some j) : j < 64 ∧ j / 16 = i / 16 := by
  unfold nextSector at h
  split at h
  · simp at h
  · split at h <;> split at h <;> simp at h <;> omega

/-- A wire ends in a tile of a sector of its own quadrant (R64, R65). -/
theorem wireEnd_within {i : Nat} (w : Wire) (hi : i < 64) :
    (wireEnd i w).1 < 64 ∧ (wireEnd i w).1 / 16 = i / 16 ∧ (wireEnd i w).2.1 < 138 ∧ (wireEnd i w).2.2 < 96 := by
  have hu := w.u.isLt
  have hv := w.v.isLt
  have hr : wireReach w.cls ≤ 32 := by cases w.cls <;> decide
  have a := axisStep_lt (decide (w.dir.val < 2)) (wireReach w.cls) hv (by omega)
  have b := axisStep_lt (decide (w.dir.val < 2)) (wireReach w.cls) hu (by omega)
  unfold wireEnd
  dsimp only
  split
  · rename_i y hy
    by_cases c : w.dir.val % 2 = 0 <;> simp [c] at hy ⊢ <;> simp [hy] at a b <;> omega
  · rename_i y j hy hj
    have q : nextSector i w.dir.val = some j := by split at hj <;> simp_all
    have := nextSector_quadrant q
    by_cases c : w.dir.val % 2 = 0 <;> simp [c] at hy ⊢ <;> simp [hy] at a b <;> omega
  · by_cases c : w.dir.val % 2 = 0 <;> simp [c] <;> split <;> omega

/-- A wire that is no thirty-two ends in its own sector (R64). -/
theorem wireEnd_sector {w : Wire} (h : w.cls ≠ .thirtyTwo) (i : Nat) : (wireEnd i w).1 = i := by
  unfold wireEnd
  simp only [h, if_false]
  split
  · split <;> rfl
  · simp_all
  · split <;> rfl

/-- Driving multiplexers changes sectors only; `sameBut` asks that nothing has been sent, so `out` is listed. -/
theorem driveWires_same (i : Nat) (ds : List WireDrive) (s : Dev) : sameBut [.sectors, .out] s (driveWires i ds s) := by
  have refl : sameBut [.sectors, .out] s s := by constructor <;> simp
  have step : ∀ (f : Dev → WireDrive → Dev), (∀ t d, sameBut [.sectors, .out] s t → sameBut [.sectors, .out] s (f t d)) →
      ∀ (ds : List WireDrive) (t : Dev), sameBut [.sectors, .out] s t → sameBut [.sectors, .out] s (ds.foldl f t) := by
    intro f hf ds
    induction ds with
    | nil => exact fun t h => h
    | cons d ds ih => exact fun t h => ih _ (hf t d h)
  unfold driveWires
  extract_lets live l
  refine if h : (!live) = true then by rw [if_pos h]; exact refl else ?_
  rw [if_neg h]
  refine step _ (fun t d h => ?_) ds s refl
  dsimp only
  split
  · obtain ⟨⟩ := h
    constructor <;> simp_all
  · exact h

/-! ## The burst of a line (R38) -/

/-- The two beats of a word hold the word. -/
theorem word_of_beats (w : PWord) :
    w.extractLsb' 72 8 ++ w.extractLsb' 40 32 ++ w.extractLsb' 32 8 ++ w.extractLsb' 0 32 = w := by
  apply BitVec.eq_of_getElem_eq
  intro i hi
  simp only [BitVec.getElem_append, BitVec.getElem_extractLsb']
  split
  · simp [BitVec.getLsbD_eq_getElem hi]
  · split
    · rw [BitVec.getLsbD_eq_getElem (by omega)]; congr 1; omega
    · split <;> (rw [BitVec.getLsbD_eq_getElem (by omega)]; congr 1; omega)

/-- A burst brings the words that were sent. -/
@[simp] theorem burstLine_lineBurst (ws : List PWord) : burstLine (lineBurst ws) = ws := by
  induction ws with
  | nil => rfl
  | cons w ws ih => simpa [lineBurst, burstLine, word_of_beats] using ih

/-! ## The outbound queue (R277) -/

/-- One entry moves at most one parcel, the first that waits, to the end of a queue that had room; every other endpoint stays. -/
theorem enterOne_spec (k : Nat) (s : Dev) :
    enterOne k s = s ∨ ∃ p ps, (getEp s k).entering = p :: ps ∧ (getEp s k).outq.length < 32 ∧
      enterOne k s = updEp s k fun e => { e with entering := ps, outq := e.outq ++ [p] } := by
  unfold enterOne
  dsimp only
  split
  · exact .inl rfl
  · rename_i p ps h
    split
    · exact .inr ⟨p, ps, h, ‹_›, rfl⟩
    · exact .inl rfl

end Sys2Proof.Machine
end

