-- ==== Sys2Proof/Machine/Package.lean ====
section
/-! DEFINITION. Supplies, package and ordering (R520, R531 to R534, R537 to R541): what chapter 23 gives as tables. No command reads
them; the millivolts of a rail are operands of its rows. -/

namespace Sys2Proof.Machine

/-! ## Rails and power -/

/-- The rails of R520 with a fixed nominal value: name, lower and upper end of the operating range in tenths of a millivolt. -/
def railRanges : List (String × Nat × Nat) :=
  [("VCC_FAB", 7275, 7725), ("VCC_NOC", 7275, 7725), ("VCC_CFG", 7760, 8240), ("VCC_MGT", 7760, 8240),
    ("VCC_MGTA", 11640, 12360), ("VCC_QDR", 8730, 9270), ("VDDQ_DDR", 10670, 11330), ("VCC_AUX", 17100, 18900),
    ("VCC_MGMT", 7760, 8240), ("VCAB_D", 8730, 9270), ("VCAB_A", 47500, 52500), ("VCAB_IO", 31350, 34650)]

/-- The nominal values of a bank supply in millivolts (R520): VCC_IO_HP, VCC_IO_HV. -/
def bankNominals (hv : Bool) : List Nat := if hv then [1800, 2500, 3300] else [1000, 1200, 1350, 1500, 1800]

/-- A bank supply lies within its operating range: a nominal value ± 5 %. -/
def bankInRange (hv : Bool) (mv : Nat) : Bool := (bankNominals hv).any fun n => decide (19 * n ≤ 20 * mv ∧ 20 * mv ≤ 21 * n)

/-- The power budget of R531 in watts. -/
def powerBudget : List (String × Nat) :=
  [("Fabric logic and routing", 68), ("Benches", 18), ("Drawers and Runners", 9), ("Network", 9), ("Lanes", 36), ("DDR5", 14),
    ("SRAM", 10), ("Management", 3), ("Cabinet", 3), ("I/O banks", 10)]

/-- What a sector draws at most from VCC_FAB and VCC_CFG, in milliwatts (R532). -/
def sectorDraw (st : SecState) (clocks : Bool) : Nat × Nat :=
  match st with
  | .offRetained => (0, 6)
  | .offLost => (0, 0)
  | .active | .fenced => (if clocks then 1480 else 350, 4)
  | _ => (350, 4)

/-- The junction temperature range of a grade in °C: E, I (R533). -/
def gradeRange (industrial : Bool) : Int × Int := (if industrial then -40 else 0, 100)

/-! ## Balls -/

/-- The nineteen letters of a row name, in order (R537). -/
def rowLetters : List Char := "ABCDEFGHJKLMNPTUVWY".toList

/-- The name of row `r`, 1 to 70 (R537). -/
def rowName (r : Nat) : String :=
  let letter := fun n => nth 'A' rowLetters n
  if r ≤ 19 then String.ofList [letter (r - 1)] else String.ofList [letter ((r - 20) / 19), letter ((r - 20) % 19)]

/-- A grid position holds a ball (R538). -/
def hasBall (r c : Nat) : Bool :=
  let centre := 23 ≤ r && r ≤ 48 && 23 ≤ c && c ≤ 48
  let corner := (r ≤ 3 || 68 ≤ r) && (c ≤ 4 || 67 ≤ c)
  1 ≤ r && r ≤ 70 && 1 ≤ c && c ≤ 70 && !centre && !corner

/-- The balls of a row, and of the package. -/
def ballsOfRow (r : Nat) : Nat := ((List.range 70).filter fun c => hasBall r (c + 1)).length

def ballCount : Nat := foldNat (fun n r => n + ballsOfRow (r + 1)) 0 (List.range 70)

/-- The groups of balls (R539). -/
def ballGroups : List (String × Nat) :=
  [("User I/O", 480), ("Lanes", 512), ("PCIE_REFCLK, PCIE_PERST_N", 12), ("DDR5", 1296), ("Cabinet signals", 101),
    ("Configuration port", 23), ("RST_N, CONF_ERR_N, DONE, FAULT_N", 4), ("SLOT_ID, XO, CHREF, STAR_IN, STAR_OUT", 14),
    ("JTAG, management SPI port, TEST_MODE", 10), ("IO_PULL", 4), ("VCC_FAB", 240), ("VCC_NOC", 24), ("VCC_CFG", 16),
    ("VCC_MGT", 64), ("VCC_MGTA", 32), ("VCC_AUX", 12), ("VCC_MGMT", 12), ("VCC_QDR", 32), ("VDDQ_DDR", 80),
    ("VCC_IO_HP", 48), ("VCC_IO_HV", 8), ("VCAB_D", 6), ("VCAB_A", 8), ("VCAB_IO", 4), ("CAB_AGND", 48), ("GND", 1078),
    ("Reserved", 8)]

/-- Row and column of a ball of tile `t`: `k` is 0 to 3 for MEAS_P, MEAS_N, SRC_P, SRC_N (R540). -/
def tileBall (t k : Nat) : Nat × Nat := (20 + t / 2, nth 0 [1, 2, 4, 5] k + 6 * (t % 2))

/-- The Cabinet's balls of rows AN, AP and AT, by column (R540). -/
def cabinetBall (r c : Nat) : String :=
  match r with
  | 32 => nth "GND" ["", "CREF", "CREF_GND", "GND", "CXO_IN", "CXO_OUT", "GND", "CAB_RST_N", "GND", "VCAB_IO", "VCAB_IO", "VCAB_IO",
      "VCAB_IO"] c
  | 33 => if c ≤ 6 then "VCAB_D" else "GND"
  | 34 => if c ≤ 8 then "VCAB_A" else "GND"
  | _ => if c % 3 = 0 then "CAB_AGND" else ""

/-- An ordering code (R541): speed grade -1 or -2, temperature grade E or I. -/
def orderingCode (speed2 industrial : Bool) : String :=
  "VXM-1260-" ++ (if speed2 then "2" else "1") ++ (if industrial then "I" else "E") ++ "-B4176"

/-- What a part of one code promises another part promises too: every limit of the lower grades (R541). -/
def meetsGrade (speed2 industrial speed2' industrial' : Bool) : Bool := (speed2 || !speed2') && (industrial || !industrial')

end Sys2Proof.Machine
end

