-- ==== Sys2Proof/Tests/Slice0.lean ====
section
/-! SUPPORT. Tests: the well-formedness smoke, single steps with results taken from the spec, and for each statement a state and operands
that meet the hypotheses of each of its clauses. -/

open Sys2Proof Sys2Proof.Machine

namespace Sys2Proof.Tests

set_option Elab.async false

/-! ## Tools for witnesses -/

/-- No level waits, and no reload without a commit. -/
def calmEnd (d : Dev) : Bool := d.due.isEmpty && (!d.cfg.boot.reload || d.cfg.commit.isSome)

theorem settled_of {s : State} (h : calmEnd s.dev = true) : s.settled := by
  simp only [calmEnd, Bool.and_eq_true, Bool.or_eq_true, Bool.not_eq_true', List.isEmpty_iff] at h
  exact ⟨h.1, fun r => h.2.resolve_left (by simp [r])⟩

theorem ready_of {s : State} (h : (mainUp s.dev && calmEnd s.dev) = true) : s.ready := by
  rw [Bool.and_eq_true] at h
  exact ⟨h.1, settled_of h.2⟩

theorem steady_of {s : State} (h : (mainUp s.dev && calmEnd s.dev && tWf regReset s.dev.regs) = true) : s.steady := by
  rw [Bool.and_eq_true] at h
  exact ⟨ready_of h.1, h.2⟩

theorem noneDue_of {s : State} (h : (List.finRange 9).all (fun n => !trigArmed s.dev n.val || decide (time80 s.dev < trigTime s.dev n.val)) = true) :
    s.noneDue := by
  intro n hn
  have := List.all_eq_true.mp h n (List.mem_finRange n)
  simpa [hn] using this

theorem mailbox_of {s : State} {op : Nat} {words : List (Nat × Nat)}
    (h : (s.dev.bureau.mbx.run.isSome && mbxIs op words s.dev) = true) : s.mailbox op words := by
  rw [Bool.and_eq_true] at h
  exact h

/-- Every source of group g but FLT_TEMP_CRIT has a reaction below 3. -/
def groupCalm (d : Dev) (g : Nat) : Bool :=
  (List.range (groupSources g)).all fun i => 512 * g + i == fltTempCrit || reactionOf d (512 * g + i) != 3

theorem calm_of {s : State} (h : (List.range 8).all (groupCalm s.dev) = true) : s.calm := by
  intro id hid hne
  simp only [isSource, Bool.and_eq_true, decide_eq_true_eq] at hid
  have hg := List.all_eq_true.mp h (id / 512) (by simp only [List.mem_range]; omega)
  have hi := List.all_eq_true.mp hg (id % 512) (by simpa using hid.2)
  rw [show 512 * (id / 512) + id % 512 = id by omega] at hi
  simpa [hne] using hi

theorem arr_wf {α : Type} {dflt : Nat → α} {arr : α → Tbl (Option PWord)} (h0 : ∀ n, arr (dflt n) = []) :
    ∀ {t : Tbl α}, (t.all fun e => tWf (fun _ => none) (arr e.2)) = true → ∀ n, tWf (fun _ => none) (arr (tGet dflt t n)) = true
  | [], _, n => by rw [tGet_nil, h0]; rfl
  | (j, v) :: t, h, n => by
    rw [List.all_cons, Bool.and_eq_true] at h
    unfold tGet
    split
    · rw [h0]; rfl
    · split
      · exact h.1
      · exact arr_wf h0 h.2 n

/-- Kept apart from the search through every bit vector. -/
theorem words_of {l : List PWord} {p : PWord → Prop} [DecidablePred p] (h : @decide (∀ w ∈ l, p w) (List.decidableBAll p l) = true) :
    ∀ w ∈ l, p w := @of_decide_eq_true _ (List.decidableBAll p l) h

/-! ## States for tests and witnesses -/

/-- Registers with fields set one after another. -/
def setRs (d : Dev) (l : List (Nat × Nat × Nat × Nat)) : Dev := l.foldl (fun d x => setR d x.1 x.2.1 x.2.2.1 x.2.2.2) d
/-- Every reaction of a group's first 32 sources at 0. -/
def calm0 (d : Dev) (g : Nat) : Dev := putR d (rReact g 0) 0
/-- The main network runs. -/
def netOn : Clocks := { plls := [(1, .locked), (2, .locked)] }
/-- A fabric attachment of S00 with these fields, clocked by global line 0, whose endpoint holds this. -/
def attOn (g : AttCfg) (e : Endpoint) : State :=
  ⟨[], { clk := { plls := [(1, .locked), (2, .locked)], glines := [(0, { selA := 24 })] }
         sectors := [(0, { state := .active, gsr := false, clocks := true, fresh := false })]
         cfg := { frames := [(frameKey 0 0 0, { meaning := [.attachment 0 g], written := [.attachment 0 g] })] }
         net := { eps := [(132, e)] } }⟩
/-- Its default fields on line 0. -/
def att0 : AttCfg := { clk := { sel := 0 } }
/-- A wrapped key of mode 2, under the device key of bytes 0 to 31. -/
def wrapped0 : List Word :=
  [14838615408237715385, 2425814013711522103, 13338852212393881774, 5781889753109334163, 10473883229137926786,
   14718534126029395277, 11403378782087755946, 5637592222530015465, 17452104556623267072, 17283697587937430480]
/-- The mailbox runs a command. -/
def mbxRuns (op : Nat) (args : List Word) : Mailbox := { run := some { opcode := op, seq := 0, args } }
/-- The same, with a device key burned. -/
def keyRuns (op : Nat) (args : List Word) : Bureau := { mbx := mbxRuns op args, keys := { devKey := some (List.range 32) } }
/-- A commit of region 15, which is S63, that has reached an event. -/
def commitAt (e : Nat) : CommitRun := { set := [63], region := 15, rollback := false, event := e, prior := [(1084, .active)] }
/-- A base image whose region 15 is S63. -/
def base15 : BaseImage := { imageId := 9, mask := 2 ^ 63, regions := List.replicate 15 0 ++ [2 ^ 63] }
/-- Words without poison. -/
def asImage (l : List Word) : ImageWords := l.map (·, false)
/-- A full image for S63, and a partial one for region 15: one FRAMES section of one word. -/
def imgFull : ImageWords := asImage
  [36028811385917766, 9, 20203526160384, 9223372036854775808, 4294901760, 0, 0, 549755813889, 184, 0, 0, 0, 0, 0, 0,
   286060526, 618475290625, 10099518470153568264, 0, 1280463942, 0, 0, 2999413609]
def imgPart : ImageWords := asImage
  [36028811385917766, 9, 20203526160384, 9223372036854775808, 4294905601, 9, 0, 549755813889, 184, 0, 0, 0, 0, 0, 0,
   408542636, 618475290625, 10099518470153568264, 0, 1280463942, 0, 0, 2999413609]
/-- A load of the full image. -/
def fullLoad (next : Nat) (leaves : List (Nat × Nat)) (sections : List SectionEntry) : Load :=
  { source := .store, copy := some 0, image := imgFull, isPartial := false, region := 0, header := (imgWords imgFull).take 16, sections, next, started := true, leaves }
/-- A section of one word. -/
def sec1 (kind : Nat) (crc : Nat) : SectionEntry := { offset := 144, kind, encrypted := false, crc, length := 8 }
/-- A frame record of zeros for frame 1535 of S63. -/
def recWords : ImageWords := asImage [0x200000001, 130559, 0x817F, 548225443, 0]
/-- S63 in a state, alone in region 15; the mailbox runs a command. -/
def regionAt (st : SecState) (op : Nat) (arg : Word) : Dev :=
  { sectors := [(63, { state := st, gsr := false, clocks := true, fresh := false })], cfg := { base := some base15, done := true }, bureau := { mbx := mbxRuns op [arg] } }
/-- A running sequence of region 15. -/
def seqAt (c : RegionCmd) (e : Nat) (p : SecState) (n : Nat) : RegionSeq := { region := 15, cmd := c, event := e, prior := p, switches := n }
/-- S63 in a state, with a running sequence; the mailbox runs the command. -/
def regionRuns (st : SecState) (op : Nat) (q : RegionSeq) : Dev :=
  { sectors := [(63, { state := st, gsr := false, clocks := true, ffs := [(5, true)] })], cfg := { base := some base15, regions := [q], done := true }, bureau := { mbx := mbxRuns op [15] } }
/-- An attachment of S63 has a parcel to send. -/
def sending (d : Dev) : Dev := { d with net := { eps := [(1084, { state := .fenced, epoch := 3, outq := [mkParcel {} zeroPayload] })] } }
/-- The ledger word of a frame of zeros in a leaf of sequence 0. -/
def zeroEntry : PWord := clean (548225443 * 2 ^ 32)
/-- S63 with a leaf whose source carries frame 1535 as zeros. -/
def repairable (sched : List Nat) : Dev :=
  { sectors := [(63, { state := .active })]
    cfg := { done := true, index := [(frameKey 63 0 1535, encodeWord (indexWord 0 0) false)]
             frames := [(frameKey 63 0 1535, { words := [(3, 8)], meaning := [.userOk false], written := [.userOk true] })]
             ledger := [(frameKey 63 0 1535, zeroEntry)], leaves := [(126, { state := .active })], repair := [(126, some 1)]
             store := [(1, { valid := true, seq := 1, image := asImage ([0, 0, 0, 0, 0, 0, 0, 0x8000000001, 200, 0, 0, 0, 0, 0, 0, 0, 0x9000000001, 32] ++ [0x200000001, 130559, 0x817F, 548225443]) })]
             scrub := { waiting := [frameKey 63 0 1535], scheduled := sched } } }
/-- P0 is up in its full function. -/
def hostUp : Links := { pcie := [(0, { perstHigh := true, state := .up, up := [0], full := true })] }
/-- The scrubber of the quadrant of S63 at frame 1534, whose words are `w`, in a leaf of sequence `seq`. -/
def scrubAt (w : List (Nat × Word)) (seq : Nat) (c : Scrub) : Dev :=
  let at' : ScrubCopy := { pos := [(3, 24574)] }
  { sectors := [(63, { state := .active })]
    cfg := { done := true, leaves := [(126, { state := .active, seq })], ledger := [(frameKey 63 0 1534, zeroEntry)]
             frames := [(frameKey 63 0 1534, { words := w, written := [.userOk true] })]
             scrub := { c with pos := [(3, 24574)], second := at', third := at' } } }
/-- A frame of S63 that its image carries, with this source. -/
def unsourced (sched : List Nat) (src : Option Nat) : Dev :=
  { sectors := [(63, { state := .active })]
    cfg := { done := true, ledger := [(frameKey 63 0 1535, clean 5)], leaves := [(126, { state := .active })]
             index := [(frameKey 63 0 1535, encodeWord (indexWord 0 0) false)], repair := [(126, src)]
             scrub := { waiting := [frameKey 63 0 1535], scheduled := sched } } }
/-- S63 runs with these items on global line 0, which a clock-capable input drives. -/
def fab (l : List Setting) (f : Sector → Sector) : Dev :=
  { clk := { glines := [(96, { selA := 24 })] }
    sectors := [(63, f { state := .active, gsr := false, clocks := true, fresh := false })]
    cfg := { frames := [(frameKey 63 0 0, { meaning := l, written := l })] } }
/-- A Drawer and its Runner in S63. -/
def fabDr (g : DrawerCfg) (x : Drawer) : State := ⟨[], fab [.drawer 127 g] fun c => { c with drawers := [(127, x)] }⟩
/-- A Hinge in S63. -/
def fabHi (g : HingeCfg) (x : Hinge) : State := ⟨[], fab [.hinge 63 g] fun c => { c with hinges := [(63, x)] }⟩
/-- Line 0 without inversion. -/
def line0 : ClkSel := { sel := 0 }
def drRaw : DrawerCfg := { clkA := line0, clkB := line0, raw := true, writeModeA := 2 }
def drQ (m : RunnerMode) : DrawerCfg := { clkA := line0, clkB := line0, runner := m, delay := 5 }
def hiOf (k : HingeKind) : HingeCfg := { kind := k, srcClk := line0, dstClk := line0, width := 79 }
/-- Lane n in a mode, of a quad that runs at 10.3125 Gbaud. -/
def laneOn (n mode : Nat) (l : Lane) : Dev :=
  setRs { clk := { plls := [(1, .locked), (31 + n / 4, .locked)] }, cfg := { done := true }, links := { lanes := { lanes := [(n, l)] } } }
    [(rQuadCfg (n / 4), 63, 63, 1), (rQuadCfg (n / 4), 24, 0, 10312500), (rLaneCfg n, 2, 0, mode)]
/-- Bundle 31 is enabled over lanes 124 to 127, which are in a stage. -/
def bundle31 (st : Stage) (x : Bundle) : Dev :=
  let d := laneOn 127 4 { stage := st }
  setRs { d with sectors := [(quadSector 31, { state := .active, gsr := false, clocks := true, fresh := false })]
                 cfg := { d.cfg with frames := [(frameKey (quadSector 31) 0 0, { meaning := [.bridge true], written := [.bridge true] })] }
                 links := { d.links with lanes := { lanes := [124, 125, 126, 127].map fun n => (n, { stage := st }) }, bundles := if x = {} then [] else [(31, x)] } }
    [(rLaneCfg 124, 2, 0, 4), (rLaneCfg 125, 2, 0, 4), (rLaneCfg 126, 2, 0, 4), (rLinkCfg 31, 63, 63, 1), (rLinkCfg 31, 2, 0, 2)]
/-- The CAP words that the partner of bundle 31 sends. -/
def capFor (d : Dev) : List Word :=
  let w := (capWords d 31 127).map fun x => x
  let w0 := nth 0 w 0
  let w := [w0 - nbits w0 17 17 * 2 ^ 17 + (1 - nbits w0 17 17) * 2 ^ 17, nth 0 w 1, nth 0 w 2]
  (w ++ [crc16 (w.flatMap (leB 6))]).map fun x => BitVec.ofNat 64 x
/-- A parcel of a read that the bridge of bundle 31 received. -/
def bridgeRead : Parcel := mkParcel { dst := bridgeKey 31 / 4, dstPort := 1, op := 0, src := 34, srcPort := 1, tag := 4095, last := true } zeroPayload
/-- A wrapped key of mode 1, under the same device key. -/
def wrapped1 : List Word :=
  [130330125934003221, 13241492247198741188, 14852835978493299276, 13264369396123514550, 11700634536223529341,
   1780310569209660135, 14522430124350118837, 13917270309055194332, 1418111799912595978, 9291317104978039407]
/-- A request of endpoint 137 with tag 4095 that endpoint k holds complete. -/
def heldAt (k : Nat) (x : Issue) : Reasm :=
  let p := nth (mkParcel {} zeroPayload) (requestParcels 137 0 4095 (k / 4) (k % 4) x) 0
  { src := 34, port := 1, tag := 4095, req := some p, data := (List.range (x.len + 1)).map fun i => (i, nth [] x.data i) }
/-- The request that a target reads from it. -/
def reqAt (k : Nat) (x : Issue) : MemReq := let r := heldAt k x; memReq r (r.req.getD (mkParcel {} zeroPayload))
/-- A read of one word. -/
def readWord (a : Nat) : Issue := rangeIssue .rd a (List.replicate 8 (some (0, false))) 0
/-- A write of one word. -/
def writeWord (a : Nat) : Issue := rangeIssue .wr a (List.replicate 8 (some (5, false))) 0
/-- P3's first link is up; its endpoint holds a read through the outbound window. -/
def outDev (open' : Bool) : Dev :=
  setRs { links := { pcie := [(3, { perstHigh := true, state := .up, up := [0], full := true })] }
          net := { eps := [(pcieKey 3, { state := .active, tokens := 4, reasm := [heldAt (pcieKey 3) (readWord (2 ^ 47 + 8))] })] } }
    [(rOutwin 3, 63, 63, open'.toNat), (rOutwin 3, 28, 0, 77)]
def takenBy (d : Dev) : Dev := (takeRequest (pcieKey 3) 34 1 4095 none (gather (pcieKey 3) { d with out := [] })).2
/-- The same while the link has every read outstanding. -/
def outFull : Dev :=
  { outDev true with links := { pcie := [(3, { perstHigh := true, state := .up, up := [0], full := true, out :=
      ((List.range 256).map fun i => ({ req := reqAt (pcieKey 3) (readWord (2 ^ 47 + 8)), left := [(i, 8, 8)] } : Outbound)) })] } }
/-- The same with the read sent to the host. -/
def outSent : Dev :=
  { links := { pcie := [(3, { perstHigh := true, state := .up, up := [0], full := true, out := [{ req := reqAt (pcieKey 3) (readWord (2 ^ 47 + 8)), left := [(5, 8, 8)] }] })] } }
/-- Engine 3 of P3, which runs on a ring of 16. -/
def dma3 (x : Dma) : Dev :=
  setRs { links := { pcie := [(3, { perstHigh := true, state := .up, up := [0], full := true, dmas := if x = {} then [] else [(3, x)] })] } }
    [(rRingCfg 3 3, 63, 63, 1), (rRingTail 3 3, 19, 0, 5), (rRingBase 3 3, 63, 6, 77)]
/-- A descriptor with nothing left to issue. -/
def runEnd (c : Nat) : DmaRun := { host := 64, toHost := true, irq := false, dev := 2 ^ 46, length := 32, moved := 32, code := c }
/-- Table port 3 on a line that a clock-capable input drives. -/
def tp3 (x : SramDie) : Dev :=
  { clk := { glines := [(96, { selA := 24 })] }, sectors := [(62, { state := .active, gsr := false, clocks := true, fresh := false })]
    cfg := { frames := [(frameKey 62 0 0, { meaning := [.tablePort line0 false], written := [.tablePort line0 false] })] }
    mem := { sram := if x = {} then [] else [(3, x)] } }
/-- Die 3 with one access. -/
def die3 (a : SramAcc) : Dev := { clk := { plls := [(1, .locked), (30, .locked)] }, mem := { sram := [(3, { filled := true, accs := [a] })] } }
def sWord : Nat := 2 ^ 46 + 3 * 2 ^ 26 + 2 ^ 26 - 8
def accOf (x : Issue) : SramAcc := { req := reqAt (dieKey 3) x, left := [sWord] }
/-- Channel 7 is the one in service. -/
def oneCh (c : DdrChan) : Dev :=
  { clk := { plls := [(1, .locked), (26, .locked)] }, mem := { ddr := [(7, c)] }, units := { ddr := (List.range 7).map fun n => (n, .train) } }
def chReady : DdrChan := { state := .ready, cap := 16, ranks := 1, boot := false, firstFill := true }
/-- A transaction of one line, and its entry. -/
def ddrTxn (x : Issue) (l : List Nat) : DdrTxn := { id := 3, req := reqAt (chKey 7) x, lines := l, waiting := [] }
def ddrEnt (s : Nat) (k : EntryKind) (data : List (Nat × PWord)) : DdrEntry := { seq := s, txn := 3, line := 77, kind := k, data }
def dLine : Nat := 77 * 64
/-- The rows of line 77 are open. -/
def rows77 : List (Nat × Option Nat) := [(bankOf (oneCh chReady) 77, some (rowOf (oneCh chReady) 77))]
def chW : DdrChan := { chReady with txns := [ddrTxn (readWord dLine) [77]], sub0 := { reads := [ddrEnt 2 .read []], writes := [ddrEnt 1 .write [(dLine, clean 5)]], openRows := rows77 } }
def chR (o : List (Nat × Option Nat)) : DdrChan := { chReady with txns := [ddrTxn (readWord dLine) [77]], sub0 := { reads := [ddrEnt 2 .read []], openRows := o } }
/-- Sub-channel 1 has issued a write of line 77, which replaced clean 4, and one failure has come. -/
def chCrc : DdrChan :=
  { chReady with sub1 := { wcrcRun := 1, last := some (ddrEnt 1 .write [(dLine, clean 5)], [(dLine, clean 4)]) }
                 arr := [(wordIdx dLine, some (clean 5))] }
/-- DDR_CTRL of channel 7 with a field set. -/
def ctl7 (d : Dev) (hi lo v : Nat) : Dev := setR d (rDdrCtrl 7) hi lo v
def wholeDev : List Part → Dev := fun _ => {}
/-- A sealed image with an empty FRAMES section, which declares tile 23; its signature has r = s. -/
def sealedImg : ImageWords := asImage
  [36028811385917766, 3, 20207821127681, 0, 2, 0, 0, 549755813891, 464, 0, 0, 0, 0, 0, 0, 1264191423, 755914244097, 0, 755914244102,
   15813698198049914944, 1030792151045, 192, 8388608, 20, 0, 0, 0, 0, 0, 0, 14147408825459431563, 18085674644964930474,
   3795942765629572485, 545486038138006033, 14727837039769809709, 567268357836841327, 17375825415396144915, 6725792146648432571,
   16298929892517791626, 3165024944288389874, 13167516329482370415, 6942984040936426857, 157119024682847187, 1501211425770835322,
   3520082077665963800, 13402100267563582119, 6789768380365708336, 3987505305491798463, 157119024682847187, 1501211425770835322,
   3520082077665963800, 13402100267563582119, 6789768380365708336, 3987505305491798463, 1280463942, 0, 0, 2999413609]
def sealedCrc : Nat := 4277578391
def sealHash : Nat := 15884742018113815822662875392983361057212010061732318875024264257751531002045648427419888818600420699411805198862585
/-- A token that adds the first key, of both roles, and one that acknowledges the export of record 1. -/
def keyToken : List Word :=
  [5608526915, 0, 3298534883328, 16328259936575710777, 12251607607171614488, 7039258733449947712, 5670743154688507074,
   4438581124232531405, 7634640367718353238, 8630957107264675345, 7486149851309947991, 14235871546377046258, 12719121810258486863,
   16615927592594147383, 13584102788750359562, 3312749871216633487, 14260366791954356239, 16780083820383980328, 16941012060528285836,
   3745842646571579185, 4211360323024995352, 9820044447622970408, 18365483720884789234, 18041396998575845293, 5772625138701588525,
   12892602134869181835, 16271706182006411012, 10191571184678339252, 15997820728188504867, 17224298569061209726, 9954543763815289054,
   8279584475527980744, 3221583525522935999]
def exportToken : List Word :=
  [18493428803, 0, 1, 3070430742535696643, 15956462624902858893, 4459242153327165343, 3914779215416286653, 5762295013221410683,
   16206351608078644316, 8630957107264675345, 7486149851309947991, 14235871546377046258, 12719121810258486863, 16615927592594147383,
   13584102788750359562, 3312749871216633487, 14260366791954356239, 16780083820383980328, 16941012060528285836, 3745842646571579185,
   4211360323024995352, 9820044447622970408, 18365483720884789234, 18041396998575845293, 5772625138701588525, 12892602134869181835,
   16271706182006411012, 1864089217388979081, 2276764058904882575, 16158689577805728693, 17052929778991706810, 12860363711420068989,
   11037427774054773907]
def tokenHash : Nat := 16307492849364852338524089408982786676823592156074129109133804906579849550895073267587690794027672534451314197161529
/-- The Cabinet runs leaf 0 with these items. -/
def cabOn (l : List Setting) (c : Cabinet → Cabinet) : Dev :=
  { cab := c { active := some 0, state := .running, leaves := [{ decl := { srcTiles := 2 ^ 23 } }, {}] }
    cfg := { leaves := [(128, { state := .active, seq := 5 })], frames := if l = [] then [] else [(frameKey 64 0 0, { meaning := l, written := l })] } }
def tile23 : List Setting := [.tile 23 { measEn := true, adcDiv := 3, adcPhase := 1, srcEn := true, dacDiv := 2, ifClk := line0 }]
def onTile (x : Tile) : Dev := cabOn tile23 fun c => { c with sw := { cur := 1 }, slot := 4999999, reduced := false, tiles := if x = {} then [] else [(23, x)] }
/-- S12 runs with the ports of the Cabinet on global line 0. -/
def s12On (c : Cabinet → Cabinet) : Dev :=
  let d := cabOn [] c
  { d with
    clk := { glines := [(0, { selA := 24 })] }
    sectors := [(12, { state := .active, gsr := false, clocks := true, fresh := false })]
    cfg := { d.cfg with frames := [(frameKey 12 0 0, { meaning := [.cabPort false line0, .cabPort true line0], written := [.cabPort false line0, .cabPort true line0] })] } }
/-- A signing entry for sealed images. -/
def sealOtp : List (Nat × SealEntry) := [(3, { hash := sealHash, role := 1, programmed := true })]
/-- The sealed image in copy 3 of the store. -/
def sealStore (d : Dev) : Dev :=
  { d with cfg := { d.cfg with store := [(copyKey 2 1 1, { valid := true, seq := 1, length := 464, crc := sealedCrc, image := sealedImg })] }, cab := { d.cab with otp := sealOtp } }
def loadRun (e : Nat) (mb : Bool) : CabRun := { opcode := 0x10, change := .load 1 1, event := e, image := sealedImg, mailbox := mb }
/-- Leaf 1 of the Cabinet holds the sealed image, RETIRED. -/
def rollbackReady : Dev :=
  let d := sealStore (cabOn [] fun c => { c with leaves := [{ decl := { srcTiles := 2 ^ 23 } }, { digest := ofLe (imageDigest (imgWords sealedImg)), version := 1, signer := 3, decl := imageDecl sealedImg }] })
  { d with cfg := { d.cfg with leaves := [(128, { state := .active, seq := 5 }), (129, { state := .retired, seq := 4 })] } }
def staged (l : List Word) (c : Cabinet) : Cabinet := { c with staging := l.zipIdx.filterMap fun x => if x.1 = 0 then none else some (x.2, x.1) }
/-- A complete request at the gateway. -/
def gwDev (x : Issue) : Dev := { (sealStore (cabOn [] id)) with net := { eps := [(gwKey, { state := .active, tokens := 4, reasm := [heldAt gwKey x] })] } }
def gwTake (x : Issue) : Dev := (takeRequest gwKey 34 1 4095 none (gather gwKey { gwDev x with out := [] })).2
/-- A write of bytes at an offset of the gateway window. -/
def gwWr (off : Nat) (l : List (BitVec 8)) : Issue := rangeIssue .wr (gwBase + off) (l.map fun b => some (b, false)) 0
def gwRd : Issue := rangeIssue .rd (gwBase + 0x7FF8) (List.replicate 8 (some (0, false))) 0
/-- The ring engine runs over 8,192 bytes. -/
def ringDev (off rd : Nat) : Dev :=
  { cabOn [] (fun c => { c with ringRun := true, ringOff := off, nonLegal := [(0, BitVec.ofNat 64 (2 ^ 63 + 2 ^ 46)), (1, 8192)] ++ (if rd = 0 then [] else [(2, BitVec.ofNat 64 rd)]) }) with clk := netOn }

theorem unwraps_of {d : Dev} {kek : List Nat} (b : Bureau) (hb : b.keys.devKey = some kek) (h : d.bureau.keys.devKey = some kek)
    (ws : List Word) : unwrapKey d ws = unwrapKey { bureau := b } ws := by
  unfold unwrapKey
  rw [h]
  simp only [hb]

theorem unwraps0 {d : Dev} (h : d.bureau.keys.devKey = some (List.range 32)) :
    unwrapKey d wrapped0 = (0, 2, List.replicate 32 7 ++ List.replicate 32 0) :=
  (unwraps_of (keyRuns 0 []) rfl h wrapped0).trans (by decide +kernel)

theorem unwraps1 {d : Dev} (h : d.bureau.keys.devKey = some (List.range 32)) : unwrapKey d wrapped1 = (0, 1, List.range 64) :=
  (unwraps_of (keyRuns 0 []) rfl h wrapped1).trans (by decide +kernel)


/-! ## Well-formedness: each check refuses a term that breaks it -/

theorem test_wf_refuses_empty_write : (Instr.registerWrite .mspi 0 [] false 0).wf = false := by decide
theorem test_wf_refuses_empty_read : (Instr.bar0Access 0 true (.rd 0 [])).wf = false := by decide
theorem test_wf_refuses_empty_bar2_write : (Instr.bar2Access 0 0 0 true (.wr 0 [] false)).wf = false := by decide
theorem test_wf_refuses_cabinet_frame : (Instr.ledgerRecompute 64 0 512 false).wf = false := by decide
theorem test_wf_takes_cabinet_frame : (Instr.ledgerRecompute 64 0 511 false).wf = true := by decide
theorem test_wf_refuses_frame_bit : (Instr.configurationUpset 0 0 0 [24576] []).wf = false := by decide
theorem test_wf_refuses_slot : (Instr.loadImage (.store 0 8 0 false)).wf = false := by decide
theorem test_wf_refuses_store_slot : (Instr.storeWrite 2 2 false false [] .ok).wf = false := by decide
theorem test_wf_refuses_read_with_data : (Instr.userRequest ⟨0, 0⟩ { op := .rd, addr := 0, data := [[]] }).wf = false := by decide
theorem test_wf_refuses_short_write : (Instr.userRequest ⟨0, 0⟩ { op := .wr, addr := 0, data := [] }).wf = false := by decide
theorem test_wf_refuses_cas_operands : (Instr.userRequest ⟨0, 0⟩ { op := .cas, addr := 0, operands := [(1, false)] }).wf = false := by decide
theorem test_wf_refuses_wrapped_key : (Instr.keyLoadLoad 1 0 [1, 2]).wf = false := by decide
theorem test_wf_refuses_device_key : (Instr.keystoreDevkey [1, 2, 3]).wf = false := by decide
theorem test_wf_refuses_key_hash : (Instr.keystoreSignAdd 0 [1]).wf = false := by decide
theorem test_wf_refuses_token : (Instr.cabAckExport [1]).wf = false := by decide
theorem test_wf_refuses_ring_block : (Instr.ringEngineBlock []).wf = false := by decide
theorem test_wf_refuses_banks : (Instr.railsInRange [1]).wf = false := by decide
theorem test_wf_refuses_no_rail : (Instr.railWaitTimeout [] (List.replicate 10 0)).wf = false := by decide

/-! ## Functions on the manual's worked examples -/

/-- "Worked examples" of chapter 4: X = 1,048,579 by Y = −2 in WIDE mode. -/
theorem test_bench_wide : (benchSums { mode := .wide } { a := [3, 1], b := [0xFFFFE, 0xFFFFF] }).1 = -2097158 := by decide +kernel

/-- The same chapter: X = Y = −2^39 gives 2^78. -/
theorem test_bench_wide_largest : (benchSums { mode := .wide } { a := [0, 0x80000], b := [0, 0x80000] }).1 = 2 ^ 78 := by decide +kernel

/-- The same chapter: 31,457,542,144 and 47,186,051,072 shifted by 19 in the four rounding modes. -/
theorem test_bench_rounding :
    ([0, 1, 2, 3].map fun m => (roundShift m 31457542144 19, roundShift m 47186051072 19)) =
      [(60000, 90000), (60001, 90000), (60000, 90000), (60000, 90000)] := by decide +kernel

/-- The same chapter: h0·x[1] in COMPLEX mode. -/
theorem test_bench_complex :
    benchSums { mode := .complex } { a := [BitVec.ofInt 20 200001, BitVec.ofInt 20 60000], b := [BitVec.ofInt 20 262144, BitVec.ofInt 20 131072] } =
      (44564742144, 41943171072) := by decide +kernel

/-- The range of the worked example of chapter 15, with the share of engine 3. -/
def exampleShare : TreeGeo :=
  { mem := 0, base := 0x1000000000, size := 8 * 2 ^ 30, metaBase := 0x2000000000, engines := List.range 8, share := 3 }

/-- Chapter 15: 2^24 lines, the levels, and a slice of 155,492,352 bytes. -/
theorem test_tree_geometry :
    exampleShare.lines = 2 ^ 24 ∧ exampleShare.levels = [262144, 32768, 4096, 512, 64, 8] ∧ exampleShare.sliceSize = 155492352 := by
  decide +kernel

/-- Chapter 15: the addresses of the walk, and the index g. -/
theorem test_tree_addresses :
    exampleShare.slice = 0x201BCDE000 ∧ exampleShare.tagAddr 513 = 0x201BCDF008 ∧ exampleShare.nodeAddr 3 0 = 0x20250DE000 ∧
      exampleShare.nodeAddr 2 1 = 0x2024EDE040 ∧ exampleShare.nodeAddr 1 8 = 0x2023CDE200 ∧ exampleShare.nodeTagAddr 1 8 = 0x2024CDE040 ∧
      exampleShare.global 513 = 50332161 := by decide +kernel

/-- Eight channels of 16 GiB. -/
def eightChannels : Dev := { mem := { ddr := (List.range 8).map fun n => (n, { state := .ready, cap := 16 }) } }

/-- Chapter 15: offset 0x10_0004_2040 lies on C3, as line 513 of share 3. -/
theorem test_interleave : ddrChannel eightChannels 0x1000042040 = 3 ∧ exampleShare.lineOf 0x1000042040 = 513 := by decide +kernel

/-- "Frame ledger" of chapter 8: a frame with bits 5 and 100 set has syndrome 99 and parity 0; with bit 5 cleared, 101 and 1. -/
theorem test_frame_syndrome :
    (frameSyndrome [2 ^ 5, 2 ^ 36], frameParity [2 ^ 5, 2 ^ 36], frameSyndrome [0, 2 ^ 36], frameParity [0, 2 ^ 36]) =
      (99, false, 101, true) := by decide +kernel

/-- R29 to R31: one bit of a stored word in error is corrected, and the poison bit is carried. -/
theorem test_word_code :
    (decodeWord (encodeWord 0x0123456789ABCDEF true ^^^ BitVec.ofNat 80 (2 ^ 64))) =
      { outcome := .corrected1, data := 0x0123456789ABCDEF, poison := true } := by decide +kernel

/-- Chapter 13: the attachment of S37's west router has address 0x0C3, and C4's router is at (2, 9). -/
theorem test_router_addresses : sectorRouter 37 0 = 0x0C3 ∧ ddrAddr 4 = rAddr 2 9 := by decide +kernel

/-- FIPS 197, appendix C.3 (outside the manual, which names AES-256): the cipher under key 00 to 1F. -/
theorem test_aes :
    aesEnc (List.range 32) ((List.range 16).map (17 * ·)) =
      [0x8e, 0xa2, 0xb7, 0xca, 0x51, 0x67, 0x45, 0xbf, 0xea, 0xfc, 0x49, 0x90, 0x4b, 0x49, 0x60, 0x89] := by decide +kernel

/-- The check value of CRC-32C over "123456789" (outside the manual, which gives the polynomial and the two inversions). -/
theorem test_crc32c : crc32c [0x31, 0x32, 0x33, 0x34, 0x35, 0x36, 0x37, 0x38, 0x39] = 0xE3069283 := by decide +kernel

/-! ## Single steps -/

/-- The device after the command at the front of the queue, where a step answers a next state. -/
def after (c : Instr) (d : Dev) : Option Dev :=
  match step ⟨[c], d⟩ with
  | .next s => if s.pending = [] then some s.dev else none
  | _ => none

/-- What `f` shows of the device after a command. -/
def shows [DecidableEq α] (c : Instr) (d : Dev) (f : Dev → α) (v : α) : Bool := (after c d).map f = some v

/-- An empty queue leaves the state as it is. -/
theorem test_idle : (match step ⟨[], {}⟩ with | .next s => decide (s = ⟨[], {}⟩) | _ => false) = true := by decide +kernel

/-- R43, R44: a clear of a unit's counters, with a corrected word in the same cycle, leaves 1. -/
theorem test_ecc_clear : shows (.eccCntClr 64 1) {} (fun d => (fldR d (rEccCnt 64) 15 0, fldR d (rEccCnt 64) 47 32)) (1, 0) = true := by
  decide +kernel

/-- R132: a write of the global gate. -/
theorem test_gate : shows (.gclkGateWrite 3 0x80000001) {} (fun d => tGet (fun _ => 0) d.clk.gates 3) 0x80000001 = true := by decide +kernel

/-- R512: a path that claims a claimed mailbox does not get it. -/
theorem test_claim :
    shows (.mbxClaim .mspi) (setR {} rMbxClaim 1 0 (pathCode .bar0)) (fun d => fldR d rMbxClaim 1 0) (pathCode .bar0) = true := by
  decide +kernel

/-- R484: a pulse ends. -/
theorem test_pulse : shows (.triggerPulseEnd 8) { tb := { pulse := [(8, some true)] } } (fun d => d.tb.pulse.length) 0 = true := by
  decide +kernel

/-- R483: an enabled edge is captured with its stamp. -/
theorem test_capture : shows (.captureEdge 8 true 77) (setR {} rCapCfg 17 17 1) (fun d => d.tb.queue.map (·.time)) [77] = true := by decide +kernel

/-- R516: a signing entry burned once stays. -/
theorem test_sign_once :
    shows (.keystoreSignAdd 3 [1, 2, 3, 4, 5, 6])
      { bureau := { mbx := mbxRuns 0x0404 [3 * 2 ^ 60 + 3, 1, 2, 3, 4, 5, 6], keys := { sign := [(3, { hash := 9, programmed := true })] } } }
      (fun d => (getSign d 3).hash) 9 = true := by decide +kernel

/-- R229: fencing a region turns its sector FENCED. -/
theorem test_fence : shows (.regionFence 15) (regionAt .active 0x0301 15) (fun d => (getSec d 63).state) .fenced = true := by
  decide +kernel

/-- R411: a source at its current limit. -/
theorem test_source_limit :
    shows (.sourceCurrentLimit 23 true) (cabOn [] id) (fun d => (getTile d 23).limit) true = true := by decide +kernel

/-- R523: while the main side is down a write of the global gate reaches nothing. -/
theorem test_down :
    shows (.gclkGateWrite 3 5) { power := { por := true } } (fun d => tGet (fun _ => 0) d.clk.gates 3) 0 = true := by decide +kernel

/-- R537, R538: the first and last rows of each letter; balls of an edge row, a row of the centre field and the whole package. -/
theorem test_rows : [1, 19, 20, 38, 39, 57, 58, 70].map rowName = ["A", "Y", "AA", "AY", "BA", "BY", "CA", "CN"] := by decide +kernel

theorem test_balls : (ballsOfRow 1, ballsOfRow 23, ballCount) = (62, 44, 4176) := by decide +kernel

/-- R539: the groups make up every ball. -/
theorem test_ball_groups : foldNat (fun n g => n + g.2) 0 ballGroups = 4176 := by decide +kernel

/-- R64: a single at the edge of its sector ends in the last tile; a thirty-two enters the next sector of its quadrant, and ends at the
quadrant's edge. -/
theorem test_wire_end :
    [wireEnd 0 ⟨.single, 1, 0, 137, 5⟩, wireEnd 0 ⟨.thirtyTwo, 1, 1, 120, 5⟩, wireEnd 3 ⟨.thirtyTwo, 1, 1, 120, 5⟩,
      wireEnd 4 ⟨.thirtyTwo, 0, 0, 7, 70⟩] = [(0, 137, 5), (1, 14, 5), (3, 137, 5), (0, 7, 6)] := by decide +kernel

theorem test_reset_up : mainUp State.reset.dev = true := by decide

/-! ## Witnesses: each clause's hypotheses met together -/


theorem met_ClockSourcesAndPlls :
    (∃ (s : State) (count : BitVec 24), s.ready ∧ s.dev.clk.xo.state = .judging ∧ (judgeWindow (fldR s.dev rRefCfg 23 0) (tolSteps s.dev)
      count.toNat s.dev.clk.xo).state ≠ .failed) ∧
    (∃ (s : State) (count : BitVec 24) (k : Nat), s.ready ∧ s.dev.clk.xo.state = .judging ∧ matchClass (fldR s.dev rRefCfg 23 0) (tolSteps
      s.dev) count.toNat = some k ∧ s.dev.clk.xo.good = 7 ∧ s.dev.clk.xo.last = k) ∧
    (∃ (s : State), s.ready) ∧
    (∃ (s : State), s.ready ∧ s.dev.clk.pll1Src = 0 ∧ s.dev.clk.xo.state = .stable ∧ s.dev.clk.reduced = false ∧ s.dev.clk.mgmt =
      { cur := 0 }) ∧
    (∃ (s : State) (p : Fin 63), s.ready ∧ 2 < p.val ∧ p.val < 31 ∧ pllState s.dev p.val = .locking ∧ pllHasRef s.dev p.val = true) ∧
    (∃ (s : State) (p : Fin 63), s.ready ∧ p.val ≠ 1 ∧ pllRuns s.dev p.val = true ∧ reactionOf s.dev fltPllUnlock ≠ 3) :=
  ⟨⟨⟨[], { clk := { xo := { state := .judging } } }⟩, 8192, ready_of (by decide +kernel), by decide +kernel⟩,
  ⟨⟨[], { clk := { xo := { state := .judging, good := 7, last := 5 } } }⟩, 51200, 5, ready_of (by decide +kernel), by decide +kernel⟩,
  ⟨⟨[], { clk := { xo := { state := .tripped } } }⟩, ready_of (by decide +kernel)⟩,
  ⟨⟨[], { clk := { xo := { state := .stable } } }⟩, ready_of (by decide +kernel), by decide +kernel⟩,
  ⟨⟨[], { clk := { plls := [(1, .locked), (30, .locking)] } }⟩, 30, ready_of (by decide +kernel), by decide +kernel⟩,
  ⟨⟨[], { clk := { plls := [(0, .locked)] } }⟩, 0, ready_of (by decide +kernel), by decide +kernel⟩⟩

theorem met_ClockSwitches :
    (∃ (s : State) (t : Nat), s.ready ∧ s.dev.clk.mgmt.target = some t) ∧
    (∃ (s : State) (t : Nat), s.ready ∧ s.dev.clk.mgmt.target = some t ∧ s.dev.clk.mgmt.connected = false) ∧
    (∃ (s : State) (t : Nat), s.ready ∧ s.dev.clk.mgmt.target = some t ∧ s.dev.clk.mgmt.connected = true ∧ s.dev.clk.mgmt.queued = none) ∧
    (∃ (s : State) (t q : Nat), s.ready ∧ s.dev.clk.mgmt.target = some t ∧ s.dev.clk.mgmt.connected = true ∧ s.dev.clk.mgmt.queued = some q ∧
      q ≠ t) ∧
    (∃ (s : State), s.ready) ∧
    (∃ (s : State), s.ready ∧ tWf (fun _ => 0) s.dev.clk.gates = true) ∧
    (∃ (s : State), s.ready ∧ tWf sectorDflt s.dev.sectors = true) :=
  ⟨⟨⟨[], { clk := { mgmt := { cur := 0, target := some 1 } } }⟩, 1, ready_of (by decide +kernel), by decide +kernel⟩,
  ⟨⟨[], { clk := { mgmt := { cur := 0, target := some 1 } } }⟩, 1, ready_of (by decide +kernel), by decide +kernel⟩,
  ⟨⟨[], { clk := { mgmt := { cur := 0, target := some 1, connected := true } } }⟩, 1, ready_of (by decide +kernel), by decide +kernel⟩,
  ⟨⟨[], { clk := { mgmt := { cur := 0, target := some 1, connected := true, queued := some 0 } } }⟩, 1, 0, ready_of (by decide +kernel),
    by decide +kernel⟩,
  ⟨⟨[], {}⟩, ready_of (by decide +kernel)⟩,
  ⟨⟨[], { clk := { gates := [(1, 7)] } }⟩, ready_of (by decide +kernel), by decide +kernel⟩,
  ⟨⟨[], { sectors := [(3, { clocks := true })] }⟩, ready_of (by decide +kernel), by decide +kernel⟩⟩

theorem met_TimebaseReferencesAndMonitors :
    (∃ (s : State), s.ready ∧ streamGood s.dev = true ∧ (s.dev.clk.reduced = false ∨ s.dev.clk.xo.state = .stable)) ∧
    (∃ (s : State), s.ready ∧ s.dev.clk.reduced = true ∧ s.dev.clk.xo.state ≠ .stable ∧ tWf regReset s.dev.regs = true) ∧
    (∃ (s : State), s.ready ∧ s.dev.clk.xo.state = .stable) ∧
    (∃ (s : State), s.ready) ∧
    (∃ (s : State), s.ready ∧ s.dev.clk.xo.state ≠ .stable ∧ tWf regReset s.dev.regs = true) ∧
    (∃ (s : State), s.ready ∧ bitR s.dev rTbClkCtrl 8 = true ∧ tbTarget s.dev ≤ 1 ∧ s.dev.clk.xo.state = .stable ∧ s.dev.clk.tb =
      { cur := 2 }) ∧
    (∃ (s : State) (n : Fin 13), s.ready ∧ (n.val = 0 ∨ n.val = 9 ∨ n.val = 10) ∧ bitR s.dev (rClkMon n.val) 63 = true ∧ reactionOf s.dev
      fltClkMissing = 0 ∧ tWf regReset s.dev.regs = true) ∧
    (∃ (s : State) (n : Fin 11) (count : BitVec 24), s.ready ∧ bitR s.dev (rClkMon n.val) 63 = true ∧ fldR s.dev (rClkMon n.val) 23 0 ≤
      count.toNat ∧ count.toNat ≤ fldR s.dev (rClkMon n.val) 47 24 ∧ tWf regReset s.dev.regs = true) :=
  ⟨⟨⟨[], setR { links := { lanes := { lanes := [(0, { stage := .active })] } } } (rLaneCfg 0) 2 0 5⟩, ready_of (by decide +kernel),
    by decide +kernel⟩,
  ⟨⟨[], { clk := { reduced := true } }⟩, ready_of (by decide +kernel), by decide +kernel⟩,
  ⟨⟨[], { clk := { xo := { state := .stable } } }⟩, ready_of (by decide +kernel), by decide +kernel⟩,
  ⟨⟨[], {}⟩, ready_of (by decide +kernel)⟩,
  ⟨⟨[], {}⟩, ready_of (by decide +kernel), by decide +kernel⟩,
  ⟨⟨[], setRs { clk := { xo := { state := .stable } } } [(rTbClkCtrl, 8, 8, 1), (rTbClkCtrl, 17, 16, 1)]⟩, ready_of (by decide +kernel),
    by decide +kernel⟩,
  ⟨⟨[], calm0 (setR {} (rClkMon 10) 63 63 1) 2⟩, 10, ready_of (by decide +kernel), by decide +kernel⟩,
  ⟨⟨[], setRs {} [(rClkMon 10, 63, 63, 1), (rClkMon 10, 47, 24, 9), (rClkMon 10, 23, 0, 5)]⟩, 10, 9, ready_of (by decide +kernel),
    by decide +kernel⟩⟩

theorem met_DeviceTimeAndStream :
    (∃ (s : State), s.ready ∧ s.noneDue ∧ s.dev.clk.tb.connected = false ∧ s.dev.clk.tb.cur = 2 ∧ fldR s.dev rTbCtrl 31 0 = 0) ∧
    (∃ (s : State), s.ready ∧ s.dev.clk.tb.connected = true) ∧
    (∃ (s : State) (lo hi : Nat), s.ready ∧ s.noneDue ∧ s.dev.tb.mode ≠ .stream ∧ fldR s.dev (rTbSet 0) 63 0 = lo ∧ fldR s.dev (rTbSet 1) 15 0
      = hi) ∧
    (∃ (s : State), s.steady ∧ s.dev.tb.mode = .stream) ∧
    (∃ (s : State) (d1 d2 : Word) (blocks : Nat), s.steady ∧ streamActive s.dev = true ∧ (timeCodeOf d1 d2).isCode = true ∧ (rxCode
      s.dev.links.stream (timeCodeOf d1 d2) blocks).step = none) ∧
    (∃ (s : State), s.ready ∧ s.dev.links.stream.state = .locked) :=
  ⟨⟨⟨[], {}⟩, ready_of (by decide +kernel), noneDue_of (by decide +kernel), by decide +kernel⟩,
  ⟨⟨[], { clk := { tb := { cur := 2, target := some 1, connected := true } } }⟩, ready_of (by decide +kernel), by decide +kernel⟩,
  ⟨⟨[], setR (setR {} (rTbSet 0) 63 0 77) (rTbSet 1) 15 0 65535⟩, 77, 65535, ready_of (by decide +kernel), noneDue_of (by decide +kernel),
    by decide +kernel⟩,
  ⟨⟨[], { tb := { mode := .stream } }⟩, steady_of (by decide +kernel), by decide +kernel⟩,
  ⟨⟨[], setR { links := { lanes := { lanes := [(0, { stage := .active })] } } } (rLaneCfg 0) 2 0 5⟩, 0xD1, 0xD2, 0, steady_of
    (by decide +kernel), by decide +kernel⟩,
  ⟨⟨[], { links := { stream := { state := .locked } }, tb := { mode := .stream } }⟩, ready_of (by decide +kernel), by decide +kernel⟩⟩

theorem met_CaptureAndTriggers :
    (∃ (s : State) (src : Fin 9) (falling : Bool) (stamp : BitVec 80), s.ready ∧ (src.val < 8 → tGet (fun _ => false) s.dev.io.bankHiZ 8 =
      false) ∧ bitR s.dev rCapCfg (2 * src.val + falling.toNat) = true ∧ (tGet (fun _ => none) s.dev.tb.lastEdge src.val).all (fun p =>
      stamp.toNat < p || 10 * 2 ^ 32 ≤ (stamp.toNat - p) * 1000000000) = true ∧ s.dev.tb.queue.length < 64) ∧
    (∃ (q : List Capture) (c : Capture), (∀ x ∈ q, x.time ≠ c.time)) ∧
    (∃ (s : State) (src : Fin 9) (falling : Bool) (stamp : BitVec 80) (p : Nat), s.steady ∧ (src.val < 8 → tGet (fun _ => false)
      s.dev.io.bankHiZ 8 = false) ∧ bitR s.dev rCapCfg (2 * src.val + falling.toNat) = true ∧ tGet (fun _ => none) s.dev.tb.lastEdge src.val =
      some p ∧ p ≤ stamp.toNat ∧ (stamp.toNat - p) * 1000000000 < 10 * 2 ^ 32) ∧
    (∃ (s : State) (src : Fin 9) (falling : Bool) (stamp : BitVec 80), s.steady ∧ (src.val < 8 → tGet (fun _ => false) s.dev.io.bankHiZ 8 =
      false) ∧ bitR s.dev rCapCfg (2 * src.val + falling.toNat) = true ∧ (tGet (fun _ => none) s.dev.tb.lastEdge src.val).all (fun p =>
      stamp.toNat < p || 10 * 2 ^ 32 ≤ (stamp.toNat - p) * 1000000000) = true ∧ 64 ≤ s.dev.tb.queue.length) ∧
    (∃ (s : State) (src : Fin 9) (falling : Bool), s.ready ∧ (src.val < 8 → tGet (fun _ => false) s.dev.io.bankHiZ 8 = false) ∧ bitR s.dev
      rCapCfg (2 * src.val + falling.toNat) = false) ∧
    (∃ (s : State) (src : Fin 9), s.ready ∧ src.val < 8 ∧ tGet (fun _ => false) s.dev.io.bankHiZ 8 = true) ∧
    (∃ (s : State), s.ready) ∧
    (∃ (s : State), s.steady) ∧
    (∃ (s : State), s.steady ∧ s.noneDue) ∧
    (∃ (s : State), s.steady ∧ s.noneDue) ∧
    (∃ (s : State) (n : Fin 9), s.steady ∧ trigArmed s.dev n.val = true ∧ trigTime s.dev n.val ≤ time80 s.dev) ∧
    (∃ (s : State) (n : Fin 9), s.ready ∧ (trigArmed s.dev n.val = false ∨ time80 s.dev < trigTime s.dev n.val)) ∧
    (∃ (s : State) (n : Fin 9) (level : Bool), s.ready ∧ tGet (fun _ => none) s.dev.tb.pulse n.val = some level) ∧
    (∃ (s : State) (n : Fin 9), s.ready ∧ tGet (fun _ => none) s.dev.tb.pulse n.val = none) :=
  ⟨⟨⟨[], setR { tb := { lastEdge := [(8, some 5)], queue := [{ time := 5, mode := .free, falling := false, source := 8 }] } } rCapCfg 17 17
    1⟩, 8, true, 42949672965, ready_of (by decide +kernel), by decide +kernel⟩,
  ⟨[{ time := 5, mode := .free, falling := false, source := 8 }], { time := 6, mode := .free, falling := false, source := 8 },
    by decide +kernel⟩,
  ⟨⟨[], setRs { tb := { lastEdge := [(8, some 5)] } } [(rCapCfg, 17, 17, 1), (rCapStatus, 15, 0, 65535), (rCapStatus, 63, 63, 1)]⟩, 8, true,
    46, 5, steady_of (by decide +kernel), by decide +kernel⟩,
  ⟨⟨[], setR { tb := { queue := List.replicate 64 { time := 5, mode := .free, falling := false, source := 8 } } } rCapCfg 14 14 1⟩, 7, false,
    46, steady_of (by decide +kernel), by decide +kernel⟩,
  ⟨⟨[], {}⟩, 8, true, ready_of (by decide +kernel), by decide +kernel⟩,
  ⟨⟨[], { io := { bankHiZ := [(8, true)] } }⟩, 7, ready_of (by decide +kernel), by decide +kernel⟩,
  ⟨⟨[], { tb := { queue := [{ time := 1, mode := .free, falling := false, source := 8 }] } }⟩, ready_of (by decide +kernel)⟩,
  ⟨⟨[], setRs { tb := { queue := [{ time := 1, mode := .free, falling := false, source := 8 }] } } [(rCapStatus, 15, 0, 3), (rCapStatus, 63,
    63, 1)]⟩, steady_of (by decide +kernel)⟩,
  ⟨⟨[], {}⟩, steady_of (by decide +kernel), noneDue_of (by decide +kernel)⟩,
  ⟨⟨[], setRs { tb := { time := 2 ^ 40 } } [(rTrig 8 0, 63, 0, 2 ^ 41), (rTrig 8 1, 63, 63, 1)]⟩, steady_of (by decide +kernel), noneDue_of
    (by decide +kernel)⟩,
  ⟨⟨[], setRs { tb := { time := 2 ^ 40 } } [(rTrig 8 1, 63, 63, 1), (rTrig 8 1, 60, 59, 1), (rTrig 8 1, 58, 58, 1)]⟩, 8, steady_of
    (by decide +kernel), by decide +kernel⟩,
  ⟨⟨[], {}⟩, 8, ready_of (by decide +kernel), by decide +kernel⟩,
  ⟨⟨[], { tb := { pulse := [(8, some true)] } }⟩, 8, true, ready_of (by decide +kernel), by decide +kernel⟩,
  ⟨⟨[], {}⟩, 8, ready_of (by decide +kernel), by decide +kernel⟩⟩

theorem met_IoBanks :
    (∃ (s : State), s.steady ∧ reactionOf s.dev fltIoSupply = 0) ∧
    (∃ (s : State), s.steady ∧ s.dev.power.pinsHeld = true) ∧
    (∃ (s : State), s.steady) ∧
    (∃ (s : State), s.steady ∧ reactionOf s.dev fltIoCal = 0) :=
  ⟨⟨⟨[], calm0 {} 3⟩, steady_of (by decide +kernel), by decide +kernel⟩,
  ⟨⟨[], { io := { bankHiZ := [(9, true)] } }⟩, steady_of (by decide +kernel), by decide +kernel⟩,
  ⟨⟨[], {}⟩, steady_of (by decide +kernel)⟩,
  ⟨⟨[], calm0 {} 3⟩, steady_of (by decide +kernel), by decide +kernel⟩⟩

theorem met_ParcelMovement :
    (∃ (s : State) (r : Router) (d : Dir) (p : Parcel), s.ready ∧ netRuns s.dev = true ∧ s.dev.net.taken = [] ∧ s.dev.net.links = [(4 *
      routerAddr r + d.val, [p])] ∧ faultCause (routerAddr r) p = none ∧ (pHdr p).dst = routerAddr r ∧ isResponse (pHdr p).op = true ∧ epState
      s.dev (4 * routerAddr r + (pHdr p).dstPort) = .active ∧ (pHdr p).age ≤ fldR s.dev (rRtrCnt (routerAddr r)) 55 48) ∧
    (∃ (s : State) (i : Fin 128) (d o : Dir) (n : Nat) (p : Parcel), s.ready ∧ netRuns s.dev = true ∧ s.dev.net.taken = [] ∧ s.dev.net.links =
      [(4 * routerAddr (.fabric i) + d.val, [p])] ∧ faultCause (routerAddr (.fabric i)) p = none ∧ (pHdr p).dst ≠ routerAddr (.fabric i) ∧
      (productive (routerAddr (.fabric i)) (pHdr p).dst).head? = some o.val ∧ neighbour (routerAddr (.fabric i)) o.val = some n ∧ (pHdr p).age
      ≠ 254) ∧
    (∃ (s : State) (r : Router) (d : Dir) (p : Parcel) (c : Nat), s.steady ∧ netRuns s.dev = true ∧ s.dev.net.taken = [] ∧ s.dev.net.links =
      [(4 * routerAddr r + d.val, [p])] ∧ faultCause (routerAddr r) p = some c ∧ reactionOf s.dev fltNocParity = 0 ∧ reactionOf s.dev
      fltNocMisdirect = 0) ∧
    (∃ (s : State) (i : Fin 128) (o : Dir) (n : Nat) (p : Parcel) (rest : List Parcel), s.ready ∧ netRuns s.dev = true ∧ s.dev.net.taken = []
      ∧ (getEp s.dev (4 * routerAddr (.fabric i))).answers = [] ∧ (getEp s.dev (4 * routerAddr (.fabric i))).outq = p :: rest ∧ headOf (getEp
      s.dev (4 * routerAddr (.fabric i) + 1)) = none ∧ routerState s.dev (4 * routerAddr (.fabric i)) = .active ∧ (getEp s.dev (4 * routerAddr
      (.fabric i))).lag = [] ∧ (getEp s.dev (4 * routerAddr (.fabric i) + 1)).lag = [] ∧ isResponse (pHdr p).op = true ∧ (pHdr p).bulk = true
      ∧ (pHdr p).dst ≠ routerAddr (.fabric i) ∧ (productive (routerAddr (.fabric i)) (pHdr p).dst).head? = some o.val ∧ neighbour (routerAddr
      (.fabric i)) o.val = some n ∧ (pHdr p).age ≠ 254 ∧ tWf epDflt s.dev.net.eps = true) :=
  ⟨⟨⟨[], { clk := netOn, net := { links := [(4 * 33 + 1, [mkParcel { dst := 33, dstPort := 1, op := 9 } zeroPayload])], eps := [(133,
                                    { state := .active })] } }⟩, .fabric 0, 1, mkParcel { dst := 33, dstPort := 1, op := 9 } zeroPayload,
    ready_of (by decide +kernel), by decide +kernel⟩,
  ⟨⟨[], { clk := netOn, net := { links := [(4 * 33 + 2, [mkParcel { dst := 36, op := 9, age := 255 } zeroPayload])] } }⟩, 0, 2, 1, 34,
    mkParcel { dst := 36, op := 9, age := 255 } zeroPayload, ready_of (by decide +kernel), by decide +kernel⟩,
  ⟨⟨[], calm0 { clk := netOn, net := { links := [(4 * 33 + 2, [{ mkParcel { dst := 36, op := 9 } zeroPayload with par := 0 }])] } } 4⟩,
    .fabric 0, 2, { mkParcel { dst := 36, op := 9 } zeroPayload with par := 0 }, 0, steady_of (by decide +kernel), by decide +kernel⟩,
  ⟨⟨[], { clk := netOn, net := { eps := [(132, { state := .active, outq := [mkParcel { dst := 36, op := 9 } zeroPayload, mkParcel
                                                   { dst := 37, op := 9 } zeroPayload] })] } }⟩, 0, 1, 34, mkParcel { dst := 36, op := 9 }
    zeroPayload, [mkParcel { dst := 37, op := 9 } zeroPayload], ready_of (by decide +kernel), by decide +kernel⟩⟩

theorem met_NetworkRegisters :
    (∃ (s : State) (r : Router) (d : Dir) (p : Parcel) (rest : List Parcel), s.ready ∧ netRuns s.dev = true ∧ crossesDie (routerAddr r) d.val
      = true ∧ getLink s.dev (routerAddr r) d.val = p :: rest ∧ reactionOf s.dev fltNocCrossing = 0) ∧
    (∃ (s : State), s.ready ∧ netRuns s.dev = true) ∧
    (∃ (s : State), s.ready ∧ netRuns s.dev = true) ∧
    (∃ (s : State), s.ready) ∧
    (∃ (s : State), s.ready) ∧
    (∃ (s : State), s.steady) ∧
    (∃ (s : State), s.steady) ∧
    (∃ (s : State), s.steady) ∧
    (∃ (s : State), s.steady) ∧
    (∃ (s : State), s.steady) :=
  ⟨⟨⟨[], calm0 { clk := netOn, net := { links := [(4 * fabricAddr 7 + 1, [mkParcel { dst := 36, op := 9 } zeroPayload])] } } 4⟩, .fabric 7, 1,
    mkParcel { dst := 36, op := 9 } zeroPayload, [], ready_of (by decide +kernel), by decide +kernel⟩,
  ⟨⟨[], { clk := netOn }⟩, ready_of (by decide +kernel), by decide +kernel⟩,
  ⟨⟨[], { clk := netOn }⟩, ready_of (by decide +kernel), by decide +kernel⟩,
  ⟨⟨[], { net := { eps := [(133, { txns := [{ tag := 4095, op := .rd, addr := 0, len := 0, dstR := 33, dstP := 0, epoch := 0, need := 1,
                                                quarantined := true }] })] } }⟩, ready_of (by decide +kernel)⟩,
  ⟨⟨[], {}⟩, ready_of (by decide +kernel)⟩,
  ⟨⟨[], setRs {} [(rRtrCnt 33, 31, 0, 7), (rRtrCnt 33, 55, 48, 7)]⟩, steady_of (by decide +kernel)⟩,
  ⟨⟨[], setRs {} [(rAttCnt 33 1, 31, 0, 7), (rAttCnt 33 1, 31, 16, 7)]⟩, steady_of (by decide +kernel)⟩,
  ⟨⟨[], setRs {} [(rNocFault 33 + 8, 47, 32, 7), (rNocFault 33 + 8, 63, 63, 1)]⟩, steady_of (by decide +kernel)⟩,
  ⟨⟨[], setRs {} [(rDrop 33 1, 47, 36, 7), (rDrop 33 1, 53, 48, 7)]⟩, steady_of (by decide +kernel)⟩,
  ⟨⟨[], {}⟩, steady_of (by decide +kernel)⟩⟩

theorem met_Transactions :
    (∃ (s : State) (att : AttPoint) (q : Request) (dr dp : Nat) (ps : List Parcel), s.ready ∧ bridgedAtt s.dev (attKey att) = false ∧ userEdge
      s.dev (attKey att) = true ∧ epState s.dev (attKey att) = .active ∧ tWf epDflt s.dev.net.eps = true ∧ decodeAddr s.dev false q.addr.toNat
      q.len.toNat q.firstMask.toNat q.lastMask.toNat = .to dr dp ∧ q.op = .wr ∧ portReady (getEp s.dev (attKey att)) = true ∧ outstanding
      (getEp s.dev (attKey att)) < 64 ∧ creditsUsed (getEp s.dev (attKey att)) (groupOfRouter dr) + 1 ≤ creditsOf (attFields s.dev (attKey
      att)) (groupOfRouter dr) ∧ requestParcels (attKey att) (getEp s.dev (attKey att)).epoch ((getEp s.dev (attKey att)).nextId % 4096) dr dp
      (issueOf q) = ps) ∧
    (∃ (s : State) (att : AttPoint) (q : Request) (dr dp : Nat), s.ready ∧ bridgedAtt s.dev (attKey att) = false ∧ userEdge s.dev (attKey att)
      = true ∧ (epState s.dev (attKey att) = .active ∨ epState s.dev (attKey att) = .fenced) ∧ q.op ≠ .wrp ∧ (getEp s.dev (attKey
      att)).entering = [] ∧ decodeAddr s.dev false q.addr.toNat q.len.toNat q.firstMask.toNat q.lastMask.toNat = .to dr dp ∧ creditsOf
      (attFields s.dev (attKey att)) (groupOfRouter dr) = 0) ∧
    (∃ (s : State) (att : AttPoint) (q : Request) (dr dp : Nat), s.ready ∧ bridgedAtt s.dev (attKey att) = false ∧ userEdge s.dev (attKey att)
      = true ∧ epState s.dev (attKey att) = .fenced ∧ q.op ≠ .wrp ∧ (getEp s.dev (attKey att)).entering = [] ∧ decodeAddr s.dev false
      q.addr.toNat q.len.toNat q.firstMask.toNat q.lastMask.toNat = .to dr dp ∧ creditsOf (attFields s.dev (attKey att)) (groupOfRouter dr) ≠
      0) ∧
    (∃ (s : State) (att : AttPoint) (sp : Split), s.ready ∧ bridgedAtt s.dev (attKey att) = false ∧ tWf epDflt s.dev.net.eps = true ∧ (getEp
      s.dev (attKey att)).splits = [sp] ∧ sp.issued < sp.total ∧ sp.req.op = .rd ∧ epState s.dev (attKey att) = .active ∧ (getEp s.dev (attKey
      att)).txns = [] ∧ (getEp s.dev (attKey att)).outq = [] ∧ (getEp s.dev (attKey att)).entering = [] ∧ (getEp s.dev (attKey att)).requests
      = [] ∧ userEdge s.dev (attKey att) = true ∧ sp.step ≤ creditsOf (attFields s.dev (attKey att)) (groupOfRouter sp.dstR)) ∧
    (∃ (s : State) (i : Fin 128) (port : Fin 2) (p : Parcel) (rest : List Parcel) (t : Txn), s.ready ∧ tWf epDflt s.dev.net.eps = true ∧
      (getEp s.dev (4 * routerAddr (.fabric i) + port.val)).resp = p :: rest ∧ (getEp s.dev (4 * routerAddr (.fabric i) + port.val)).txns =
      [t] ∧ t.tag = (pHdr p).tag ∧ t.quarantined = false ∧ (pHdr p).epoch = (getEp s.dev (4 * routerAddr (.fabric i) + port.val)).epoch ∧
      (pHdr p).src = t.dstR ∧ (pHdr p).srcPort = t.dstP) ∧
    (∃ (s : State) (att : AttPoint) (p : Parcel) (rest : List Parcel), s.ready ∧ bridgedAtt s.dev (attKey att) = false ∧ userEdge s.dev
      (attKey att) = true ∧ (getEp s.dev (attKey att)).inq = p :: rest ∧ (pHdr p).op = 0 ∧ (getEp s.dev (attKey att)).reasm = [] ∧ tWf epDflt
      s.dev.net.eps = true) ∧
    (∃ (s : State) (i : Fin 128) (port : Fin 2) (x : Reasm) (p : Parcel) (src : RouterAddr) (sp : BitVec 2) (tag : BitVec 12), s.ready ∧
      bridgedAtt s.dev (4 * routerAddr (.fabric i) + port.val) = false ∧ tWf epDflt s.dev.net.eps = true ∧ (getEp s.dev (4 * routerAddr
      (.fabric i) + port.val)).reasm = [x] ∧ x.src = src.toNat ∧ x.port = sp.toNat ∧ x.tag = tag.toNat ∧ x.refused = false ∧ x.req = some p ∧
      (pHdr p).op = 0 ∧ (decodeWord (pWord p 0)).outcome = .clean ∧ (decodeWord (pWord p 1)).outcome = .clean ∧ reqPoisoned p = false) ∧
    (∃ (s : State) (att : AttPoint) (x : Reasm) (p : Parcel) (a : TargetResp), s.ready ∧ bridgedAtt s.dev (attKey att) = false ∧ userEdge
      s.dev (attKey att) = true ∧ tWf epDflt s.dev.net.eps = true ∧ (getEp s.dev (attKey att)).outq = [] ∧ (getEp s.dev (attKey att)).entering
      = [] ∧ (getEp s.dev (attKey att)).accepted = [x] ∧ x.src = a.src.toNat ∧ x.port = a.srcPort.toNat ∧ x.tag = a.tag.toNat ∧ x.req = some p
      ∧ (pHdr p).op = 1 ∧ a.code = 0) ∧
    (∃ (s : State) (i : Fin 128) (port : Fin 2) (x : Reasm) (src : RouterAddr) (sp : BitVec 2) (tag : BitVec 12), s.steady ∧ tWf epDflt
      s.dev.net.eps = true ∧ (getEp s.dev (4 * routerAddr (.fabric i) + port.val)).reasm = [x] ∧ x.src = src.toNat ∧ x.port = sp.toNat ∧ x.tag
      = tag.toNat ∧ x.refused = false ∧ x.early = none ∧ complete x = false) ∧
    (∃ (s : State) (i : Fin 128) (port : Fin 2) (t : Txn) (tag : BitVec 12), s.ready ∧ tWf epDflt s.dev.net.eps = true ∧ (getEp s.dev (4 *
      routerAddr (.fabric i) + port.val)).txns = [t] ∧ t.tag = tag.toNat ∧ t.injected = true ∧ t.quarantined = false ∧ ejectedParcels (getEp
      s.dev (4 * routerAddr (.fabric i) + port.val)) t < t.need ∧ t.split = none ∧ reactionOf s.dev fltNocTimeout = 0) :=
  ⟨⟨attOn att0 { state := .active, nextId := 4097 }, ⟨0, 0⟩, { op := .wr, addr := 2 ^ 46, data := [[(1, false)]] }, 4, 0, requestParcels 132 0
    1 4 0 (issueOf { op := .wr, addr := 2 ^ 46, data := [[(1, false)]] }), ready_of (by decide +kernel), by decide +kernel⟩,
  ⟨attOn { att0 with crDdr := 1 } { state := .fenced }, ⟨0, 0⟩, { op := .rd, addr := 2 ^ 46 }, 4, 0, ready_of (by decide +kernel),
    by decide +kernel⟩,
  ⟨attOn att0 { state := .fenced }, ⟨0, 0⟩, { op := .rd, addr := 2 ^ 46 }, 4, 0, ready_of (by decide +kernel), by decide +kernel⟩,
  ⟨attOn att0 { state := .active, splits := [{ id := 0, req := { op := .rd, addr := 2 ^ 47, len := 63 }, dstR := 33, dstP := 0, step := 2,
                                                 issued := 0, total := 32, done := [] }] }, ⟨0, 0⟩, { id := 0, req := { op := .rd, addr := 2 ^ 47, len := 63 }, dstR := 33, dstP := 0, step := 2, issued := 0, total := 32, done := [] },
    ready_of (by decide +kernel), by decide +kernel⟩,
  ⟨⟨[], { net := { eps := [(133, { state := .active, resp := [mkParcel { dst := 33, dstPort := 1, op := 9, tag := 4095, src := 34 }
                                     zeroPayload], txns :=
                                     [{ tag := 4095, op := .wr, addr := 0, len := 0, dstR := 34, dstP := 0, epoch := 0, need := 1 }] })] } }⟩,
    0, 1, mkParcel { dst := 33, dstPort := 1, op := 9, tag := 4095, src := 34 } zeroPayload, [],
    { tag := 4095, op := .wr, addr := 0, len := 0, dstR := 34, dstP := 0, epoch := 0, need := 1 }, ready_of (by decide +kernel),
    by decide +kernel⟩,
  ⟨attOn att0 { state := .active, inq := [mkParcel { dst := 33, op := 0, src := 34, tag := 1 } zeroPayload] }, ⟨0, 0⟩, mkParcel
    { dst := 33, op := 0, src := 34, tag := 1 } zeroPayload, [], ready_of (by decide +kernel), by decide +kernel⟩,
  ⟨⟨[], { net := { eps := [(133, { state := .active, reasm := [{ src := 34, port := 1, tag := 4095, req := some (mkParcel
                                                                   { dst := 33, dstPort := 1, op := 0, src := 34, srcPort := 1, tag := 4095 }
                                                                   zeroPayload), data := [] }] })] } }⟩, 0, 1, { src := 34, port := 1, tag := 4095, req := some (mkParcel { dst := 33, dstPort := 1, op := 0, src := 34, srcPort := 1, tag := 4095 } zeroPayload), data := [] },
    mkParcel { dst := 33, dstPort := 1, op := 0, src := 34, srcPort := 1, tag := 4095 } zeroPayload, 34, 1, 4095, ready_of
    (by decide +kernel), by decide +kernel⟩,
  ⟨attOn att0 { state := .active, accepted := [{ src := 34, port := 1, tag := 4095, req := some (mkParcel
                                                   { dst := 33, op := 1, src := 34, srcPort := 1, tag := 4095 } zeroPayload), data := [] }] },
    ⟨0, 0⟩, { src := 34, port := 1, tag := 4095, req := some (mkParcel { dst := 33, op := 1, src := 34, srcPort := 1, tag := 4095 }
                zeroPayload), data := [] }, mkParcel { dst := 33, op := 1, src := 34, srcPort := 1, tag := 4095 } zeroPayload,
    { src := 34, srcPort := 1, tag := 4095 }, ready_of (by decide +kernel), by decide +kernel⟩,
  ⟨⟨[], { net := { eps := [(133, { reasm := [{ src := 34, port := 1, tag := 4095, req := none, data := [] }] })] } }⟩, 0, 1,
    { src := 34, port := 1, tag := 4095, req := none, data := [] }, 34, 1, 4095, steady_of (by decide +kernel), by decide +kernel⟩,
  ⟨⟨[], calm0 { net := { eps := [(133, { txns :=
                                           [{ tag := 4095, op := .rd, addr := 0, len := 0, dstR := 33, dstP := 0, epoch := 0, need := 1, injected := true }]
                                           })] } } 4⟩, 0, 1,
    { tag := 4095, op := .rd, addr := 0, len := 0, dstR := 33, dstP := 0, epoch := 0, need := 1, injected := true }, 4095, ready_of
    (by decide +kernel), by decide +kernel⟩⟩

theorem met_KeySlots :
    (∃ (s : State) (mask : BitVec 12) (slot : Fin 64) (wrapped : List Word) (m : Nat) (k : List Nat), s.ready ∧ s.mailbox 0x0401
      ((0xC0000000003F0FFF, 2 ^ 62 + slot.val * 2 ^ 16 + mask.toNat) :: wholeWords wrapped) ∧ unwrapKey s.dev wrapped = (0, m, k) ∧
      s.dev.enc.reinit = none ∧ (maskEngines mask.toNat).any (slotBound s.dev slot.val) = false ∧ mask ≠ 0) ∧
    (∃ (s : State) (mask : BitVec 12) (slot : Fin 64), s.ready ∧ s.mailbox 0x0401 [(0xC0000000003F0FFF, 2 ^ 63 + slot.val * 2 ^ 16 +
      mask.toNat)] ∧ s.dev.enc.reinit = none ∧ (maskEngines mask.toNat).any (slotBound s.dev slot.val) = false ∧ mask ≠ 0) ∧
    (∃ (s : State) (mask : BitVec 12) (slot : Fin 64), s.ready ∧ s.mailbox 0x0401 [(0xC0000000003F0FFF, 2 ^ 63 + slot.val * 2 ^ 16 +
      mask.toNat)] ∧ s.dev.enc.reinit = none ∧ (maskEngines mask.toNat).any (slotBound s.dev slot.val) = true) :=
  ⟨⟨⟨[], { bureau := keyRuns 0x0401 (BitVec.ofNat 64 (2 ^ 62 + 63 * 2 ^ 16 + 0xFFF) :: wrapped0) }⟩, 0xFFF, 63, wrapped0, 2, List.replicate 32
    7 ++ List.replicate 32 0, ready_of (by decide +kernel), mailbox_of (by decide +kernel), unwraps0 rfl, by decide +kernel⟩,
  ⟨⟨[], { bureau := { mbx := mbxRuns 0x0401 [BitVec.ofNat 64 (2 ^ 63 + 63 * 2 ^ 16 + 0xFFF)] } }⟩, 0xFFF, 63, ready_of (by decide +kernel),
    mailbox_of (by decide +kernel), by decide +kernel⟩,
  ⟨⟨[], { bureau := { mbx := mbxRuns 0x0401 [BitVec.ofNat 64 (2 ^ 63 + 63 * 2 ^ 16 + 1)] }, enc :=
            { engines := [(0, { slots := [(63, { mode := .xts, bound := some 0 })] })] } }⟩, 1, 63, ready_of (by decide +kernel), mailbox_of
    (by decide +kernel), by decide +kernel⟩⟩

theorem met_KeyRangesAndRegisters :
    (∃ (s : State) (m : Fin 2) (r : Fin 8) (slot : Fin 64) (base size metaBase : Word) (g : KeyRange), s.ready ∧ s.mailbox 0x0402
      ((0xD73F000000000000, packNat [(1, 62), (m.val, 60), (r.val, 56), (slot.val, 48)]) :: wholeWords [base, size, metaBase]) ∧ defineCheck
      s.dev m.val r.val slot.val base.toNat size.toNat metaBase.toNat = (0, g) ∧ g.integrity = false) ∧
    (∃ (s : State) (m : Fin 2) (r : Fin 8), s.ready ∧ s.mailbox 0x0402 [(0xD700000000000000, packNat [(2, 62), (m.val, 60), (r.val, 56)])] ∧
      (∀ e ∈ (getRange s.dev (8 * m.val + r.val)).engines, s.dev.performed e) ∧ (getRange s.dev (8 * m.val + r.val)).state ≠ .undefined ∧
      (getRange s.dev (8 * m.val + r.val)).state ≠ .initialising ∧ s.dev.enc.reinit = none ∧ bitR s.dev rEncCfg 63 = false) ∧
    (∃ (s : State) (m : Fin 2) (r : Fin 8) (e level : Fin 16) (node : BitVec 26), s.ready ∧ s.mailbox 0x0402 [(0xD7000F0F03FFFFFF, packNat
      [(3, 62), (m.val, 60), (r.val, 56), (e.val, 40), (level.val, 32), (node.toNat, 0)])] ∧ s.dev.performed (nth 99 (getRange s.dev (8 *
      m.val + r.val)).engines e.val) ∧ s.dev.enc.reinit = none ∧ (getRange s.dev (8 * m.val + r.val)).state = .ready ∧ (getRange s.dev (8 *
      m.val + r.val)).integrity = true ∧ e.val < (getRange s.dev (8 * m.val + r.val)).engines.length ∧ level.val ≠ 0 ∧ level.val ≤ (shareOf
      s.dev (nth 99 (getRange s.dev (8 * m.val + r.val)).engines e.val) (8 * m.val + r.val)).top ∧ node.toNat < (shareOf s.dev (nth 99
      (getRange s.dev (8 * m.val + r.val)).engines e.val) (8 * m.val + r.val)).nodes level.val) ∧
    (∃ (s : State) (m : Fin 2) (r : Fin 8), s.ready ∧ (getRange s.dev (8 * m.val + r.val)).state = .initialising) ∧
    (∃ (s : State) (x : ReinitRun), s.ready ∧ s.mailbox 0x0402 [] ∧ s.dev.enc.reinit = some x ∧ (getRange s.dev x.rng).state = .ready ∧
      (shareOf s.dev (nth 99 (getRange s.dev x.rng).engines x.share) x.rng).top ≤ x.level ∧ rootCounter s.dev (nth 99 (getRange s.dev
      x.rng).engines x.share) x.rng x.idx + 1 ≠ counterLimit) ∧
    (∃ (s : State), s.steady ∧ bitR s.dev rEncCfg 63 = false ∧ anyRange s.dev 0 = false ∧ anyRange s.dev 1 = false) ∧
    (∃ (s : State), s.steady ∧ bitR s.dev rEncCfg 63 = true) ∧
    (∃ (s : State), s.steady) ∧
    (∃ (s : State) (w : Fin 4), s.steady ∧ bitR s.dev rEncCfg 63 = false ∧ (w = 1 ∨ w = 2)) ∧
    (∃ (s : State), s.steady ∧ bitR s.dev rEncCfg 63 = false) ∧
    (∃ (s : State) (w : Fin 4), s.steady ∧ bitR s.dev rEncCfg 63 = true ∧ w ≠ 3) ∧
    (∃ (s : State), s.steady) ∧
    (∃ (s : State), s.steady) :=
  ⟨⟨⟨[], setR { bureau := { mbx := mbxRuns 0x0402 [0x5700000000000000 + 3 * 0x1000000000000, 2 ^ 46, 65536, 0] }, enc := { engines := [(8, { slots := [(3, { mode := .xts, load := 1 })] }), (9, { slots := [(3, { mode := .xts, load := 1 })] }), (10, { slots := [(3, { mode := .xts, load := 1 })] }), (11, { slots := [(3, { mode := .xts, load := 1 })] })] }
                  } rEncCfg 21 20 2⟩, 1, 7, 3, 2 ^ 46, 65536, 0, { state := .ready, slot := 3, base := 2 ^ 46, size := 65536 }, ready_of
    (by decide +kernel), mailbox_of (by decide +kernel), by decide +kernel⟩,
  ⟨⟨[], { bureau := { mbx := mbxRuns 0x0402 [0x9700000000000000] }, enc :=
            { ranges := [(15, { state := .ready, base := 2 ^ 46, size := 65536 })] } }⟩, 1, 7, ready_of (by decide +kernel), mailbox_of
    (by decide +kernel), (by simp only [Dev.performed]; decide +kernel), by decide +kernel⟩,
  ⟨⟨[], { bureau := { mbx := mbxRuns 0x0402 [0xD700000100000000] }, enc :=
            { ranges := [(15, { state := .ready, integrity := true, base := 2 ^ 46, size := 65536, engines := [8] })] } }⟩, 1, 7, 0, 1, 0,
    ready_of (by decide +kernel), mailbox_of (by decide +kernel), (by simp only [Dev.performed]; decide +kernel), by decide +kernel⟩,
  ⟨⟨[], { enc := { ranges := [(15, { state := .initialising, integrity := true, base := 2 ^ 46, size := 65536, engines := [8] })] } }⟩, 1, 7,
    ready_of (by decide +kernel), by decide +kernel⟩,
  ⟨⟨[], { bureau := { mbx := mbxRuns 0x0402 [0xD700000100000000] }, enc := { reinit := some { rng := 15, share := 0, level := 15, idx := 0 },
                                                                               ranges := [(15,
                                                                               { state := .ready, integrity := true, base := 2 ^ 46, size := 65536, engines := [8] })]
                                                                               } }⟩, { rng := 15, share := 0, level := 15, idx := 0 },
    ready_of (by decide +kernel), mailbox_of (by decide +kernel), by decide +kernel⟩,
  ⟨⟨[], {}⟩, steady_of (by decide +kernel), by decide +kernel⟩,
  ⟨⟨[], setR {} rEncCfg 63 63 1⟩, steady_of (by decide +kernel), by decide +kernel⟩,
  ⟨⟨[], {}⟩, steady_of (by decide +kernel)⟩,
  ⟨⟨[], {}⟩, 2, steady_of (by decide +kernel), by decide +kernel⟩,
  ⟨⟨[], {}⟩, steady_of (by decide +kernel), by decide +kernel⟩,
  ⟨⟨[], setR {} rEncCfg 63 63 1⟩, 2, steady_of (by decide +kernel), by decide +kernel⟩,
  ⟨⟨[], setR {} (rRights 63 3) 31 0 5⟩, steady_of (by decide +kernel)⟩,
  ⟨⟨[], setR {} (rEncStatus 11 1) 31 0 5⟩, steady_of (by decide +kernel)⟩⟩

theorem met_MailboxInterface :
    (∃ (s : State), s.steady ∧ fldR s.dev rMbxClaim 1 0 = 0) ∧
    (∃ (s : State) (p : Path), s.steady ∧ fldR s.dev rMbxClaim 1 0 = pathCode p) ∧
    (∃ (s : State) (p q : Path), s.steady ∧ q ≠ .network ∧ q ≠ p ∧ fldR s.dev rMbxClaim 1 0 = pathCode q) ∧
    (∃ (s : State) (p : Path), s.steady ∧ fldR s.dev rMbxClaim 1 0 = pathCode p ∧ bitR s.dev rMbxStatus 63 = false ∧ getR s.dev (rMbxCmd 0) =
      0x0603 ∧ getR s.dev (rMbxCmd 1) = 0) ∧
    (∃ (s : State) (c : MbxCmd) (r : MbxResult), s.steady ∧ s.dev.bureau.mbx = { run := some c, result := some r } ∧ r.data.length < 256) :=
  ⟨⟨⟨[], {}⟩, steady_of (by decide +kernel), by decide +kernel⟩,
  ⟨⟨[], setR {} rMbxClaim 1 0 (pathCode .bar0)⟩, .bar0, steady_of (by decide +kernel), by decide +kernel⟩,
  ⟨⟨[], setR {} rMbxClaim 1 0 (pathCode .bar0)⟩, .mspi, .bar0, steady_of (by decide +kernel), by decide +kernel⟩,
  ⟨⟨[], setRs {} [(rMbxClaim, 1, 0, pathCode .bar0), (rMbxCmd 0, 63, 0, 0x0603)]⟩, .bar0, steady_of (by decide +kernel), by decide +kernel⟩,
  ⟨⟨[], { bureau := { mbx := { run := some { opcode := 0x0603, seq := 9, args := [] }, result := some
                                 { family := 0, value := 0, data := [5, 6] } } } }⟩, { opcode := 0x0603, seq := 9, args := [] },
    { family := 0, value := 0, data := [5, 6] }, steady_of (by decide +kernel), by decide +kernel⟩⟩

theorem met_KeyStoreCommands :
    (∃ (s : State) (key : List Word), s.ready ∧ s.mailbox 0x0404 ((15 * 2 ^ 60, 2 ^ 60) :: wholeWords key) ∧ key.length = 4 ∧
      s.dev.bureau.keys.devKey = none) ∧
    (∃ (s : State) (key : List Word), s.ready ∧ s.mailbox 0x0404 ((15 * 2 ^ 60, 2 ^ 60) :: wholeWords key) ∧ s.dev.bureau.keys.devKey ≠ none) ∧
    (∃ (s : State) (e : Fin 16) (wrapped : List Word) (k : List Nat), s.ready ∧ s.mailbox 0x0404 ((15 * 2 ^ 60 + 15, 2 * 2 ^ 60 + e.val) ::
      wholeWords wrapped) ∧ unwrapKey s.dev wrapped = (0, 2, k)) ∧
    (∃ (s : State) (k : Fin 4) (hash : List Word), s.ready ∧ s.mailbox 0x0404 ((15 * 2 ^ 60 + 3, 3 * 2 ^ 60 + k.val) :: wholeWords hash) ∧
      hash.length = 6 ∧ getSign s.dev k.val = {}) ∧
    (∃ (s : State) (k : Fin 4), s.ready ∧ s.mailbox 0x0404 [(15 * 2 ^ 60 + 3, 4 * 2 ^ 60 + k.val)] ∧ (getSign s.dev k.val).programmed = true ∧
      (getSign s.dev k.val).revoked = false) ∧
    (∃ (s : State) (k : Fin 4), s.steady ∧ s.mailbox 0x0404 [(15 * 2 ^ 60, 5 * 2 ^ 60)] ∧ (getSign s.dev k.val).programmed = true ∧ (getSign
      s.dev k.val).revoked = false) :=
  ⟨⟨⟨[], { bureau := { mbx := mbxRuns 0x0404 [2 ^ 60, 1, 2, 3, 4] } }⟩, [1, 2, 3, 4], ready_of (by decide +kernel), mailbox_of
    (by decide +kernel), by decide +kernel⟩,
  ⟨⟨[], { bureau := keyRuns 0x0404 [2 ^ 60, 1, 2, 3, 4] }⟩, [1, 2, 3, 4], ready_of (by decide +kernel), mailbox_of (by decide +kernel),
    by decide +kernel⟩,
  ⟨⟨[], { bureau := keyRuns 0x0404 ((2 * 2 ^ 60 + 15) :: wrapped0) }⟩, 15, wrapped0, List.replicate 32 7 ++ List.replicate 32 0, ready_of
    (by decide +kernel), mailbox_of (by decide +kernel), unwraps0 rfl⟩,
  ⟨⟨[], { bureau := { mbx := mbxRuns 0x0404 [3 * 2 ^ 60 + 3, 1, 2, 3, 4, 5, 6] } }⟩, 3, [1, 2, 3, 4, 5, 6], ready_of (by decide +kernel),
    mailbox_of (by decide +kernel), by decide +kernel⟩,
  ⟨⟨[], { bureau := { mbx := mbxRuns 0x0404 [4 * 2 ^ 60 + 3], keys := { sign := [(3, { hash := 1, programmed := true })] } } }⟩, 3, ready_of
    (by decide +kernel), mailbox_of (by decide +kernel), by decide +kernel⟩,
  ⟨⟨[], { bureau := { mbx := mbxRuns 0x0404 [5 * 2 ^ 60], keys := { sign := [(3, { hash := 1, programmed := true })] } } }⟩, 3, steady_of
    (by decide +kernel), mailbox_of (by decide +kernel), by decide +kernel⟩⟩

theorem met_ReadingAndDebug :
    (∃ (s : State) (first : BitVec 32), s.ready ∧ s.mailbox 0x0602 [(2 ^ 38 - 1, 2 ^ 32 + first.toNat)] ∧ (tGet (fun _ => []) s.dev.flog.recs
      (first.toNat % 2048)).length = 4) ∧
    (∃ (s : State) (first : BitVec 32), s.ready ∧ s.mailbox 0x0602 [(2 ^ 38 - 1, 2 ^ 32 + first.toNat)] ∧ (tGet (fun _ => []) s.dev.flog.recs
      (first.toNat % 2048)).length ≠ 4) ∧
    (∃ (s : State), s.ready ∧ s.mailbox 0x0603 []) ∧
    (∃ (s : State) (first : BitVec 32), s.ready ∧ s.mailbox 0x0503 [(2 ^ 38 - 1, 2 ^ 32 + first.toNat)] ∧ cabUp s.dev = true ∧ (tGet (fun _ =>
      []) s.dev.cab.onDie ((first.toNat + 1023) % 1024)).length = 4) ∧
    (∃ (s : State) (v : Fin 32), s.steady ∧ hostLinkUp s.dev = true ∧ getR s.dev rPba = BitVec.ofNat 64 (2 ^ v.val)) ∧
    (∃ (s : State), s.steady ∧ hostLinkUp s.dev = false) ∧
    (∃ (s : State), s.ready) ∧
    (∃ (s : State) (c : BitVec 8), s.ready ∧ c ≠ 1 ∧ jtagCodes.contains c.toNat = true) ∧
    (∃ (s : State) (c : BitVec 8), s.ready ∧ jtagCodes.contains c.toNat = false) ∧
    (∃ (s : State), s.ready) ∧
    (∃ (s : State), s.ready ∧ s.dev.bureau.jtag = 0x20 ∧ s.dev.bureau.dbg.waiting = true) ∧
    (∃ (s : State), s.ready ∧ s.dev.bureau.jtag = 0x20 ∧ s.dev.bureau.dbg.waiting = false) :=
  ⟨⟨⟨[], { flog := { next := 6, recs := [(5, [1, 2, 3, 4])] }, bureau := { mbx := mbxRuns 0x0602 [0x100000805] } }⟩, 0x805, ready_of
    (by decide +kernel), mailbox_of (by decide +kernel), by decide +kernel⟩,
  ⟨⟨[], { bureau := { mbx := mbxRuns 0x0602 [0x100000805] } }⟩, 0x805, ready_of (by decide +kernel), mailbox_of (by decide +kernel),
    by decide +kernel⟩,
  ⟨⟨[], { bureau := { mbx := mbxRuns 0x0603 [] } }⟩, ready_of (by decide +kernel), mailbox_of (by decide +kernel)⟩,
  ⟨⟨[], { cab := { c := 1024, onDie := [(1023, [1, 2, 3, 4])] }, bureau := { mbx := mbxRuns 0x0503 [0x100000000] } }⟩, 0, ready_of
    (by decide +kernel), mailbox_of (by decide +kernel), by decide +kernel⟩,
  ⟨⟨[], setRs { links := { pcie := [(0, { up := [0] })] } } [(rPba, 31, 31, 1), (rMsix 31 0, 63, 0, 77)]⟩, 31, steady_of (by decide +kernel),
    by decide +kernel⟩,
  ⟨⟨[], {}⟩, steady_of (by decide +kernel), by decide +kernel⟩,
  ⟨⟨[], {}⟩, ready_of (by decide +kernel)⟩,
  ⟨⟨[], {}⟩, 0x20, ready_of (by decide +kernel), by decide +kernel⟩,
  ⟨⟨[], {}⟩, 0x33, ready_of (by decide +kernel), by decide +kernel⟩,
  ⟨⟨[], setR {} rMbxClaim 1 0 2⟩, ready_of (by decide +kernel)⟩,
  ⟨⟨[], { bureau := { jtag := 0x20, dbg := { waiting := true } } }⟩, ready_of (by decide +kernel), by decide +kernel⟩,
  ⟨⟨[], { bureau := { jtag := 0x20, dbg := { done := true, data := 7 } } }⟩, ready_of (by decide +kernel), by decide +kernel⟩⟩

theorem met_CommitChecks :
    (∃ (s : State) (t : CommitTarget) (k : Nat), s.steady ∧ s.mailbox 0x0103 [(0x10F, targetWord t)] ∧ commitRefusal s.dev (targetRecord t) =
      k ∧ k ≠ 0) ∧
    (∃ (s : State) (t : CommitTarget) (k : Nat), s.steady ∧ s.mailbox 0x0104 [(0x10F, targetWord t)] ∧ rollbackRefusal s.dev (targetRecord t)
      = k ∧ k ≠ 0) ∧
    (∃ (s : State) (t : CommitTarget), s.steady ∧ s.mailbox 0x0103 [(0x10F, targetWord t)] ∧ s.dev.cfg.commit.isSome = true) ∧
    (∃ (s : State) (r : Fin 16) (l : LoadRecord), s.steady ∧ s.mailbox 0x0103 [(0x10F, r.val)] ∧ tWf epDflt s.dev.net.eps = true ∧
      commitRefusal s.dev r.val = 0 ∧ recordOf s.dev r.val = some l) ∧
    (∃ (s : State) (r : Fin 16), s.steady ∧ s.mailbox 0x0104 [(0x10F, r.val)] ∧ tWf epDflt s.dev.net.eps = true ∧ rollbackRefusal s.dev r.val
      = 0 ∧ s.dev.cfg.health.running = false) :=
  ⟨⟨⟨[], { bureau := { mbx := mbxRuns 0x0103 [15] } }⟩, .region 15, 3, steady_of (by decide +kernel), mailbox_of (by decide +kernel),
    by decide +kernel⟩,
  ⟨⟨[], { bureau := { mbx := mbxRuns 0x0104 [0x100] } }⟩, .full, 7, steady_of (by decide +kernel), mailbox_of (by decide +kernel),
    by decide +kernel⟩,
  ⟨⟨[], { cfg := { commit := some (commitAt 1) }, bureau := { mbx := mbxRuns 0x0103 [0x100] } }⟩, .full, steady_of (by decide +kernel),
    mailbox_of (by decide +kernel), by decide +kernel⟩,
  ⟨⟨[], { sectors := [(63, { state := .active })], cfg := { done := true, base := some base15, leaves := [(127,
                                                              { state := .sealed, imageId := 1, digest := 2, seq := 5 })], records := [(15,
                                                              { imageId := 1, digest := 2, sectors := [(63, 5)], baseId := 9 })] }, bureau :=
            { mbx := mbxRuns 0x0103 [15] } }⟩, 15, { imageId := 1, digest := 2, sectors := [(63, 5)], baseId := 9 }, steady_of
    (by decide +kernel), mailbox_of (by decide +kernel), by decide +kernel⟩,
  ⟨⟨[], { sectors := [(63, { state := .active })], cfg := { done := true, base := some base15, leaves := [(126,
                                                              { state := .active, seq := 6, commitId := 3 }), (127,
                                                              { state := .retired, seq := 5, commitId := 3 })] }, bureau :=
            { mbx := mbxRuns 0x0104 [15] } }⟩, 15, steady_of (by decide +kernel), mailbox_of (by decide +kernel), by decide +kernel⟩⟩

theorem met_CommitSequence :
    (∃ (s : State) (c : CommitRun), s.steady ∧ s.dev.cfg.commit = some c ∧ c.event = 1 ∧ c.set.all (sectorDrained s.dev) = true) ∧
    (∃ (s : State) (c : CommitRun), s.steady ∧ s.dev.cfg.commit = some c ∧ c.event = 1 ∧ c.set.all (sectorDrained s.dev) = false ∧ bitR s.dev
      rCommitCfg 20 = true) ∧
    (∃ (s : State) (c : CommitRun) (k : Nat) (st : AttState), s.steady ∧ s.mailbox 0x0103 [] ∧ tWf epDflt s.dev.net.eps = true ∧
      s.dev.cfg.commit = some c ∧ c.event = 1 ∧ c.set.all (sectorDrained s.dev) = false ∧ bitR s.dev rCommitCfg 20 = false ∧ c.prior = [(k,
      st)] ∧ c.mailbox = true ∧ c.rollback = false ∧ tWf sectorDflt s.dev.sectors = true ∧ tWf cellDflt s.dev.io.cells = true ∧
      s.dev.cfg.boot.reload = false) ∧
    (∃ (s : State) (c : CommitRun), s.steady ∧ tWf sectorDflt s.dev.sectors = true ∧ tWf cellDflt s.dev.io.cells = true ∧ s.dev.cfg.commit =
      some c ∧ c.event = 2) ∧
    (∃ (s : State) (c : CommitRun), s.steady ∧ tWf sectorDflt s.dev.sectors = true ∧ s.dev.cfg.commit = some c ∧ c.event = 5 ∧ c.fenceAfter =
      [] ∧ reactionOf s.dev fltIoStandard = 0 ∧ tWf cellDflt s.dev.io.cells = true) ∧
    (∃ (s : State) (c : CommitRun) (k : Nat) (st : AttState), s.steady ∧ s.mailbox 0x0103 [] ∧ tWf epDflt s.dev.net.eps = true ∧
      s.dev.cfg.commit = some c ∧ c.event = 6 ∧ c.region < 16 ∧ c.prior = [(k, st)] ∧ (getSec s.dev (sectorOfAddr (k / 4))).state ≠ .fenced ∧
      c.mailbox = true ∧ c.rollback = false ∧ s.dev.cfg.boot.reload = false) ∧
    (∃ (s : State) (c : CommitRun), s.steady ∧ s.dev.cfg.commit = some c ∧ c.event = 4 ∧ c.region < 16 ∧ c.set.Nodup ∧ tWf (fun _ => 0)
      s.dev.cfg.active = true ∧ tWf leafDflt s.dev.cfg.leaves = true ∧ (∀ i ∈ c.set, activeLeaf s.dev i ≤ 1)) :=
  ⟨⟨⟨[], { cfg := { commit := some (commitAt 1) } }⟩, commitAt 1, steady_of (by decide +kernel), by decide +kernel⟩,
  ⟨⟨[], setR { cfg := { commit := some (commitAt 1) }, net := { eps := [(1084, { outq := [mkParcel {} zeroPayload] })] } } rCommitCfg 20 20
    1⟩, commitAt 1, steady_of (by decide +kernel), by decide +kernel⟩,
  ⟨⟨[], { sectors := [(63, { state := .active })], bureau := { mbx := mbxRuns 0x0103 [15] }, cfg := { commit := some (commitAt 1) }, net :=
            { eps := [(1084, { state := .fenced, outq := [mkParcel {} zeroPayload] })] } }⟩, commitAt 1, 1084, .active, steady_of
    (by decide +kernel), mailbox_of (by decide +kernel), by decide +kernel⟩,
  ⟨⟨[], { cfg := { commit := some (commitAt 2), base := some { base15 with hv := List.replicate 95 255 ++ [63] }, done := true, frames :=
                     [(frameKey 63 0 0, { meaning := [.ioCell 479 { std := 0 }] })] }, sectors := [(63, { state := .active })] }⟩, commitAt 2,
    steady_of (by decide +kernel), by decide +kernel⟩,
  ⟨⟨[], calm0 { sectors := [(63, { quiet := true, iso := [(5, true)] })], io := { cells := [(479, { hold := some (some true) })] }, cfg :=
                  { commit := some (commitAt 5) } } 3⟩, commitAt 5, steady_of (by decide +kernel), by decide +kernel⟩,
  ⟨⟨[], { sectors := [(63, { state := .active })], bureau := { mbx := mbxRuns 0x0103 [15] }, cfg := { commit := some (commitAt 6) }, net :=
            { eps := [(1084, { state := .fenced })] } }⟩, commitAt 6, 1084, .active, steady_of (by decide +kernel), mailbox_of
    (by decide +kernel), by decide +kernel⟩,
  ⟨⟨[], { sectors := [(63, { state := .active, quiet := true })], cfg := { commit := some (commitAt 4), base := some base15, leaves := [(126,
                                                                             { state := .active, seq := 6, commitId := 3 }), (127,
                                                                             { state := .sealed, seq := 7 })] } }⟩, commitAt 4, steady_of
    (by decide +kernel), by decide +kernel⟩⟩

theorem met_StoredWordsAndLedger :
    (∃ (s : State) (l : LeafId) (i : Fin 64) (f : Fin 1536), s.ready ∧ (getLeaf s.dev i.val l.val).state ≠ .empty ∧ (decodeWord (getLedger
      s.dev (frameKey i.val l.val f.val))).outcome = .clean) ∧
    (∃ (s : State) (l : LeafId) (i : Fin 64), s.ready ∧ (getLeaf s.dev i.val l.val).state = .empty) ∧
    (∃ (s : State) (l : LeafId) (i : Fin 64) (f : Fin 1536), s.ready ∧ (getLeaf s.dev i.val l.val).state ≠ .empty ∧ (decodeWord (getLedger
      s.dev (frameKey i.val l.val f.val))).outcome = .uncorrectable) ∧
    (∃ (s : State) (u : Fin 104), s.steady ∧ hasEccCnt u.val = true ∧ fldR s.dev (rEccCnt u.val) 47 32 = 0) ∧
    (∃ (s : State) (n : Fin 4), s.steady ∧ sramOut s.dev n.val = false ∧ (getDie s.dev n.val).filled = false ∧ tWf dieDflt s.dev.mem.sram =
      true) ∧
    (∃ (s : State) (n : Fin 8), s.steady ∧ (getCh s.dev n.val).state = .filling ∧ (getCh s.dev n.val).retry = false ∧ tWf chDflt s.dev.mem.ddr
      = true) ∧
    (∃ (s : State) (sec : Fin 64) (l : LeafId) (f : Fin 1536), s.ready ∧ (getSec s.dev sec.val).cfgPower = true ∧ tWf frameDflt
      s.dev.cfg.frames = true ∧ tWf (fun _ => 0) (getFrame s.dev sec.val l.val f.val).words = true) :=
  ⟨⟨⟨[], { cfg := { leaves := [(127, { state := .sealed })], ledger := [(frameKey 63 1 1535, clean 5)] } }⟩, 1, 63, 1535, ready_of
    (by decide +kernel), by decide +kernel⟩,
  ⟨⟨[], {}⟩, 1, 63, ready_of (by decide +kernel), by decide +kernel⟩,
  ⟨⟨[], { cfg := { leaves := [(127, { state := .sealed })], ledger := [(frameKey 63 1 1535, 7)] } }⟩, 1, 63, 1535, ready_of
    (by decide +kernel), by decide +kernel⟩,
  ⟨⟨[], setRs { thr := [64] } [(rEccCnt 64, 15, 0, 5), (rEccCnt 64, 47, 32, 0)]⟩, 64, steady_of (by decide +kernel), by decide +kernel⟩,
  ⟨⟨[], {}⟩, 3, steady_of (by decide +kernel), by decide +kernel⟩,
  ⟨⟨[], { mem := { ddr := [(7, { state := .filling })] } }⟩, 7, steady_of (by decide +kernel), by decide +kernel⟩,
  ⟨⟨[], { sectors := [(63, { state := .active })] }⟩, 63, 1, 1535, ready_of (by decide +kernel), by decide +kernel⟩⟩

theorem met_LoadStartsAndStore :
    (∃ (s : State) (slot : Fin 32) (copy : Fin 2) (img : ImageWords), s.steady ∧ s.mailbox 0x0101 [(0xC00000000000FF03, slot.val * 256 +
      copy.val)] ∧ slot.val < areaSlots 0 ∧ jtagHolds s.dev = false ∧ selfTestPending s.dev = false ∧ loadWaits s.dev (.store 0 slot copy
      false) false = false ∧ s.dev.cfg.load = none ∧ getCopy s.dev (2 * slot.val + copy.val) =
      { getCopy s.dev (2 * slot.val + copy.val) with valid := true, image := img } ∧ copyFits (getCopy s.dev (2 * slot.val + copy.val)) = true
      ∧ precheck s.dev img false = 0) ∧
    (∃ (s : State) (slot : Fin 32) (copy : Fin 2) (img : ImageWords), s.steady ∧ s.mailbox 0x0102 [(0xC00000000000FF03, 2 ^ 14 + slot.val *
      256 + copy.val)] ∧ jtagHolds s.dev = false ∧ selfTestPending s.dev = false ∧ loadWaits s.dev (.store 1 slot copy false) true = false ∧
      s.dev.cfg.load = none ∧ getCopy s.dev (64 + 2 * slot.val + copy.val) =
      { getCopy s.dev (64 + 2 * slot.val + copy.val) with valid := true, image := img } ∧ copyFits (getCopy s.dev (64 + 2 * slot.val +
      copy.val)) = true ∧ precheck s.dev img true = 0) ∧
    (∃ (s : State), s.steady ∧ s.mailbox 0x0102 [(3 * 2 ^ 62, 2 ^ 63)] ∧ jtagHolds s.dev = false ∧ selfTestPending s.dev = false ∧
      s.dev.cfg.load = none) ∧
    (∃ (s : State) (l : Load), s.ready ∧ s.mailbox 0x0101 [(3 * 2 ^ 62, 2 ^ 63)] ∧ jtagHolds s.dev = false ∧ selfTestPending s.dev = false ∧
      s.dev.cfg.load = some l ∧ reactionOf s.dev fltLoadFailed = 0) ∧
    (∃ (s : State), s.ready) ∧
    (∃ (s : State) (img : ImageWords) (l : Load), s.steady ∧ s.dev.cfg.load = some l ∧ l.source = .port ∧ l.header = [] ∧ s.dev.cfg.port.armed
      = true ∧ (hGroups (imgWords img)).testBit s.dev.power.cfgGrp = true ∧ hPartial (imgWords img) = s.dev.cfg.port.armedPartial ∧ portWaits
      img s.dev = false ∧ l.isPartial = hPartial (imgWords img) ∧ precheck s.dev img l.isPartial = 0 ∧ s.dev.cfg.boot.running = false) ∧
    (∃ (s : State) (slot : Fin 32) (img : ImageWords), s.ready ∧ s.mailbox 0x0201 [(0xFF03, 2 ^ 14 + slot.val * 256), (2 ^ 32 - 1, 8 *
      img.length)] ∧ tWf copyDflt s.dev.cfg.store = true ∧ 8 * img.length ≤ 0x5000000 ∧ (getCopy s.dev (64 + 2 * slot.val)).valid = false ∧
      (getCopy s.dev (64 + 2 * slot.val + 1)).valid = false ∧ max (getCopy s.dev (64 + 2 * slot.val)).wear (getCopy s.dev (64 + 2 *
      slot.val)).wearB < 10000 ∧ s.dev.cfg.load = none ∧ s.dev.cab.run = none ∧ copyActive s.dev (64 + 2 * slot.val) = false ∧ repairReads
      s.dev (64 + 2 * slot.val) = false) ∧
    (∃ (s : State) (slot : Fin 32) (img : ImageWords), s.ready ∧ s.mailbox 0x0201 [(0xFF03, 2 ^ 14 + slot.val * 256), (2 ^ 32 - 1, 8 *
      img.length)] ∧ 8 * img.length < 2 ^ 32 ∧ (getCopy s.dev (64 + 2 * slot.val)).valid = false ∧ (getCopy s.dev (64 + 2 * slot.val +
      1)).valid = false ∧ 10000 ≤ max (getCopy s.dev (64 + 2 * slot.val)).wear (getCopy s.dev (64 + 2 * slot.val)).wearB) ∧
    (∃ (s : State) (size : BitVec 6), s.ready ∧ s.mailbox 0x0202 [(0x3F, size.toNat)]) ∧
    (∃ (s : State) (ds : List (BitVec 16)), s.ready ∧ s.dev.cfg.boot.running = false ∧ s.dev.cfg.port.part.length + ds.length < 64) :=
  ⟨⟨⟨[], { cfg := { store := [(15, writtenCopy imgFull 1 {})] }, bureau := { mbx := mbxRuns 0x0101 [0x701] } }⟩, 7, 1, imgFull, steady_of
    (by decide +kernel), mailbox_of (by decide +kernel), by decide +kernel⟩,
  ⟨⟨[], { sectors := [(63, { state := .active })], cfg := { base := some base15, store := [(127, writtenCopy imgPart 1 {})] }, bureau :=
            { mbx := mbxRuns 0x0102 [0x5F01] } }⟩, 31, 1, imgPart, steady_of (by decide +kernel), mailbox_of (by decide +kernel),
    by decide +kernel⟩,
  ⟨⟨[], { bureau := { mbx := mbxRuns 0x0102 [2 ^ 63] } }⟩, steady_of (by decide +kernel), mailbox_of (by decide +kernel), by decide +kernel⟩,
  ⟨⟨[], calm0 { cfg := { load := some (fullLoad 0 [] []) }, bureau := { mbx := mbxRuns 0x0101 [2 ^ 63] } } 1⟩, fullLoad 0 [] [], ready_of
    (by decide +kernel), mailbox_of (by decide +kernel), by decide +kernel⟩,
  ⟨⟨[], {}⟩, ready_of (by decide +kernel)⟩,
  ⟨⟨[], { cfg := { port := { armed := true }, load := some
                     { source := .port, copy := none, image := [], isPartial := false, region := 0, header := [], sections := [] } } }⟩,
    imgFull, { source := .port, copy := none, image := [], isPartial := false, region := 0, header := [], sections := [] }, steady_of
    (by decide +kernel), by decide +kernel⟩,
  ⟨⟨[], { bureau := { mbx := mbxRuns 0x0201 [0x5F00, 184] } }⟩, 31, imgPart, ready_of (by decide +kernel), mailbox_of (by decide +kernel),
    by decide +kernel⟩,
  ⟨⟨[], { cfg := { store := [(126, { wear := 10000 })] }, bureau := { mbx := mbxRuns 0x0201 [0x5F00, 184] } }⟩, 31, imgPart, ready_of
    (by decide +kernel), mailbox_of (by decide +kernel), by decide +kernel⟩,
  ⟨⟨[], { bureau := { mbx := mbxRuns 0x0202 [36] } }⟩, 36, ready_of (by decide +kernel), mailbox_of (by decide +kernel)⟩,
  ⟨⟨[], { cfg := { port := { part := [7] } } }⟩, [1, 2], ready_of (by decide +kernel), by decide +kernel⟩⟩

theorem met_LoadRuns :
    (∃ (s : State) (l : Load) (e : SectionEntry), s.ready ∧ s.dev.cfg.load = some l ∧ l.plain = [] ∧ l.sections[l.next]? = some e ∧ e.kind = 5
      ∧ (sectionWords l.image e).any (·.2) = false ∧ writingWaits s.dev l = false ∧ s.dev.cfg.boot.running = false) ∧
    (∃ (s : State) (l : Load) (e : SectionEntry), s.ready ∧ s.dev.cfg.load = some l ∧ l.plain = [] ∧ l.sections[l.next]? = some e ∧ e.kind = 2
      ∧ e.encrypted = false ∧ (sectionWords l.image e).any (·.2) = false ∧ crc32c (imgBytes (sectionWords l.image e)) = e.crc ∧ writingWaits
      s.dev l = false ∧ s.dev.cfg.boot.running = false ∧ regionsOk (hMask l.header) ((imgWords (sectionWords l.image e)).map (·.toNat)) =
      true) ∧
    (∃ (s : State) (l : Load) (r : FrameRec) (a lf : Nat), s.steady ∧ s.dev.cfg.load = some l ∧ parseRecord (l.plain.drop l.pos) = some r ∧
      r.addrs = [a] ∧ namesFrame a = true ∧ a ∉ l.seen ∧ l.isPartial = false ∧ (hMask l.header).testBit (a / 2048) = true ∧
      s.dev.cfg.gate.testBit (a / 2048) = true ∧ crc32c (wordBytes r.content) = r.crc ∧ recordPoisoned (l.plain.drop l.pos) = false ∧
      s.dev.cfg.boot.running = false ∧ l.leaves = [(a / 2048, lf)] ∧ l.pos + r.used < l.plain.length ∧ tWf frameDflt s.dev.cfg.frames = true ∧
      tWf (ledgerDflt s.dev) s.dev.cfg.ledger = true) ∧
    (∃ (s : State) (l : Load) (i lf : Nat), s.steady ∧ s.mailbox 0x0101 [] ∧ s.dev.cfg.load = some l ∧ l.mailbox = true ∧ l.boot = false ∧
      fldR s.dev rMbxClaim 1 0 = 0 ∧ l.leaves = [(i, lf)] ∧ (getLeaf s.dev i lf).state = .loading ∧ l.isPartial = false ∧ reactionOf s.dev
      fltLoadFailed = 0 ∧ tWf leafDflt s.dev.cfg.leaves = true) ∧
    (∃ (s : State) (l : Load) (i lf : Nat), s.steady ∧ s.mailbox 0x0101 [] ∧ s.dev.cfg.load = some l ∧ l.sections ≠ [] ∧ l.sections.length ≤
      l.next ∧ l.plain = [] ∧ l.started = true ∧ (l.image.drop (l.image.length - 4)).any (·.2) = false ∧ trailerOk (imgWords l.image) = true ∧
      (nth 0 (trailer (imgWords l.image)) 2).toNat = l.seen.length ∧ (nth 0 (trailer (imgWords l.image)) 1).toNat = streamCrc s.dev l ∧
      hSigned l.header = false ∧ l.leaves = [(i, lf)] ∧ l.mailbox = true ∧ l.boot = false ∧ l.isPartial = false ∧ tWf leafDflt
      s.dev.cfg.leaves = true) ∧
    (∃ (s : State) (l : Load) (i lf : Nat), s.steady ∧ s.mailbox 0x0101 [] ∧ s.dev.cfg.load = some l ∧ l.sections ≠ [] ∧ l.sections.length ≤
      l.next ∧ l.plain = [] ∧ l.started = true ∧ (l.image.drop (l.image.length - 4)).any (·.2) = false ∧ trailerOk (imgWords l.image) = false
      ∧ l.leaves = [(i, lf)] ∧ (getLeaf s.dev i lf).state = .loading ∧ l.mailbox = true ∧ l.boot = false ∧ l.isPartial = false ∧ reactionOf
      s.dev fltLoadFailed = 0 ∧ tWf leafDflt s.dev.cfg.leaves = true ∧ s.dev.cfg.boot.running = false) :=
  ⟨⟨⟨[], { cfg := { load := some (fullLoad 0 [] [sec1 5 0]) } }⟩, fullLoad 0 [] [sec1 5 0], sec1 5 0, ready_of (by decide +kernel),
    by decide +kernel⟩,
  ⟨⟨[], { cfg := { load := some (fullLoad 0 [] [sec1 2 2351477386]) } }⟩, fullLoad 0 [] [sec1 2 2351477386], sec1 2 2351477386, ready_of
    (by decide +kernel), by decide +kernel⟩,
  ⟨⟨[], { cfg := { gate := 2 ^ 63, load := some { fullLoad 0 [(63, 1)] [sec1 1 0] with plain := recWords } } }⟩,
    { fullLoad 0 [(63, 1)] [sec1 1 0] with plain := recWords },
    { addrs := [130559], content := List.replicate 384 0, crc := 548225443, used := 4, poisoned := false }, 130559, 1, steady_of
    (by decide +kernel), by decide +kernel⟩,
  ⟨⟨[], calm0 { cfg := { leaves := [(127, { state := .loading })], load := some (fullLoad 0 [(63, 1)] [sec1 1 0]) }, bureau :=
                  { mbx := mbxRuns 0x0101 [0] } } 1⟩, fullLoad 0 [(63, 1)] [sec1 1 0], 63, 1, steady_of (by decide +kernel), mailbox_of
    (by decide +kernel), by decide +kernel⟩,
  ⟨⟨[], { cfg := { leaves := [(127, { state := .loading, seq := 1 })], load := some (fullLoad 1 [(63, 1)] [sec1 1 0]) }, bureau :=
            { mbx := mbxRuns 0x0101 [0] } }⟩, fullLoad 1 [(63, 1)] [sec1 1 0], 63, 1, steady_of (by decide +kernel), mailbox_of
    (by decide +kernel), by decide +kernel⟩,
  ⟨⟨[], calm0 { cfg := { leaves := [(127, { state := .loading })], load := some
                           { fullLoad 1 [(63, 1)] [sec1 1 0] with image := asImage (List.replicate 4 0) } }, bureau :=
                  { mbx := mbxRuns 0x0101 [0] } } 1⟩, { fullLoad 1 [(63, 1)] [sec1 1 0] with image := asImage (List.replicate 4 0) }, 63, 1,
    steady_of (by decide +kernel), mailbox_of (by decide +kernel), by decide +kernel⟩⟩

theorem met_StartUp :
    (∃ (s : State), s.ready ∧ s.dev.cfg.boot.due = true ∧ selfTestPending s.dev = false ∧ s.dev.cfg.regions = [] ∧ s.dev.clk.mgmt.cur = 1 ∧ 2
      ≤ fldR s.dev rBootCfg 17 16) ∧
    (∃ (s : State), s.ready ∧ s.dev.cfg.boot.due = true ∧ selfTestPending s.dev = false ∧ s.dev.cfg.regions = [] ∧ s.dev.clk.mgmt.cur = 1 ∧
      s.dev.clk.reduced = false ∧ s.dev.cfg.load = none ∧ jtagHolds s.dev = false ∧ fldR s.dev rBootCfg 17 16 = 1) ∧
    (∃ (s : State) (u : StartupRun), s.steady ∧ s.dev.cfg.startup = some u ∧ u.event = 1 ∧ u.warm = true ∧ s.dev.cfg.base = none) ∧
    (∃ (s : State) (u : StartupRun) (r : LoadRecord), s.steady ∧ s.dev.cfg.startup = some u ∧ u.event = 1 ∧ u.warm = false ∧ (enabledPlls
      s.dev.cfg.loadedBase).all (fun p => pllState s.dev p ≠ .off && pllHasRef s.dev p) = true ∧ recordOf s.dev 16 = some r ∧ (r.sectors.map
      (·.1)).Nodup ∧ tWf (fun _ => 0) s.dev.cfg.active = true ∧ tWf leafDflt s.dev.cfg.leaves = true ∧ (∀ e ∈ r.sectors, activeLeaf s.dev e.1
      ≤ 1)) ∧
    (∃ (s : State) (u : StartupRun), s.steady ∧ s.mailbox 0x0103 [] ∧ s.dev.cfg.startup = some u ∧ u.event = 1 ∧ u.fromCommit = true ∧ u.boot
      = false ∧ s.dev.cfg.boot.running = false ∧ reactionOf s.dev fltLoadFailed = 0) ∧
    (∃ (s : State) (u : StartupRun), s.ready ∧ s.dev.cfg.startup = some u ∧ u.event = 3 ∧ u.warm = false ∧ tWf sectorDflt s.dev.sectors =
      true) ∧
    (∃ (s : State) (u : StartupRun) (q : Fin 4), s.ready ∧ s.dev.cfg.startup = some u ∧ u.event = 4 ∧ q.val ∉ u.released ∧ (startSectors
      s.dev).all (initsEnded ((startSectors s.dev).foldl finishInit s.dev)) = true ∧ tWf sectorDflt s.dev.sectors = true ∧ tWf epDflt
      s.dev.net.eps = true) ∧
    (∃ (s : State) (u : StartupRun), s.ready ∧ s.dev.cfg.startup = some u ∧ u.event = 4 ∧ (startSectors s.dev).all (fun i =>
      u.released.contains (quadrantOf i)) = true ∧ reactionOf s.dev fltIoStandard = 0) ∧
    (∃ (s : State) (u : StartupRun), s.ready ∧ s.calm ∧ s.mailbox 0x0103 [] ∧ s.dev.cfg.startup = some u ∧ u.event = 7 ∧ u.fromCommit = true ∧
      s.dev.cfg.base = some { healthMs := 5 }) :=
  ⟨⟨⟨[], { clk := { mgmt := { cur := 1 } } }⟩, ready_of (by decide +kernel), by decide +kernel⟩,
  ⟨⟨[], setR { clk := { mgmt := { cur := 1 } } } rBootCfg 17 16 1⟩, ready_of (by decide +kernel), by decide +kernel⟩,
  ⟨⟨[], setR { cfg := { startup := some { event := 1, warm := true } } } rBar4 63 63 1⟩, { event := 1, warm := true }, steady_of
    (by decide +kernel), by decide +kernel⟩,
  ⟨⟨[], { cfg := { startup := some { event := 1, boot := true }, loadedBase := some base15, leaves := [(127,
                     { state := .sealed, imageId := 1, seq := 5 })], records := [(16,
                     { imageId := 1, digest := 2, sectors := [(63, 5)], baseId := 0 })] } }⟩, { event := 1, boot := true },
    { imageId := 1, digest := 2, sectors := [(63, 5)], baseId := 0 }, steady_of (by decide +kernel), by decide +kernel⟩,
  ⟨⟨[], calm0 { cfg := { startup := some { event := 1, fromCommit := true } }, bureau := { mbx := mbxRuns 0x0103 [0x100] } } 1⟩,
    { event := 1, fromCommit := true }, steady_of (by decide +kernel), mailbox_of (by decide +kernel), by decide +kernel⟩,
  ⟨⟨[], { cfg := { startup := some { event := 3 }, base := some base15 } }⟩, { event := 3 }, ready_of (by decide +kernel), by decide +kernel⟩,
  ⟨⟨[], { cfg := { startup := some { event := 4 }, base := some base15 } }⟩, { event := 4 }, 3, ready_of (by decide +kernel),
    by decide +kernel⟩,
  ⟨⟨[], calm0 { cfg := { startup := some { event := 4, released := [0, 1, 2, 3] }, base := some base15 } } 3⟩,
    { event := 4, released := [0, 1, 2, 3] }, ready_of (by decide +kernel), by decide +kernel⟩,
  ⟨⟨[], { cfg := { startup := some { event := 7, fromCommit := true }, base := some { healthMs := 5 } }, bureau :=
            { mbx := mbxRuns 0x0103 [0x100] } }⟩, { event := 7, fromCommit := true }, ready_of (by decide +kernel), calm_of
    (by decide +kernel), mailbox_of (by decide +kernel), by decide +kernel⟩⟩

theorem met_HealthAndReconfigure :
    (∃ (s : State) (inputs : BitVec 64), s.steady ∧ s.dev.cfg.health.running = true ∧ userOk s.dev inputs = true) ∧
    (∃ (s : State), s.steady ∧ s.dev.cfg.health.running = true ∧ bitR s.dev rBootCfg 12 = false ∧ reactionOf s.dev fltHealth = 0) ∧
    (∃ (s : State), s.ready ∧ s.calm ∧ s.mailbox 0x0105 [] ∧ s.dev.cfg.commit = none ∧ s.dev.cfg.regions = [] ∧ tWf sectorDflt s.dev.sectors =
      true ∧ tWf epDflt s.dev.net.eps = true) :=
  ⟨⟨⟨[], setR { sectors := [(63, { state := .active, gsr := false })], cfg := { frames := [(frameKey 63 0 0, { meaning := [.userOk true] })],
                                                                                  base := some base15, health := { running := true, ms := 5 }
                                                                                  } } rHealth 60 60 1⟩, BitVec.ofNat 64 (2 ^ 63), steady_of
    (by decide +kernel), by decide +kernel⟩,
  ⟨⟨[], setR (calm0 { cfg := { health := { running := true, ms := 5 } } } 1) rHealth 60 60 1⟩, steady_of (by decide +kernel),
    by decide +kernel⟩,
  ⟨⟨[], { sectors := [(63, { state := .active })], cfg := { done := true }, bureau := { mbx := mbxRuns 0x0105 [] } }⟩, ready_of
    (by decide +kernel), calm_of (by decide +kernel), mailbox_of (by decide +kernel), by decide +kernel⟩⟩

theorem met_RegionCommands :
    (∃ (s : State) (r : Fin 16), s.steady ∧ s.mailbox 0x0301 [(0xF, r.val)] ∧ tWf sectorDflt s.dev.sectors = true ∧ tWf epDflt s.dev.net.eps =
      true ∧ regionCheck s.dev r.val false [.active, .fenced] = 0 ∧ s.dev.cfg.commit = none) ∧
    (∃ (s : State) (r : Fin 16) (e : Nat), s.steady ∧ s.mailbox 0x0301 [(0xF, r.val)] ∧ regionCheck s.dev r.val false [.active, .fenced] = e ∧
      e ≠ 0) ∧
    (∃ (s : State) (r : Fin 16), s.steady ∧ s.mailbox 0x0302 [(0xF, r.val)] ∧ tWf sectorDflt s.dev.sectors = true ∧ tWf epDflt s.dev.net.eps =
      true ∧ regionCheck s.dev r.val false [.fenced] = 0 ∧ s.dev.cfg.commit = none ∧ (regionSectors s.dev r.val).any (secEscalated s.dev) =
      false) ∧
    (∃ (s : State) (r : Fin 16), s.steady ∧ s.mailbox 0x0302 [(0xF, r.val)] ∧ regionCheck s.dev r.val false [.fenced] = 0 ∧ s.dev.cfg.commit =
      none ∧ (regionSectors s.dev r.val).any (secEscalated s.dev) = true) ∧
    (∃ (s : State) (r : Fin 16), s.steady ∧ s.mailbox 0x0303 [(0x10F, r.val + 0x100)] ∧ tWf sectorDflt s.dev.sectors = true ∧ regionCheck
      s.dev r.val false [.active, .fenced] = 0 ∧ s.dev.cfg.commit = none) ∧
    (∃ (s : State) (r : Fin 16), s.steady ∧ s.mailbox 0x0303 [(0x10F, r.val)] ∧ tWf sectorDflt s.dev.sectors = true ∧ tWf epDflt s.dev.net.eps
      = true ∧ regionCheck s.dev r.val false [.resetting] = 0) ∧
    (∃ (s : State) (r : Fin 16), s.steady ∧ s.mailbox 0x0304 [(0x30F, r.val)] ∧ tWf sectorDflt s.dev.sectors = true ∧ regionCheck s.dev r.val
      false [.active, .fenced, .resetting] = 0 ∧ s.dev.cfg.commit = none) ∧
    (∃ (s : State) (r : Fin 16), s.steady ∧ s.mailbox 0x0304 [(0x30F, r.val + 0x100)] ∧ regionCheck s.dev r.val true [.active, .fenced,
      .resetting, .offRetained] = 0 ∧ s.dev.cfg.commit = none ∧ regionState s.dev r.val = .offRetained) ∧
    (∃ (s : State) (r : Fin 16), s.steady ∧ s.mailbox 0x0304 [(0x30F, r.val + 0x200)] ∧ tWf sectorDflt s.dev.sectors = true ∧ tWf epDflt
      s.dev.net.eps = true ∧ regionCheck s.dev r.val false [.offRetained, .offLost] = 0 ∧ regionState s.dev r.val = .offRetained) ∧
    (∃ (s : State) (r : Fin 16), s.steady ∧ s.mailbox 0x0304 [(0x30F, r.val + 0x200)] ∧ regionCheck s.dev r.val false [.offRetained, .offLost]
      = 0 ∧ regionState s.dev r.val = .offLost ∧ regionLoaded s.dev r.val = false) :=
  ⟨⟨⟨[], regionAt .active 0x0301 15⟩, 15, steady_of (by decide +kernel), mailbox_of (by decide +kernel), by decide +kernel⟩,
  ⟨⟨[], regionAt .resetting 0x0301 15⟩, 15, 3, steady_of (by decide +kernel), mailbox_of (by decide +kernel), by decide +kernel⟩,
  ⟨⟨[], regionAt .fenced 0x0302 15⟩, 15, steady_of (by decide +kernel), mailbox_of (by decide +kernel), by decide +kernel⟩,
  ⟨⟨[], { regionAt .fenced 0x0302 15 with groups := [(3, { esc := .escalated, secHold := 2 ^ 63 })] }⟩, 15, steady_of (by decide +kernel),
    mailbox_of (by decide +kernel), by decide +kernel⟩,
  ⟨⟨[], regionAt .active 0x0303 0x10F⟩, 15, steady_of (by decide +kernel), mailbox_of (by decide +kernel), by decide +kernel⟩,
  ⟨⟨[], regionAt .resetting 0x0303 15⟩, 15, steady_of (by decide +kernel), mailbox_of (by decide +kernel), by decide +kernel⟩,
  ⟨⟨[], regionAt .active 0x0304 15⟩, 15, steady_of (by decide +kernel), mailbox_of (by decide +kernel), by decide +kernel⟩,
  ⟨⟨[], regionAt .offRetained 0x0304 0x10F⟩, 15, steady_of (by decide +kernel), mailbox_of (by decide +kernel), by decide +kernel⟩,
  ⟨⟨[], regionAt .offRetained 0x0304 0x20F⟩, 15, steady_of (by decide +kernel), mailbox_of (by decide +kernel), by decide +kernel⟩,
  ⟨⟨[], regionAt .offLost 0x0304 0x20F⟩, 15, steady_of (by decide +kernel), mailbox_of (by decide +kernel), by decide +kernel⟩⟩

theorem met_RegionSequences :
    (∃ (s : State) (r : Fin 16) (q : RegionSeq), s.steady ∧ s.dev.cfg.regions = [q] ∧ q.region = r.val ∧ q.cmd ≠ .on ∧ q.event = 1 ∧
      (regionLive s.dev r.val).all (sectorDrained s.dev) = true) ∧
    (∃ (s : State) (r : Fin 16) (q : RegionSeq), s.steady ∧ s.dev.cfg.regions = [q] ∧ q.region = r.val ∧ q.cmd ≠ .on ∧ q.event = 1 ∧
      (regionLive s.dev r.val).all (sectorDrained s.dev) = false ∧ bitR s.dev rRegionCfg 20 = true ∧ tWf epDflt s.dev.net.eps = true) ∧
    (∃ (s : State) (r : Fin 16) (q : RegionSeq), s.steady ∧ s.mailbox 0x0304 [] ∧ tWf sectorDflt s.dev.sectors = true ∧ tWf epDflt
      s.dev.net.eps = true ∧ s.dev.cfg.regions = [q] ∧ q.region = r.val ∧ q.cmd = .offRetain ∧ q.prior = .active ∧ q.ended = false ∧ q.event =
      1 ∧ (regionLive s.dev r.val).all (sectorDrained s.dev) = false ∧ bitR s.dev rRegionCfg 20 = false) ∧
    (∃ (s : State) (r : Fin 16) (q : RegionSeq), s.steady ∧ s.mailbox 0x0303 [] ∧ tWf sectorDflt s.dev.sectors = true ∧ tWf epDflt
      s.dev.net.eps = true ∧ s.dev.cfg.regions = [q] ∧ q.region = r.val ∧ q.cmd = .reset ∧ q.ended = false ∧ q.event = 2) ∧
    (∃ (s : State) (r : Fin 16) (q : RegionSeq), s.steady ∧ tWf sectorDflt s.dev.sectors = true ∧ s.dev.cfg.regions = [q] ∧ q.region = r.val ∧
      q.cmd = .offRetain ∧ q.event = 2) ∧
    (∃ (s : State) (r : Fin 16) (q : RegionSeq), s.steady ∧ tWf sectorDflt s.dev.sectors = true ∧ tWf epDflt s.dev.net.eps = true ∧
      s.dev.cfg.regions = [q] ∧ q.region = r.val ∧ q.cmd = .offLose ∧ q.event = 4) ∧
    (∃ (s : State) (r : Fin 16) (q : RegionSeq), s.steady ∧ s.mailbox 0x0304 [] ∧ tWf sectorDflt s.dev.sectors = true ∧ s.dev.cfg.regions =
      [q] ∧ q.region = r.val ∧ q.cmd = .offRetain ∧ q.ended = false ∧ q.event = 5) ∧
    (∃ (s : State) (r : Fin 16) (q : RegionSeq), s.steady ∧ s.mailbox 0x0304 [] ∧ tWf sectorDflt s.dev.sectors = true ∧ tWf leafDflt
      s.dev.cfg.leaves = true ∧ s.dev.cfg.regions = [q] ∧ q.region = r.val ∧ q.cmd = .offLose ∧ q.ended = false ∧ q.event = 6) ∧
    (∃ (s : State) (r : Fin 16) (q : RegionSeq) (i : Nat), s.steady ∧ tWf sectorDflt s.dev.sectors = true ∧ s.dev.cfg.regions = [q] ∧ q.region
      = r.val ∧ q.cmd = .on ∧ q.event = 1 ∧ (regionLive s.dev r.val)[q.switches]? = some i) ∧
    (∃ (s : State) (r : Fin 16) (q : RegionSeq), s.steady ∧ s.dev.cfg.regions = [q] ∧ q.region = r.val ∧ q.cmd = .on ∧ q.event = 1 ∧ q.prior =
      .offRetained ∧ q.ended = false ∧ (regionLive s.dev r.val).length ≤ q.switches) ∧
    (∃ (s : State) (r : Fin 16) (q : RegionSeq), s.steady ∧ s.mailbox 0x0304 [] ∧ tWf sectorDflt s.dev.sectors = true ∧ tWf epDflt
      s.dev.net.eps = true ∧ s.dev.cfg.regions = [q] ∧ q.region = r.val ∧ q.cmd = .on ∧ q.event = 1 ∧ q.ended = false ∧ reactionOf s.dev
      fltSectorPower = 0) ∧
    (∃ (s : State) (r : Fin 16) (q : RegionSeq), s.steady ∧ tWf sectorDflt s.dev.sectors = true ∧ s.dev.cfg.regions = [q] ∧ q.region = r.val ∧
      q.cmd = .on ∧ q.event = 2) ∧
    (∃ (s : State) (r : Fin 16) (q : RegionSeq), s.steady ∧ s.mailbox 0x0304 [] ∧ tWf sectorDflt s.dev.sectors = true ∧ tWf epDflt
      s.dev.net.eps = true ∧ s.dev.cfg.regions = [q] ∧ q.region = r.val ∧ q.cmd = .on ∧ q.event = 5 ∧ q.ended = false ∧ (regionLive s.dev
      r.val).all (initsEnded ((regionLive s.dev r.val).foldl finishInit s.dev)) = true ∧ reactionOf s.dev fltIoStandard = 0) :=
  ⟨⟨⟨[], regionRuns .fenced 0x0303 (seqAt .reset 1 .active 0)⟩, 15, seqAt .reset 1 .active 0, steady_of (by decide +kernel),
    by decide +kernel⟩,
  ⟨⟨[], setR (sending (regionRuns .fenced 0x0303 (seqAt .reset 1 .active 0))) rRegionCfg 20 20 1⟩, 15, seqAt .reset 1 .active 0, steady_of
    (by decide +kernel), by decide +kernel⟩,
  ⟨⟨[], sending (regionRuns .fenced 0x0304 (seqAt .offRetain 1 .active 0))⟩, 15, seqAt .offRetain 1 .active 0, steady_of (by decide +kernel),
    mailbox_of (by decide +kernel), by decide +kernel⟩,
  ⟨⟨[], sending (regionRuns .fenced 0x0303 (seqAt .reset 2 .active 0))⟩, 15, seqAt .reset 2 .active 0, steady_of (by decide +kernel),
    mailbox_of (by decide +kernel), by decide +kernel⟩,
  ⟨⟨[], regionRuns .fenced 0x0304 (seqAt .offRetain 2 .active 0)⟩, 15, seqAt .offRetain 2 .active 0, steady_of (by decide +kernel),
    by decide +kernel⟩,
  ⟨⟨[], sending (regionRuns .fenced 0x0304 (seqAt .offLose 4 .active 0))⟩, 15, seqAt .offLose 4 .active 0, steady_of (by decide +kernel),
    by decide +kernel⟩,
  ⟨⟨[], regionRuns .offRetained 0x0304 (seqAt .offRetain 5 .active 0)⟩, 15, seqAt .offRetain 5 .active 0, steady_of (by decide +kernel),
    mailbox_of (by decide +kernel), by decide +kernel⟩,
  ⟨⟨[], regionRuns .offRetained 0x0304 (seqAt .offLose 6 .active 0)⟩, 15, seqAt .offLose 6 .active 0, steady_of (by decide +kernel),
    mailbox_of (by decide +kernel), by decide +kernel⟩,
  ⟨⟨[], regionRuns .resetting 0x0304 (seqAt .on 1 .offRetained 0)⟩, 15, seqAt .on 1 .offRetained 0, 63, steady_of (by decide +kernel),
    by decide +kernel⟩,
  ⟨⟨[], regionRuns .resetting 0x0304 (seqAt .on 1 .offRetained 1)⟩, 15, seqAt .on 1 .offRetained 1, steady_of (by decide +kernel),
    by decide +kernel⟩,
  ⟨⟨[], calm0 (regionRuns .resetting 0x0304 (seqAt .on 1 .offRetained 1)) 3⟩, 15, seqAt .on 1 .offRetained 1, steady_of (by decide +kernel),
    mailbox_of (by decide +kernel), by decide +kernel⟩,
  ⟨⟨[], regionRuns .resetting 0x0304 (seqAt .on 2 .offRetained 1)⟩, 15, seqAt .on 2 .offRetained 1, steady_of (by decide +kernel),
    by decide +kernel⟩,
  ⟨⟨[], calm0 (regionRuns .resetting 0x0304 (seqAt .on 5 .offRetained 1)) 3⟩, 15, seqAt .on 5 .offRetained 1, steady_of (by decide +kernel),
    mailbox_of (by decide +kernel), by decide +kernel⟩⟩

theorem met_FaultCollector :
    (∃ (s : State) (id : Fin 4096), s.ready ∧ reactionOf s.dev id.val = 0) ∧
    (∃ (s : State) (id : Fin 4096), s.ready ∧ isSource id.val = true ∧ reactionOf s.dev id.val = 1 ∧ tWf groupDflt s.dev.groups = true ∧
      (getGroup s.dev (id.val / 512)).valid = false) ∧
    (∃ (s : State) (id : Fin 4096), s.ready ∧ isSource id.val = true ∧ reactionOf s.dev id.val = 1 ∧ tWf groupDflt s.dev.groups = true ∧
      (getGroup s.dev (id.val / 512)).valid = true) ∧
    (∃ (s : State) (id : Fin 4096), s.ready ∧ isSource id.val = true ∧ reactionOf s.dev id.val = 2 ∧ tWf groupDflt s.dev.groups = true ∧
      (getGroup s.dev (id.val / 512)).valid = false ∧ (getGroup s.dev (id.val / 512)).sent = false ∧ hostLinkUp s.dev = true ∧ bitR s.dev
      (rMsix (id.val / 512) 1) 32 = false) ∧
    (∃ (s : State) (id : Fin 4096), s.ready ∧ isSource id.val = true ∧ id.val ≠ fltTempCrit ∧ reactionOf s.dev id.val = 3 ∧ tWf groupDflt
      s.dev.groups = true ∧ (getGroup s.dev (id.val / 512)).esc = .idle) ∧
    (∃ (s : State) (g : Fin 8), s.ready ∧ (getGroup s.dev g.val).esc = .timing) ∧
    (∃ (s : State) (g : Fin 8), s.ready ∧ (getGroup s.dev g.val).esc = .idle) ∧
    (∃ (s : State) (g : Fin 8), s.ready ∧ tWf groupDflt s.dev.groups = true ∧ tWf sectorDflt s.dev.sectors = true ∧ tWf epDflt s.dev.net.eps =
      true ∧ (getGroup s.dev g.val).esc = .escalated ∧ (getGroup s.dev g.val).crit = false ∧ (getGroup s.dev g.val).e3 = false ∧ (∀ h : Nat, h
      < 8 → h ≠ g.val → (getGroup s.dev h).secHold = 0 ∧ (getGroup s.dev h).e3 = false) ∧ s.dev.cfg.commit = none) ∧
    (∃ (s : State) (mask : BitVec 8), s.ready ∧ s.mailbox 0x0601 [(0xFF, mask.toNat)] ∧ tWf groupDflt s.dev.groups = true ∧ (∀ g : Nat, g < 8
      → (getGroup s.dev g).esc ≠ .escalated)) ∧
    (∃ (s : State), s.ready) ∧
    (∃ (s : State) (id : BitVec 12), s.ready ∧ tWf groupDflt s.dev.groups = true ∧ isSource id.toNat = true ∧ reactionOf s.dev id.toNat = 1) ∧
    (∃ (s : State), s.steady) ∧
    (∃ (s : State), s.ready ∧ s.dev.bureau.keys.testFuse = false) ∧
    (∃ (s : State) (v : Word), s.ready ∧ s.dev.bureau.keys.testFuse = true ∧ s.dev.power.testMode = true ∧ bit v 63 = true ∧ isSource (fld v
      11 0) = true ∧ reactionOf s.dev (fld v 11 0) = 1 ∧ tWf groupDflt s.dev.groups = true ∧ (getGroup s.dev (fld v 11 0 / 512)).valid =
      false) :=
  ⟨⟨⟨[], calm0 {} 6⟩, 0xC07, ready_of (by decide +kernel), by decide +kernel⟩,
  ⟨⟨[], setR {} (rReact 6 0) 15 14 1⟩, 0xC07, ready_of (by decide +kernel), by decide +kernel⟩,
  ⟨⟨[], setR { groups := [(6, { valid := true, count := 65535 })] } (rReact 6 0) 15 14 1⟩, 0xC07, ready_of (by decide +kernel),
    by decide +kernel⟩,
  ⟨⟨[], setR (setR { links := { pcie := [(0, { up := [0] })] } } (rMsix 6 1) 32 32 0) (rReact 6 0) 15 14 2⟩, 0xC07, ready_of
    (by decide +kernel), by decide +kernel⟩,
  ⟨⟨[], setR { cfg := { base := some { base15 with regions := [2 ^ 63 + 2 ^ 62] } } } (rReact 6 0) 15 14 3⟩, 0xC07, ready_of
    (by decide +kernel), by decide +kernel⟩,
  ⟨⟨[], { groups := [(6, { esc := .timing, affected := 5 })] }⟩, 6, ready_of (by decide +kernel), by decide +kernel⟩,
  ⟨⟨[], {}⟩, 7, ready_of (by decide +kernel), by decide +kernel⟩,
  ⟨⟨[], { sectors := [(62, { state := .fenced }), (63, { state := .fenced })], cfg := { base := some base15 }, groups := [(6,
            { esc := .escalated, affected := 5, pinHold := 2 ^ 62 + 2 ^ 63, secHold := 2 ^ 62 + 2 ^ 63 })] }⟩, 6, ready_of
    (by decide +kernel), by decide +kernel⟩,
  ⟨⟨[], { groups := [(6, { esc := .timing, affected := 5 })], bureau := { mbx := mbxRuns 0x0601 [0x40] } }⟩, 0x40, ready_of
    (by decide +kernel), mailbox_of (by decide +kernel), by decide +kernel⟩,
  ⟨⟨[], { groups := [(6, { valid := true, count := 65535 })] }⟩, ready_of (by decide +kernel)⟩,
  ⟨⟨[], setR { groups := [(6, { valid := true, count := 65535 })] } (rReact 6 0) 15 14 1⟩, 0xC07, ready_of (by decide +kernel),
    by decide +kernel⟩,
  ⟨⟨[], {}⟩, steady_of (by decide +kernel)⟩,
  ⟨⟨[], {}⟩, ready_of (by decide +kernel), by decide +kernel⟩,
  ⟨⟨[], setR { power := { testMode := true }, bureau := { keys := { testFuse := true } } } (rReact 0 0) 1 0 1⟩, BitVec.ofNat 64 (2 ^ 63),
    ready_of (by decide +kernel), by decide +kernel⟩⟩

theorem met_Escalation :
    (∃ (s : State) (g : Fin 8), s.ready ∧ tWf groupDflt s.dev.groups = true ∧ (getGroup s.dev g.val).esc = .timing ∧ levelOf s.dev g.val = 1) ∧
    (∃ (s : State) (g : Fin 8), s.ready ∧ tWf groupDflt s.dev.groups = true ∧ tWf sectorDflt s.dev.sectors = true ∧ tWf epDflt s.dev.net.eps =
      true ∧ (getGroup s.dev g.val).esc = .timing ∧ levelOf s.dev g.val = 2 ∧ s.dev.cfg.commit = none) ∧
    (∃ (s : State) (g : Fin 8), s.ready ∧ s.calm ∧ tWf groupDflt s.dev.groups = true ∧ (getGroup s.dev g.val).esc = .escalated ∧ levelInForce
      s.dev g.val = 3 ∧ (getGroup s.dev g.val).applied = 3 ∧ bitR s.dev (rFltCfg g.val) 62 = true ∧ s.dev.power.warm = none) ∧
    (∃ (s : State) (k : Fin 39) (v : BitVec 8), s.steady ∧ s.calm ∧ tWf groupDflt s.dev.groups = true ∧ tWf sectorDflt s.dev.sectors = true ∧
      110 ≤ v.toNat ∧ v.toNat < 128 ∧ sint 8 (tGet (fun _ => 0) s.dev.power.temps k.val) < 110 ∧ s.dev.cfg.commit = none) ∧
    (∃ (s : State) (v : BitVec 8), s.steady ∧ v.toNat < 100 ∧ v.toNat < fldR s.dev rFltTherm 31 24) :=
  ⟨⟨⟨[], setR { groups := [(6, { esc := .timing, affected := 5 })] } (rFltCfg 6) 58 56 1⟩, 6, ready_of (by decide +kernel),
    by decide +kernel⟩,
  ⟨⟨[], setR { sectors := [(63, { state := .active })], groups := [(6, { esc := .timing, affected := 2 ^ 63 })] } (rFltCfg 6) 58 56 2⟩, 6,
    ready_of (by decide +kernel), by decide +kernel⟩,
  ⟨⟨[], setRs { groups := [(6, { esc := .escalated, applied := 3, e3 := true })] } [(rFltCfg 6, 58, 56, 3), (rFltCfg 6, 62, 62, 1)]⟩, 6,
    ready_of (by decide +kernel), calm_of (by decide +kernel), by decide +kernel⟩,
  ⟨⟨[], { sectors := [(63, { state := .active })] }⟩, 38, 127, steady_of (by decide +kernel), calm_of (by decide +kernel), by decide +kernel⟩,
  ⟨⟨[], {}⟩, 84, steady_of (by decide +kernel), by decide +kernel⟩⟩

theorem met_Scrubbing :
    (∃ (s : State) (q : Fin 4) (p ip n l : Nat) (e : Word), s.ready ∧ scrubRuns s.dev = true ∧ scrubCopies s.dev = List.replicate 3 (nth {}
      (scrubCopies s.dev) 0) ∧ seqOf q.val (nth {} (scrubCopies s.dev) 0) = [p, ip, n, (getR s.dev rScrubCfg).toNat] ∧ n < effRatio s.dev ∧
      (q.val ≠ 0 ∨ p ≠ 24575) ∧ slotLeaves s.dev (16 * q.val + p / 1536) false = [l] ∧ l < 2 ∧ frameKey (16 * q.val + p / 1536) l (p % 1536) ∉
      s.dev.cfg.scrub.waiting ∧ frameKey (16 * q.val + p / 1536) l (p % 1536) ∉ s.dev.cfg.scrub.scheduled ∧ frameKey (16 * q.val + p / 1536) l
      (p % 1536) ∉ s.dev.cfg.scrub.unrestored ∧ (decodeWord (getLedger s.dev (frameKey (16 * q.val + p / 1536) l (p % 1536)))).outcome =
      .clean ∧ (decodeWord (getLedger s.dev (frameKey (16 * q.val + p / 1536) l (p % 1536)))).data = e ∧ fld e 15 0 = (getLeaf s.dev (16 *
      q.val + p / 1536) l).seq % 2 ^ 16 ∧ crc32c (wordBytes (frameWords (getFrame s.dev (16 * q.val + p / 1536) l (p % 1536)).words)) = fld e
      63 32 ∧ frameSyndrome (frameWords (getFrame s.dev (16 * q.val + p / 1536) l (p % 1536)).words) = fld e 31 17 ∧ frameParity (frameWords
      (getFrame s.dev (16 * q.val + p / 1536) l (p % 1536)).words) = bit e 16) ∧
    (∃ (s : State) (q : Fin 4) (p ip n l : Nat) (e : Word) (b : Fin 24576), s.steady ∧ scrubRuns s.dev = true ∧ tWf frameDflt s.dev.cfg.frames
      = true ∧ scrubCopies s.dev = List.replicate 3 (nth {} (scrubCopies s.dev) 0) ∧ seqOf q.val (nth {} (scrubCopies s.dev) 0) = [p, ip, n,
      (getR s.dev rScrubCfg).toNat] ∧ n < effRatio s.dev ∧ slotLeaves s.dev (16 * q.val + p / 1536) false = [l] ∧ l < 2 ∧ frameKey (16 * q.val
      + p / 1536) l (p % 1536) ∉ s.dev.cfg.scrub.waiting ∧ frameKey (16 * q.val + p / 1536) l (p % 1536) ∉ s.dev.cfg.scrub.scheduled ∧
      (decodeWord (getLedger s.dev (frameKey (16 * q.val + p / 1536) l (p % 1536)))).outcome = .clean ∧ (decodeWord (getLedger s.dev (frameKey
      (16 * q.val + p / 1536) l (p % 1536)))).data = e ∧ fld e 15 0 = (getLeaf s.dev (16 * q.val + p / 1536) l).seq % 2 ^ 16 ∧ frameSyndrome
      (frameWords (getFrame s.dev (16 * q.val + p / 1536) l (p % 1536)).words) ^^^ fld e 31 17 = b.val + 1 ∧ frameParity (frameWords (getFrame
      s.dev (16 * q.val + p / 1536) l (p % 1536)).words) = !bit e 16 ∧ crc32c (wordBytes (flipBit (frameWords (getFrame s.dev (16 * q.val + p
      / 1536) l (p % 1536)).words) b.val)) = fld e 63 32) ∧
    (∃ (s : State) (q : Fin 4) (p ip n l : Nat) (e : Word), s.ready ∧ scrubRuns s.dev = true ∧ scrubCopies s.dev = List.replicate 3 (nth {}
      (scrubCopies s.dev) 0) ∧ seqOf q.val (nth {} (scrubCopies s.dev) 0) = [p, ip, n, (getR s.dev rScrubCfg).toNat] ∧ n < effRatio s.dev ∧
      (q.val ≠ 0 ∨ p ≠ 24575) ∧ slotLeaves s.dev (16 * q.val + p / 1536) false = [l] ∧ l < 2 ∧ frameKey (16 * q.val + p / 1536) l (p % 1536) ∉
      s.dev.cfg.scrub.waiting ∧ frameKey (16 * q.val + p / 1536) l (p % 1536) ∉ s.dev.cfg.scrub.scheduled ∧ (decodeWord (getLedger s.dev
      (frameKey (16 * q.val + p / 1536) l (p % 1536)))).outcome = .clean ∧ (decodeWord (getLedger s.dev (frameKey (16 * q.val + p / 1536) l (p
      % 1536)))).data = e ∧ fld e 15 0 = (getLeaf s.dev (16 * q.val + p / 1536) l).seq % 2 ^ 16 ∧ frameSyndrome (frameWords (getFrame s.dev
      (16 * q.val + p / 1536) l (p % 1536)).words) ≠ fld e 31 17 ∧ frameParity (frameWords (getFrame s.dev (16 * q.val + p / 1536) l (p %
      1536)).words) = bit e 16) ∧
    (∃ (s : State) (q : Fin 4) (p ip n l : Nat), s.ready ∧ scrubRuns s.dev = true ∧ scrubCopies s.dev = List.replicate 3 (nth {} (scrubCopies
      s.dev) 0) ∧ seqOf q.val (nth {} (scrubCopies s.dev) 0) = [p, ip, n, (getR s.dev rScrubCfg).toNat] ∧ n < effRatio s.dev ∧ (q.val ≠ 0 ∨ p
      ≠ 24575) ∧ slotLeaves s.dev (16 * q.val + p / 1536) false = [l] ∧ l < 2 ∧ frameKey (16 * q.val + p / 1536) l (p % 1536) ∉
      s.dev.cfg.scrub.waiting ∧ (decodeWord (getLedger s.dev (frameKey (16 * q.val + p / 1536) l (p % 1536)))).outcome = .clean ∧ fld
      (decodeWord (getLedger s.dev (frameKey (16 * q.val + p / 1536) l (p % 1536)))).data 15 0 ≠ (getLeaf s.dev (16 * q.val + p / 1536) l).seq
      % 2 ^ 16) ∧
    (∃ (s : State), s.ready ∧ scrubRuns s.dev = false ∧ scrubCopies s.dev = List.replicate 3 (nth {} (scrubCopies s.dev) 0)) ∧
    (∃ (s : State), s.steady ∧ scrubRuns s.dev = false ∧ s.dev.cfg.scrub.wf = true ∧ scrubCopies s.dev = List.replicate 3 (nth {} (scrubCopies
      s.dev) 0)) ∧
    (∃ (s : State) (sec : Fin 64) (l : LeafId) (f : Fin 1536) (ws : List Word), s.steady ∧ repairRuns s.dev sec.val = true ∧ tWf frameDflt
      s.dev.cfg.frames = true ∧ frameKey sec.val l.val f.val ∈ s.dev.cfg.scrub.waiting ∧ frameKey sec.val l.val f.val ∉
      s.dev.cfg.scrub.scheduled ∧ repairContent (frameKey sec.val l.val f.val) s.dev = .content ws ∧ ledgerOf ws (fld (decodeWord (getLedger
      s.dev (frameKey sec.val l.val f.val))).data 15 0) = (decodeWord (getLedger s.dev (frameKey sec.val l.val f.val))).data) ∧
    (∃ (s : State) (sec : Fin 64) (l : LeafId) (f : Fin 1536) (kind : Fin 2), s.steady ∧ repairRuns s.dev sec.val = true ∧ frameKey sec.val
      l.val f.val ∈ s.dev.cfg.scrub.waiting ∧ frameKey sec.val l.val f.val ∉ s.dev.cfg.scrub.scheduled ∧ frameKey sec.val l.val f.val ∉
      s.dev.cfg.scrub.unrestored ∧ repairContent (frameKey sec.val l.val f.val) s.dev = (if kind = 0 then .noSource else .bad) ∧ countsActive
      s.dev sec.val l.val = true ∧ tWf leafDflt s.dev.cfg.leaves = true ∧ reactionOf s.dev fltScrubDamaged = 0 ∧ bitR s.dev rScrubFirst 63 =
      false) ∧
    (∃ (s : State) (sec : Fin 64) (l : LeafId) (f : Fin 1536), s.ready ∧ (repairRuns s.dev sec.val = false ∨ frameKey sec.val l.val f.val ∉
      s.dev.cfg.scrub.waiting)) ∧
    (∃ (s : State) (sec : Fin 64) (l : LeafId) (f : Fin 1536) (ws : List Word), s.steady ∧ repairRuns s.dev sec.val = true ∧ tWf (ledgerDflt
      s.dev) s.dev.cfg.ledger = true ∧ frameKey sec.val l.val f.val ∈ s.dev.cfg.scrub.waiting ∧ frameKey sec.val l.val f.val ∈
      s.dev.cfg.scrub.scheduled ∧ repairContent (frameKey sec.val l.val f.val) s.dev = .content ws) ∧
    (∃ (s : State) (sec : Fin 64) (l : LeafId) (f : Fin 1536), s.steady ∧ repairRuns s.dev sec.val = true ∧ frameKey sec.val l.val f.val ∈
      s.dev.cfg.scrub.waiting ∧ frameKey sec.val l.val f.val ∈ s.dev.cfg.scrub.scheduled ∧ frameKey sec.val l.val f.val ∉
      s.dev.cfg.scrub.unrestored ∧ repairContent (frameKey sec.val l.val f.val) s.dev = .noSource ∧ countsActive s.dev sec.val l.val = true ∧
      tWf leafDflt s.dev.cfg.leaves = true ∧ reactionOf s.dev fltScrubDamaged = 0) ∧
    (∃ (s : State), s.steady) :=
  ⟨⟨⟨[], scrubAt [] 0 {}⟩, 3, 24574, 0, 0, 0, BitVec.ofNat 64 (548225443 * 2 ^ 32), ready_of (by decide +kernel), by decide +kernel⟩,
  ⟨⟨[], scrubAt [(383, 2 ^ 63)] 0 {}⟩, 3, 24574, 0, 0, 0, BitVec.ofNat 64 (548225443 * 2 ^ 32), 24575, steady_of (by decide +kernel),
    by decide +kernel⟩,
  ⟨⟨[], scrubAt [(0, 3)] 0 {}⟩, 3, 24574, 0, 0, 0, BitVec.ofNat 64 (548225443 * 2 ^ 32), ready_of (by decide +kernel), by decide +kernel⟩,
  ⟨⟨[], scrubAt [] 1 {}⟩, 3, 24574, 0, 0, 0, ready_of (by decide +kernel), by decide +kernel⟩,
  ⟨⟨[], {}⟩, ready_of (by decide +kernel), by decide +kernel⟩,
  ⟨⟨[], {}⟩, steady_of (by decide +kernel), by decide +kernel⟩,
  ⟨⟨[], repairable []⟩, 63, 0, 1535, List.replicate 384 0, steady_of (by decide +kernel), by decide +kernel⟩,
  ⟨⟨[], calm0 (unsourced [] none) 1⟩, 63, 0, 1535, 0, steady_of (by decide +kernel), by decide +kernel⟩,
  ⟨⟨[], {}⟩, 63, 0, 1535, ready_of (by decide +kernel), by decide +kernel⟩,
  ⟨⟨[], repairable [frameKey 63 0 1535]⟩, 63, 0, 1535, List.replicate 384 0, steady_of (by decide +kernel), by decide +kernel⟩,
  ⟨⟨[], calm0 (unsourced [frameKey 63 0 1535] none) 1⟩, 63, 0, 1535, steady_of (by decide +kernel), by decide +kernel⟩,
  ⟨⟨[], setR {} rScrubCounts 63 0 0xFFFFFFFFFFFFFFFF⟩, steady_of (by decide +kernel)⟩⟩

theorem met_HostAccesses :
    (∃ (s : State), s.steady) ∧
    (∃ (s : State), s.steady) ∧
    (∃ (s : State), s.ready ∧ reactionOf s.dev fltPoisonRefused = 0) ∧
    (∃ (s : State), s.ready ∧ linkUp s.dev 0 0 = true) ∧
    (∃ (s : State), s.steady ∧ linkUp s.dev 0 0 = true) ∧
    (∃ (s : State) (off : BitVec 36) (x : Issue) (dr dp : Nat), s.ready ∧ linkUp s.dev 0 0 = true ∧ (getPcie s.dev 0).full = true ∧ pcieIn
      s.dev 0 = true ∧ (getPcie s.dev 0).links = 1 ∧ (getPcie s.dev 0).host = [] ∧ off.toNat % 8 = 0 ∧ bitR s.dev (rXlate (off.toNat / 2 ^
      32)) 63 = true ∧ x = rangeIssue .rd (fldR s.dev (rXlate (off.toNat / 2 ^ 32)) 47 32 * 2 ^ 32 + off.toNat % 2 ^ 32) (List.replicate 8
      (some (0, false))) (fldR s.dev (rXlate (off.toNat / 2 ^ 32)) 5 0) ∧ decodeAddr s.dev false x.addr x.len x.first x.last = .to dr dp ∧
      (getEp s.dev (pcieKey 0)).requests = [] ∧ (getEp s.dev (pcieKey 0)).outq = [] ∧ tWf epDflt s.dev.net.eps = true ∧ tWf pcieDflt
      s.dev.links.pcie = true) ∧
    (∃ (s : State) (off : BitVec 36) (x : Issue) (dr dp : Nat), s.ready ∧ linkUp s.dev 0 0 = true ∧ (getPcie s.dev 0).full = true ∧ pcieIn
      s.dev 0 = true ∧ (getPcie s.dev 0).host = [] ∧ off.toNat % 8 = 0 ∧ 20 ≤ fldR s.dev rBar4 21 16 ∧ bitR s.dev rBar4 63 = true ∧ off.toNat
      < 2 ^ fldR s.dev rBar4 21 16 ∧ x = rangeIssue .rd (windowBase (fldR s.dev rBar4 8 0) (fldR s.dev rBar4 10 9) + off.toNat / 2 ^ 32 * 2 ^
      32 + off.toNat % 2 ^ 32) (List.replicate 8 (some (0, false))) 0 ∧ decodeAddr s.dev false x.addr x.len x.first x.last = .to dr dp ∧
      (getEp s.dev (pcieKey 0)).requests = [] ∧ (getEp s.dev (pcieKey 0)).outq = [] ∧ tWf epDflt s.dev.net.eps = true ∧ tWf pcieDflt
      s.dev.links.pcie = true) ∧
    (∃ (s : State) (off : BitVec 36), s.ready ∧ linkUp s.dev 0 0 = true ∧ (getPcie s.dev 0).links = 1 ∧ bitR s.dev (rXlate (off.toNat / 2 ^
      32)) 63 = false) :=
  ⟨⟨⟨[], {}⟩, steady_of (by decide +kernel)⟩,
  ⟨⟨[], setRs {} [(rHealth, 63, 0, 0xFFFFFFFFFFFFFFFF)]⟩, steady_of (by decide +kernel)⟩,
  ⟨⟨[], calm0 {} 0⟩, ready_of (by decide +kernel), by decide +kernel⟩,
  ⟨⟨[], { links := hostUp }⟩, ready_of (by decide +kernel), by decide +kernel⟩,
  ⟨⟨[], { links := hostUp }⟩, steady_of (by decide +kernel), by decide +kernel⟩,
  ⟨⟨[], setRs { links := hostUp } [(rXlate 15, 63, 63, 1), (rXlate 15, 47, 32, 0x4000)]⟩, 0xF00000FF8, rangeIssue .rd (0x4000 * 2 ^ 32 +
    0xFF8) (List.replicate 8 (some (0, false))) 0, 4, 0, ready_of (by decide +kernel), by decide +kernel⟩,
  ⟨⟨[], setRs { links := hostUp } [(rBar4, 63, 63, 1), (rBar4, 21, 16, 20), (rBar4, 8, 0, 33)]⟩, 0xFFFF8, rangeIssue .rd (windowBase 33 0 +
    0xFFFF8) (List.replicate 8 (some (0, false))) 0, 33, 0, ready_of (by decide +kernel), by decide +kernel⟩,
  ⟨⟨[], { links := hostUp }⟩, 0xF00000FF8, ready_of (by decide +kernel), by decide +kernel⟩⟩

theorem met_FlipFlopsAndBenches :
    (∃ (s : State) (sec : Sec) (u : Fin 138) (v : Fin 96) (h : Fin 2) (i : Fin 8), s.ready ∧ tWf sectorDflt s.dev.sectors = true ∧ tWf (fun _
      => false) (getSec s.dev sec.val).ffs = true ∧ edgeAt s.dev sec.val (halfCfg (items s.dev sec.val) u.val v.val h.val).clk = true ∧
      isLogicColumn u.val = true ∧ (cellCfg (items s.dev sec.val) u.val v.val (8 * h.val + i.val)).ff0d = 2) ∧
    (∃ (s : State) (sec : Sec) (col : Fin 10) (lane : Fin 2), s.ready ∧ (laneCfgOf (items s.dev sec.val) col.val lane.val).dynamic = true ∧
      edgeAt s.dev sec.val (laneCfgOf (items s.dev sec.val) col.val lane.val).clk = true) ∧
    (∃ (s : State) (c : Fin 480) (i : Nat) (e : IoEdge), s.ready ∧ ioOwner s.dev c.val = some i ∧ e.rising = true ∧ edgeAt s.dev i (cellFields
      (items s.dev i) c.val).clk = true ∧ (cellFields (items s.dev i) c.val).inMode = 1 ∧ (cellFields (items s.dev i) c.val).outMode = 1 ∧
      (cellFields (items s.dev i) c.val).dlyDyn = false ∧ tWf cellDflt s.dev.io.cells = true) ∧
    (∃ (s : State) (sec : Fin 64) (w : Wire), s.ready ∧ wireExists w = true ∧ (getSec s.dev sec.val).vcc = true ∧ (getSec s.dev sec.val).state
      ≠ .initialLoad) ∧
    (∃ (s : State) (sec : Sec), s.ready ∧ tWf sectorDflt s.dev.sectors = true ∧ (getSec s.dev sec.val).gsrDue = true) ∧
    (∃ (s : State) (sec : Sec) (col : Fin 6) (x : BenchIn) (g : BenchCfg) (e : BenchCap), s.ready ∧ tWf sectorDflt s.dev.sectors = true ∧ tWf
      benchDflt (getSec s.dev sec.val).benches = true ∧ g = benchCfg (items s.dev sec.val) col.val x.site.val ∧ edgeAt s.dev sec.val g.clk =
      true ∧ g.mode = .dual ∧ g.preOp0 = 0 ∧ g.preOp1 = 0 ∧ g.tsrc = 0 ∧ g.accIn0 = 0 ∧ g.accIn1 = 0 ∧ g.cascadeOpd = false ∧ nth {} (getBench
      (getSec s.dev sec.val) col.val x.site.val).pipe 2 = e ∧ e.clr0 = false ∧ e.clr1 = false ∧ (getBench (getSec s.dev sec.val) col.val
      x.site.val).pipe.length ≤ 6) ∧
    (∃ (s : State) (sec : Sec) (col : Fin 6) (site : Fin 32), s.ready ∧ edgeAt s.dev sec.val (benchCfg (items s.dev sec.val) col.val
      site.val).clk = true) :=
  ⟨⟨⟨[], fab [.half 137 95 1 { clk := line0 }, .cell 137 95 15 { ff0d := 2, ff0ceUse := true }] id⟩, 63, 137, 95, 1, 7, ready_of
    (by decide +kernel), by decide +kernel⟩,
  ⟨⟨[], fab [.lane 9 1 { dynamic := true, clk := line0 }] id⟩, 63, 9, 1, ready_of (by decide +kernel), by decide +kernel⟩,
  ⟨⟨[], { fab [.ioCell 479 { std := 0, inMode := 1, outMode := 1, clk := line0 }] id with cfg := { (fab [] id).cfg with base := some { base15 with hv := List.replicate 95 255 ++ [63] }, frames := [(frameKey 63 0 0, { meaning := [.ioCell 479 { std := 0, inMode := 1, outMode := 1, clk := line0 }] })] }
                                                                                            }⟩, 479, 63, { pad := true, d1 := true }, ready_of
    (by decide +kernel), by decide +kernel⟩,
  ⟨⟨[], fab [.mux { cls := .thirtyTwo, dir := 1, n := 1, u := 137, v := 95 } 1] id⟩, 63,
    { cls := .thirtyTwo, dir := 1, n := 1, u := 137, v := 95 }, ready_of (by decide +kernel), by decide +kernel⟩,
  ⟨⟨[], fab [.cell 137 95 15 { ff0init := true }] fun c => { c with gsr := true, gsrDue := true, clocks := false }⟩, 63, ready_of
    (by decide +kernel), by decide +kernel⟩,
  ⟨⟨[], fab [.bench 5 31 { clk := line0, mode := .dual }] fun c => { c with benches := [(191,
                                                                              { acc0 := 7, pipe := [{}, {}, { a := [2, 3, 0xFFFFF, 1], b := [5, 0x80000, 4, 1] }] })]
                                                                              }⟩, 63, 5, { site := 31, a := [1, 2, 3, 4], b := [5, 6, 7, 8] },
    { clk := line0, mode := .dual }, { a := [2, 3, 0xFFFFF, 1], b := [5, 0x80000, 4, 1] }, ready_of (by decide +kernel), by decide +kernel⟩,
  ⟨⟨[], fab [.bench 5 31 { clk := line0 }] fun c => { c with benches := [(191, { acc0 := 7 })] }⟩, 63, 5, 31, ready_of (by decide +kernel),
    by decide +kernel⟩⟩

theorem met_DrawerAccesses :
    (∃ (s : State) (sec : Sec) (dr : Fin 128) (p q : PortIn) (g : DrawerCfg), s.ready ∧ tWf sectorDflt s.dev.sectors = true ∧ tWf drawerDflt
      (getSec s.dev sec.val).drawers = true ∧ tWf (fun _ => 0) (getDrawer (getSec s.dev sec.val) dr.val).arr = true ∧ g = drawerCfg (items
      s.dev sec.val) dr.val ∧ g.runner = .none ∧ g.raw = true ∧ g.widthA = 0 ∧ g.writeModeA = 2 ∧ g.wsrcA = 0 ∧ q = routedPort s.dev (items
      s.dev sec.val) sec.val dr.val false p ∧ edgeAt s.dev sec.val g.clkA = true ∧ (getDrawer (getSec s.dev sec.val) dr.val).initing = false ∧
      q.en = true ∧ q.we = 15) ∧
    (∃ (s : State) (sec : Sec) (dr : Fin 128) (p q : PortIn) (g : DrawerCfg), s.ready ∧ tWf sectorDflt s.dev.sectors = true ∧ tWf drawerDflt
      (getSec s.dev sec.val).drawers = true ∧ q = routedPort s.dev (items s.dev sec.val) sec.val dr.val false p ∧ g = drawerCfg (items s.dev
      sec.val) dr.val ∧ g.runner = .none ∧ g.raw = true ∧ g.outReg = false ∧ g.widthA = 0 ∧ g.wsrcA = 0 ∧ edgeAt s.dev sec.val g.clkA = true ∧
      (getDrawer (getSec s.dev sec.val) dr.val).initing = false ∧ (getDrawer (getSec s.dev sec.val) dr.val).a.stage = none ∧ q.en = true ∧
      q.we = 0) ∧
    (∃ (s : State) (sec : Sec) (dr : Fin 128), s.ready ∧ (fabricLive s.dev sec.val || ((getSec s.dev sec.val).vcc && decide (sec.val < 64))) =
      true ∧ initClock s.dev sec.val (drawerCfg (items s.dev sec.val) dr.val) = true ∧ (getDrawer (getSec s.dev sec.val) dr.val).rst = false ∧
      regionOf s.dev sec.val = none ∧ (getDrawer (getSec s.dev sec.val) dr.val).initing = true) ∧
    (∃ (s : State) (sec : Sec) (dr : Fin 128) (g : DrawerCfg), s.ready ∧ g = drawerCfg (items s.dev sec.val) dr.val ∧ passRuns g (getDrawer
      (getSec s.dev sec.val) dr.val) = true ∧ edgeAt s.dev sec.val (if g.runner = .single then g.clkA else g.clkB) = true ∧ (getDrawer (getSec
      s.dev sec.val) dr.val).passPend = none ∧ (decodeWord (rowGet (getDrawer (getSec s.dev sec.val) dr.val) (getDrawer (getSec s.dev sec.val)
      dr.val).passRow)).outcome = .clean) ∧
    (∃ (s : State) (sec : Sec) (dr : Fin 128) (g : DrawerCfg) (r : Nat) (v : PWord), s.ready ∧ g = drawerCfg (items s.dev sec.val) dr.val ∧
      passRuns g (getDrawer (getSec s.dev sec.val) dr.val) = true ∧ edgeAt s.dev sec.val (if g.runner = .single then g.clkA else g.clkB) =
      true ∧ (getDrawer (getSec s.dev sec.val) dr.val).passPend = some (r, v)) :=
  ⟨⟨fabDr drRaw { arr := [(5, 1)] }, 63, 127, { addr := 1023, we := 15, din := 77 }, { addr := 1023, we := 15, din := 77 }, drRaw, ready_of
    (by decide +kernel), by decide +kernel⟩,
  ⟨fabDr drRaw { arr := [(1023, 77)] }, 63, 127, { addr := 1023 }, { addr := 1023 }, drRaw, ready_of (by decide +kernel), by decide +kernel⟩,
  ⟨⟨[], fab [.drawer 127 { clkA := line0, init := true }] fun c => { c with drawers := [(127, { initing := true, arr := [(5, 1)] })] }⟩, 63,
    127, ready_of (by decide +kernel), by decide +kernel⟩,
  ⟨fabDr { drRaw with raw := false, passEn := true } { passRow := 1023 }, 63, 127, { drRaw with raw := false, passEn := true }, ready_of
    (by decide +kernel), by decide +kernel⟩,
  ⟨fabDr { drRaw with raw := false, passEn := true } { passRow := 1023, passPend := some (1023, 77) }, 63, 127,
    { drRaw with raw := false, passEn := true }, 1023, 77, ready_of (by decide +kernel), by decide +kernel⟩⟩

theorem met_RunnerQueues :
    (∃ (s : State) (sec : Sec) (dr : Fin 128) (g : DrawerCfg), s.ready ∧ tWf sectorDflt s.dev.sectors = true ∧ tWf drawerDflt (getSec s.dev
      sec.val).drawers = true ∧ tWf (fun _ => 0) (getDrawer (getSec s.dev sec.val) dr.val).arr = true ∧ g = drawerCfg (items s.dev sec.val)
      dr.val ∧ g.runner = .single ∧ g.raw = false ∧ g.wsrcA = 0 ∧ edgeAt s.dev sec.val g.clkA = true ∧ (getDrawer (getSec s.dev sec.val)
      dr.val).initing = false ∧ qFull g (getDrawer (getSec s.dev sec.val) dr.val) = false) ∧
    (∃ (s : State) (sec : Sec) (dr : Fin 128) (g : DrawerCfg), s.ready ∧ g = drawerCfg (items s.dev sec.val) dr.val ∧ g.runner = .dual ∧
      edgeAt s.dev sec.val g.clkA = true ∧ (getDrawer (getSec s.dev sec.val) dr.val).initing = false ∧ wrBusy (getDrawer (getSec s.dev
      sec.val) dr.val) = false ∧ qFull g (getDrawer (getSec s.dev sec.val) dr.val) = true) ∧
    (∃ (s : State) (sec : Sec) (dr : Fin 128) (g : DrawerCfg) (x : Drawer), s.ready ∧ tWf sectorDflt s.dev.sectors = true ∧ tWf drawerDflt
      (getSec s.dev sec.val).drawers = true ∧ x = getDrawer (getSec s.dev sec.val) dr.val ∧ g = drawerCfg (items s.dev sec.val) dr.val ∧
      g.runner = .dual ∧ g.raw = false ∧ edgeAt s.dev sec.val g.clkB = true ∧ x.initing = false ∧ qEmpty g x = false ∧ x.b.stage = none ∧
      (decodeWord (rowGet x (x.rp % 1024))).outcome = .clean) ∧
    (∃ (s : State) (sec : Sec) (dr : Fin 128) (g : DrawerCfg) (p : Nat) (ps : List Nat), s.ready ∧ g = drawerCfg (items s.dev sec.val) dr.val
      ∧ g.runner = .dual ∧ edgeAt s.dev sec.val g.clkB = true ∧ (getDrawer (getSec s.dev sec.val) dr.val).toRead = p :: ps ∧ rdBusy (getDrawer
      (getSec s.dev sec.val) dr.val) = false) ∧
    (∃ (s : State) (sec : Sec) (dr : Fin 128) (g : DrawerCfg), s.ready ∧ tWf sectorDflt s.dev.sectors = true ∧ tWf drawerDflt (getSec s.dev
      sec.val).drawers = true ∧ g = drawerCfg (items s.dev sec.val) dr.val ∧ g.runner ≠ .none ∧ fabricLive s.dev sec.val = true) ∧
    (∃ (s : State) (sec : Sec) (dr : Fin 128) (g : DrawerCfg) (x : Drawer), s.ready ∧ tWf sectorDflt s.dev.sectors = true ∧ tWf drawerDflt
      (getSec s.dev sec.val).drawers = true ∧ tWf (fun _ => 0) x.arr = true ∧ x = getDrawer (getSec s.dev sec.val) dr.val ∧ g = drawerCfg
      (items s.dev sec.val) dr.val ∧ g.runner = .delay ∧ g.raw = false ∧ g.wsrcA = 0 ∧ edgeAt s.dev sec.val g.clkA = true ∧ x.initing = false
      ∧ wrBusy x = false ∧ x.b.stage = none ∧ x.dlRow < 1024 ∧ (decodeWord (rowGet x ((x.dlRow + 1024 - effDelay g) % 1024))).outcome =
      .clean) :=
  ⟨⟨fabDr (drQ .single) { wp := 1023, wpSeen := 1023 }, 63, 127, drQ .single, ready_of (by decide +kernel), by decide +kernel⟩,
  ⟨fabDr (drQ .dual) { wp := 1024 }, 63, 127, drQ .dual, ready_of (by decide +kernel), by decide +kernel⟩,
  ⟨fabDr (drQ .dual) { wp := 1, wpSeen := 1, arr := [(0, clean 5)] }, 63, 127, drQ .dual, { wp := 1, wpSeen := 1, arr := [(0, clean 5)] },
    ready_of (by decide +kernel), by decide +kernel⟩,
  ⟨fabDr (drQ .dual) { wp := 1, toRead := [1] }, 63, 127, drQ .dual, 1, [], ready_of (by decide +kernel), by decide +kernel⟩,
  ⟨fabDr (drQ .dual) { wp := 1, toRead := [1], wrOvf := true }, 63, 127, drQ .dual, ready_of (by decide +kernel), by decide +kernel⟩,
  ⟨fabDr (drQ .delay) { dlRow := 1023, dlCount := 5 }, 63, 127, drQ .delay, { dlRow := 1023, dlCount := 5 }, ready_of (by decide +kernel),
    by decide +kernel⟩⟩

theorem met_Hinges :
    (∃ (s : State) (sec : Sec) (h : Fin 64) (data v : PWord) (late : Bool) (via : List PinMux) (g : HingeCfg) (x : Hinge), s.ready ∧ g =
      hingeCfg (items s.dev sec.val) h.val ∧ g.kind = .value ∧ edgeAt s.dev sec.val g.srcClk = true ∧ x = ackArrives g late (getHinge (getSec
      s.dev sec.val) h.val) ∧ srcBusy x = false ∧ valueBusy x = false ∧ x.pendFull = false ∧ v = pinBits (hingePin s.dev sec.val h.val via) 1
      data ∧ hingePin s.dev sec.val h.val via 0 true = true ∧ hingePin s.dev sec.val h.val via 81 false = false) ∧
    (∃ (s : State) (sec : Sec) (h : Fin 64) (late : Bool) (g : HingeCfg) (x : Hinge), s.ready ∧ g = hingeCfg (items s.dev sec.val) h.val ∧
      g.kind = .value ∧ edgeAt s.dev sec.val g.srcClk = true ∧ x = ackArrives g late (getHinge (getSec s.dev sec.val) h.val) ∧ srcBusy x =
      false ∧ valueBusy x = true ∧ x.pendFull = true) ∧
    (∃ (s : State) (sec : Sec) (h : Fin 64) (g : HingeCfg) (x : Hinge), s.ready ∧ g = hingeCfg (items s.dev sec.val) h.val ∧ g.kind = .value ∧
      edgeAt s.dev sec.val g.dstClk = true ∧ x = getHinge (getSec s.dev sec.val) h.val ∧ dstBusy x = false) ∧
    (∃ (s : State) (sec : Sec) (h : Fin 64) (g : HingeCfg) (x : Hinge), s.ready ∧ g = hingeCfg (items s.dev sec.val) h.val ∧ g.kind = .value ∧
      edgeAt s.dev sec.val g.srcClk = true ∧ x = getHinge (getSec s.dev sec.val) h.val ∧ srcBusy x = false ∧ valueBusy x = true ∧ nth false
      x.ackChain (hingeStages g - 1) = x.take ∧ x.pendFull = true) ∧
    (∃ (s : State) (sec : Sec) (h : Fin 64) (late : Bool) (via : List PinMux) (g : HingeCfg) (x : Hinge), s.ready ∧ g = hingeCfg (items s.dev
      sec.val) h.val ∧ g.kind = .counter ∧ edgeAt s.dev sec.val g.srcClk = true ∧ srcBusy (getHinge (getSec s.dev sec.val) h.val) = false ∧ x
      = countReturns g late (getHinge (getSec s.dev sec.val) h.val) ∧ hingePin s.dev sec.val h.val via 0 true = true ∧ unack (getHinge (getSec
      s.dev sec.val) h.val) < 255) ∧
    (∃ (s : State) (sec : Sec) (h : Fin 64) (g : HingeCfg), s.ready ∧ g = hingeCfg (items s.dev sec.val) h.val ∧ g.kind = .counter ∧ edgeAt
      s.dev sec.val g.srcClk = true ∧ srcBusy (getHinge (getSec s.dev sec.val) h.val) = false ∧ unack (getHinge (getSec s.dev sec.val) h.val)
      = 255) ∧
    (∃ (s : State) (sec : Sec) (h : Fin 64) (g : HingeCfg) (x : Hinge), s.ready ∧ tWf sectorDflt s.dev.sectors = true ∧ tWf hingeDflt (getSec
      s.dev sec.val).hinges = true ∧ g = hingeCfg (items s.dev sec.val) h.val ∧ g.kind = .counter ∧ edgeAt s.dev sec.val g.dstClk = true ∧ x =
      getHinge (getSec s.dev sec.val) h.val ∧ dstBusy x = false) ∧
    (∃ (s : State) (sec : Sec) (h : Fin 64) (g : HingeCfg), s.ready ∧ g = hingeCfg (items s.dev sec.val) h.val ∧ g.kind = .counter ∧ edgeAt
      s.dev sec.val g.srcClk = true ∧ srcBusy (getHinge (getSec s.dev sec.val) h.val) = false) ∧
    (∃ (s : State) (sec : Sec) (h : Fin 64) (inp : BitVec 8) (via : List PinMux) (v : BitVec 8) (g : HingeCfg), s.ready ∧ v = pinBits
      (hingePin s.dev sec.val h.val via) 0 inp ∧ g = hingeCfg (items s.dev sec.val) h.val ∧ g.kind = .level ∧ edgeAt s.dev sec.val g.dstClk =
      true ∧ dstBusy (getHinge (getSec s.dev sec.val) h.val) = false) ∧
    (∃ (s : State) (sec : Sec) (h : Fin 64) (ps : Nat), s.ready ∧ (hingeCfg (items s.dev sec.val) h.val).kind = .wake ∧ fabricLive s.dev
      sec.val = true ∧ 250 ≤ ps) ∧
    (∃ (s : State) (sec : Sec) (h : Fin 64) (ps : Nat), s.ready ∧ (hingeCfg (items s.dev sec.val) h.val).kind = .wake ∧ fabricLive s.dev
      sec.val = true ∧ ps < 250) ∧
    (∃ (s : State) (sec : Sec) (h : Fin 64) (via : List PinMux) (g : HingeCfg), s.ready ∧ g = hingeCfg (items s.dev sec.val) h.val ∧ g.kind =
      .wake ∧ edgeAt s.dev sec.val { sel := BitVec.ofNat 6 (32 + g.wakeLine.toNat) } = true ∧ hingePin s.dev sec.val h.val via 0 false = false
      ∧ hingePin s.dev sec.val h.val via 1 true = true) ∧
    (∃ (s : State) (sec : Sec) (h : Fin 64) (g : HingeCfg), s.ready ∧ g = hingeCfg (items s.dev sec.val) h.val ∧ g.kind ≠ .wake ∧ fabricLive
      s.dev sec.val = true) :=
  ⟨⟨fabHi (hiOf .value) { take := true, ackChain := [true, true, true], ack := true }, 63, 63, 77, 77, true, [], hiOf .value, ackArrives (hiOf
    .value) true { take := true, ackChain := [true, true, true], ack := true }, ready_of (by decide +kernel), by decide +kernel⟩,
  ⟨fabHi (hiOf .value) { take := true, pendFull := true, super := 65535 }, 63, 63, false, hiOf .value, ackArrives (hiOf .value) false
    { take := true, pendFull := true, super := 65535 }, ready_of (by decide +kernel), by decide +kernel⟩,
  ⟨fabHi (hiOf .value) { take := true, hold := 77, takeChain := [true, true, true] }, 63, 63, hiOf .value,
    { take := true, hold := 77, takeChain := [true, true, true] }, ready_of (by decide +kernel), by decide +kernel⟩,
  ⟨fabHi (hiOf .value) { take := true, ack := true, ackChain := [true, true, true], pendFull := true, pending := 77 }, 63, 63, hiOf .value,
    { take := true, ack := true, ackChain := [true, true, true], pendFull := true, pending := 77 }, ready_of (by decide +kernel),
    by decide +kernel⟩,
  ⟨fabHi (hiOf .counter) { cs := 254 }, 63, 63, false, [], hiOf .counter, countReturns (hiOf .counter) false { cs := 254 }, ready_of
    (by decide +kernel), by decide +kernel⟩,
  ⟨fabHi (hiOf .counter) { cs := 255 }, 63, 63, hiOf .counter, ready_of (by decide +kernel), by decide +kernel⟩,
  ⟨fabHi (hiOf .counter) { cs := 200, cChain := [200, 200, 200] }, 63, 63, hiOf .counter, { cs := 200, cChain := [200, 200, 200] }, ready_of
    (by decide +kernel), by decide +kernel⟩,
  ⟨fabHi (hiOf .counter) { cs := 3, cd := 2, backChain := [2, 1, 1] }, 63, 63, hiOf .counter, ready_of (by decide +kernel),
    by decide +kernel⟩,
  ⟨fabHi (hiOf .level) { lPrev := 5 }, 63, 63, 255, [], 255, hiOf .level, ready_of (by decide +kernel), by decide +kernel⟩,
  ⟨fabHi (hiOf .wake) {}, 63, 63, 250, ready_of (by decide +kernel), by decide +kernel⟩,
  ⟨fabHi (hiOf .wake) {}, 63, 63, 249, ready_of (by decide +kernel), by decide +kernel⟩,
  ⟨fabHi { hiOf .wake with wakeLine := 7 } { latch := true }, 63, 63, [], { hiOf .wake with wakeLine := 7 }, ready_of (by decide +kernel),
    by decide +kernel⟩,
  ⟨fabHi (hiOf .counter) { cs := 5 }, 63, 63, hiOf .counter, ready_of (by decide +kernel), by decide +kernel⟩⟩

theorem met_LaneStages :
    (∃ (s : State) (n : Fin 128), s.ready ∧ tWf laneDflt s.dev.links.lanes.lanes = true ∧ pcieHolds s.dev n.val = false ∧ (getLane s.dev
      n.val).stage = .detect) ∧
    (∃ (s : State) (n : Fin 128), s.ready ∧ tWf laneDflt s.dev.links.lanes.lanes = true ∧ pcieHolds s.dev n.val = false ∧ (getLane s.dev
      n.val).stage = .train) ∧
    (∃ (s : State) (n : Fin 128), s.ready ∧ tWf laneDflt s.dev.links.lanes.lanes = true ∧ pcieHolds s.dev n.val = false ∧ (getLane s.dev
      n.val).stage = .lock ∧ laneMode s.dev n.val = 4 ∧ lanePrbs s.dev n.val = 0) ∧
    (∃ (s : State) (n : Fin 128), s.steady ∧ tWf laneDflt s.dev.links.lanes.lanes = true ∧ pcieHolds s.dev n.val = false ∧ n.val ≠ 0 ∧
      (getLane s.dev n.val).stage = .lock ∧ laneMode s.dev n.val ≠ 4) ∧
    (∃ (s : State), s.steady ∧ tWf laneDflt s.dev.links.lanes.lanes = true ∧ laneTiming s.dev = true ∧ (getLane s.dev 0).stage = .lock) ∧
    (∃ (s : State) (n : Fin 128), s.steady ∧ tWf laneDflt s.dev.links.lanes.lanes = true ∧ n.val ≠ 0 ∧ (getLane s.dev n.val).stage = .exchange
      ∧ (getLane s.dev n.val).ackSent = true) ∧
    (∃ (s : State) (n : Fin 128), s.steady ∧ pcieHolds s.dev n.val = false ∧ (getLane s.dev n.val).stage = .detect ∧ (getLane s.dev
      n.val).noPartner = true) ∧
    (∃ (s : State) (n : Fin 128), s.steady ∧ tWf laneDflt s.dev.links.lanes.lanes = true ∧ n.val ≠ 0 ∧ pcieHolds s.dev n.val = false ∧
      laneLive s.dev n.val = true ∧ laneLoop s.dev n.val = 0 ∧ reactionOf s.dev fltLaneTable = 0 ∧ (getLane s.dev n.val).stage = .train ∧ fldR
      s.dev (rLaneStatus n.val) 47 40 + 1 < fldR s.dev (rLaneCfg n.val) 47 44) ∧
    (∃ (s : State) (n : Fin 128), s.steady ∧ tWf laneDflt s.dev.links.lanes.lanes = true ∧ pcieHolds s.dev n.val = false ∧ reactionOf s.dev
      fltLaneFailed = 0 ∧ (getLane s.dev n.val).stage = .train ∧ fldR s.dev (rLaneStatus n.val) 47 40 < 255 ∧ max 1 (fldR s.dev (rLaneCfg
      n.val) 47 44) ≤ fldR s.dev (rLaneStatus n.val) 47 40 + 1) ∧
    (∃ (s : State) (n : Fin 128) (c : LaneCause), s.steady ∧ s.calm ∧ tWf laneDflt s.dev.links.lanes.lanes = true ∧ n.val ≠ 0 ∧ pcieHolds
      s.dev n.val = false ∧ laneLive s.dev n.val = true ∧ laneLoop s.dev n.val = 0 ∧ (getLane s.dev n.val).stage = .active ∧ causeApplies
      s.dev n.val c = true ∧ bundleOfLane s.dev n.val = none) ∧
    (∃ (s : State) (n : Fin 128) (c : LaneCause) (b : Nat), s.steady ∧ s.calm ∧ tWf laneDflt s.dev.links.lanes.lanes = true ∧ laneTiming s.dev
      = false ∧ pcieHolds s.dev n.val = false ∧ (getLane s.dev n.val).stage = .active ∧ causeApplies s.dev n.val c = true ∧ bundleOfLane s.dev
      n.val = some b) :=
  ⟨⟨⟨[], laneOn 127 4 { stage := .detect }⟩, 127, ready_of (by decide +kernel), by decide +kernel⟩,
  ⟨⟨[], laneOn 127 4 { stage := .train }⟩, 127, ready_of (by decide +kernel), by decide +kernel⟩,
  ⟨⟨[], laneOn 127 4 { stage := .lock }⟩, 127, ready_of (by decide +kernel), by decide +kernel⟩,
  ⟨⟨[], setR (laneOn 127 1 { stage := .lock }) (rLaneStatus 127) 47 40 5⟩, 127, steady_of (by decide +kernel), by decide +kernel⟩,
  ⟨⟨[], laneOn 0 5 { stage := .lock }⟩, steady_of (by decide +kernel), by decide +kernel⟩,
  ⟨⟨[], setR (laneOn 127 4 { stage := .exchange, ackSent := true }) (rLaneStatus 127) 47 40 5⟩, 127, steady_of (by decide +kernel),
    by decide +kernel⟩,
  ⟨⟨[], setR (laneOn 127 4 { stage := .detect, noPartner := true }) (rLaneStatus 127) 57 55 5⟩, 127, steady_of (by decide +kernel),
    by decide +kernel⟩,
  ⟨⟨[], setRs (laneOn 127 4 { stage := .train }) [(rLaneCfg 127, 47, 44, 15), (rLaneStatus 127, 47, 40, 13), (rReact 5 0, 63, 0, 0)]⟩, 127,
    steady_of (by decide +kernel), by decide +kernel⟩,
  ⟨⟨[], setRs (laneOn 127 4 { stage := .train }) [(rLaneCfg 127, 47, 44, 0), (rLaneStatus 127, 47, 40, 254), (rReact 5 0, 63, 0, 0)]⟩, 127,
    steady_of (by decide +kernel), by decide +kernel⟩,
  ⟨⟨[], setRs (laneOn 127 1 { stage := .active }) [(rLaneStatus 127, 31, 16, 0xFFFF), (rReact 5 0, 63, 0, 0)]⟩, 127, .energy, steady_of
    (by decide +kernel), calm_of (by decide +kernel), by decide +kernel⟩,
  ⟨⟨[], setR (bundle31 .active { state := .up }) (rLaneCfg 0) 2 0 0⟩, 124, .headers, 31, steady_of (by decide +kernel), calm_of
    (by decide +kernel), by decide +kernel⟩⟩

theorem met_LaneRegisters :
    (∃ (s : State) (n : Fin 128) (v : Word), s.steady ∧ pcieHolds s.dev n.val = false ∧ quadIn s.dev (n.val / 4) = true ∧ bit v 63 = false ∧
      fld v 2 0 = fldR s.dev (rLaneCfg n.val) 2 0 ∧ fld v 33 32 = fldR s.dev (rLaneCfg n.val) 33 32 ∧ fld v 55 50 = fldR s.dev (rLaneCfg
      n.val) 55 50) ∧
    (∃ (s : State) (n : Fin 128) (v : Word), s.steady ∧ tWf laneDflt s.dev.links.lanes.lanes = true ∧ n.val ≠ 0 ∧ pcieHolds s.dev n.val =
      false ∧ quadIn s.dev (n.val / 4) = true ∧ bundleOfLane s.dev n.val = none ∧ fld v 2 0 = 0 ∧ fldR s.dev (rLaneCfg n.val) 2 0 ≠ 0) ∧
    (∃ (s : State) (n : Fin 128), s.steady ∧ tWf laneDflt s.dev.links.lanes.lanes = true ∧ n.val ≠ 0 ∧ pcieHolds s.dev n.val = false ∧ quadIn
      s.dev (n.val / 4) = true ∧ laneLive s.dev n.val = true ∧ laneLoop s.dev n.val = 0 ∧ bundleOfLane s.dev n.val = none ∧ reactionOf s.dev
      fltLaneTable = 0) ∧
    (∃ (s : State) (j : Fin 32) (v : Word), s.steady ∧ tWf laneDflt s.dev.links.lanes.lanes = true ∧ tWf (fun _ => PllState.off)
      s.dev.clk.plls = true ∧ quadIn s.dev j.val = true ∧ pllState s.dev (31 + j.val) ≠ .holdover ∧ s.dev.clk.reduced = false ∧ (j.val % 8 < 4
      ∨ (getPcie s.dev (j.val / 8)).perstHigh = false) ∧ (∀ n ∈ quadLanes s.dev j.val, (getLane s.dev n).stage ≠ .active) ∧ bit v 63 = true ∧
      bit v 62 = false ∧ 1250000 ≤ fld v 24 0 ∧ fld v 24 0 ≤ 32000000) ∧
    (∃ (s : State), s.steady) ∧
    (∃ (s : State), s.ready ∧ pllRuns s.dev 1 = true ∧ s.dev.links.lanes.tested = false) ∧
    (∃ (s : State) (f : QuadFail), s.ready ∧ s.calm ∧ tWf laneDflt s.dev.links.lanes.lanes = true ∧ tWf (fun _ => PllState.off) s.dev.clk.plls
      = true ∧ pllRuns s.dev 1 = true ∧ s.dev.links.lanes.tested = false ∧ f.pll = true ∧ f.quad.val ≠ 0 ∧ (f.quad.val ≠ 4 ∨ (getPcie s.dev
      0).perstHigh = false) ∧ quadIn s.dev f.quad.val = true ∧ (∀ k : Nat, k < 4 → (getLane s.dev (4 * f.quad.val + k)).stage ≠ .active)) ∧
    (∃ (s : State) (j : Fin 32), s.ready ∧ s.calm ∧ tWf laneDflt s.dev.links.lanes.lanes = true ∧ tWf (fun _ => PllState.off) s.dev.clk.plls =
      true ∧ quadIn s.dev j.val = true ∧ pllState s.dev (31 + j.val) = .unlocked ∧ (∀ k : Nat, k < 4 → (getLane s.dev (4 * j.val + k)).stage ≠
      .active)) ∧
    (∃ (s : State) (n : Fin 128) (w : BitVec 66) (ws : List (BitVec 66)), s.ready ∧ tWf laneDflt s.dev.links.lanes.lanes = true ∧ 1 ≤ laneMode
      s.dev n.val ∧ laneMode s.dev n.val ≤ 3 ∧ (getLane s.dev n.val).stage = .active ∧ laneLoop s.dev n.val = 0 ∧ lanePrbs s.dev n.val = 0 ∧
      (getLane s.dev n.val).txq.words = w :: ws ∧ (getLane s.dev n.val).txq.unseen ≤ ws.length) ∧
    (∃ (s : State) (n : Fin 128), s.steady ∧ tWf laneDflt s.dev.links.lanes.lanes = true ∧ 1 ≤ laneMode s.dev n.val ∧ laneMode s.dev n.val ≤ 3
      ∧ (getLane s.dev n.val).stage = .active ∧ rawServed s.dev n.val = true ∧ laneLoop s.dev n.val = 0 ∧ (quadPam4 s.dev (n.val / 4) = false
      ∨ laneMode s.dev n.val ≠ 1 ∨ (getLane s.dev n.val).badLeft = 0) ∧ (getLane s.dev n.val).rxq.words.length + (getLane s.dev
      n.val).rxq.freed < 32) ∧
    (∃ (s : State) (n : Fin 128), s.steady ∧ 1 ≤ laneMode s.dev n.val ∧ laneMode s.dev n.val ≤ 3 ∧ (getLane s.dev n.val).stage = .active ∧
      rawServed s.dev n.val = false ∧ laneLoop s.dev n.val = 0) ∧
    (∃ (s : State) (n : Fin 128) (w : BitVec 66) (ws : List (BitVec 66)), s.ready ∧ tWf laneDflt s.dev.links.lanes.lanes = true ∧ 1 ≤ laneMode
      s.dev n.val ∧ laneMode s.dev n.val ≤ 3 ∧ (getLane s.dev n.val).stage = .active ∧ laneLoop s.dev n.val = 2 ∧ lanePrbs s.dev n.val = 0 ∧
      (getLane s.dev n.val).txq.words = w :: ws ∧ (getLane s.dev n.val).txq.unseen ≤ ws.length) ∧
    (∃ (s : State) (n : Fin 128) (v : BitVec 66), s.steady ∧ tWf laneDflt s.dev.links.lanes.lanes = true ∧ 1 ≤ laneMode s.dev n.val ∧ laneMode
      s.dev n.val ≤ 3 ∧ (getLane s.dev n.val).stage = .active ∧ rawServed s.dev n.val = true ∧ laneLoop s.dev n.val = 2 ∧ lanePrbs s.dev n.val
      = 0 ∧ (getLane s.dev n.val).looped = some v ∧ (getLane s.dev n.val).rxq.words.length + (getLane s.dev n.val).rxq.freed < 32) ∧
    (∃ (s : State) (n : Fin 128), s.ready ∧ 1 ≤ laneMode s.dev n.val ∧ laneMode s.dev n.val ≤ 3 ∧ (getLane s.dev n.val).stage = .active ∧
      laneLoop s.dev n.val = 3) :=
  ⟨⟨⟨[], laneOn 127 4 { stage := .active }⟩, 127, BitVec.ofNat 64 (15 * 2 ^ 44 + 4), steady_of (by decide +kernel), by decide +kernel⟩,
  ⟨⟨[], laneOn 127 4 { stage := .active }⟩, 127, 0, steady_of (by decide +kernel), by decide +kernel⟩,
  ⟨⟨[], setRs (laneOn 127 4 { stage := .failed, noPartner := true }) [(rReact 5 0, 63, 0, 0), (rLaneStatus 127, 47, 40, 5)]⟩, 127, steady_of
    (by decide +kernel), by decide +kernel⟩,
  ⟨⟨[], laneOn 127 4 { stage := .failed }⟩, 31, BitVec.ofNat 64 (2 ^ 63 + 32000000), steady_of (by decide +kernel), by decide +kernel⟩,
  ⟨⟨[], setRs {} [(rLaneErr 127, 31, 0, 7), (rLaneErr 127, 63, 48, 9)]⟩, steady_of (by decide +kernel)⟩,
  ⟨⟨[], { clk := { plls := [(1, .locked)] } }⟩, ready_of (by decide +kernel), by decide +kernel⟩,
  ⟨⟨[], laneOn 127 4 { stage := .failed }⟩, { quad := 31, pll := true, lanes := 0 }, ready_of (by decide +kernel), calm_of
    (by decide +kernel), by decide +kernel⟩,
  ⟨⟨[], { laneOn 127 4 { stage := .detect } with clk := { plls := [(62, .unlocked)] } }⟩, 31, ready_of (by decide +kernel), calm_of
    (by decide +kernel), by decide +kernel⟩,
  ⟨⟨[], laneOn 127 1 { stage := .active, txq := { words := [5, 6] } }⟩, 127, 5, [6], ready_of (by decide +kernel), by decide +kernel⟩,
  ⟨⟨[], { setR (laneOn 127 1 { stage := .active, rxq := { words := List.replicate 31 { data := 1, err := false } } }) (rLaneErr 127) 47 32
            0xFFFF with sectors := [(quadSector 31, { state := .active })] }⟩, 127, steady_of (by decide +kernel), by decide +kernel⟩,
  ⟨⟨[], setR (laneOn 127 1 { stage := .active }) (rLaneStatus 127) 15 0 0xFFFF⟩, 127, steady_of (by decide +kernel), by decide +kernel⟩,
  ⟨⟨[], setR (laneOn 127 1 { stage := .active, txq := { words := [5, 6] } }) (rLaneCfg 127) 55 53 2⟩, 127, 5, [6], ready_of
    (by decide +kernel), by decide +kernel⟩,
  ⟨⟨[], { setR (laneOn 127 1 { stage := .active, looped := some 9, rxq := { words := List.replicate 31 { data := 1, err := false } } })
            (rLaneCfg 127) 55 53 2 with sectors := [(quadSector 31, { state := .active })] }⟩, 127, 9, steady_of (by decide +kernel),
    by decide +kernel⟩,
  ⟨⟨[], setR (laneOn 127 3 { stage := .active }) (rLaneCfg 127) 55 53 3⟩, 127, ready_of (by decide +kernel), by decide +kernel⟩⟩

theorem met_BundleBringUp :
    (∃ (s : State) (v : Word), s.steady ∧ tWf bundleDflt s.dev.links.bundles = true ∧ tWf laneDflt s.dev.links.lanes.lanes = true ∧ reactionOf
      s.dev fltLaneTable = 0 ∧ bit v 63 = false) ∧
    (∃ (s : State) (b : Fin 32) (v : Word), s.steady ∧ tWf bundleDflt s.dev.links.bundles = true ∧ bundleEn s.dev b.val = false ∧ (getBundle
      s.dev b.val).state = .off ∧ bit v 63 = true ∧ fld v 2 0 = 2 ∧ bundleEn s.dev (b.val ^^^ 1) = false ∧ bridgeOn s.dev b.val = true ∧ (∀ k
      : Nat, k < 4 → laneMode s.dev (4 * b.val + k) = 4 ∧ (getLane s.dev (4 * b.val + k)).stage = .off)) ∧
    (∃ (s : State) (b : Fin 32) (v : Word), s.steady ∧ tWf bundleDflt s.dev.links.bundles = true ∧ bundleEn s.dev b.val = false ∧ reactionOf
      s.dev fltLaneTable = 0 ∧ bit v 63 = true ∧ fld v 2 0 = 3 ∧ b.val % 2 = 1) ∧
    (∃ (s : State) (n : Fin 128) (w : List Word) (b : Nat), s.ready ∧ tWf bundleDflt s.dev.links.bundles = true ∧ tWf laneDflt
      s.dev.links.lanes.lanes = true ∧ bundleOfLane s.dev n.val = some b ∧ (getLane s.dev n.val).stage = .exchange ∧ laneMode s.dev n.val = 4
      ∧ capMismatch s.dev b n.val (w.map (·.toNat)) = 0) ∧
    (∃ (s : State) (n : Fin 128) (w : List Word) (b m : Nat), s.steady ∧ bundleOfLane s.dev n.val = some b ∧ (getLane s.dev n.val).stage =
      .exchange ∧ laneMode s.dev n.val = 4 ∧ m = capMismatch s.dev b n.val (w.map (·.toNat)) ∧ m ≠ 0) ∧
    (∃ (s : State) (b : Fin 32), s.ready ∧ tWf bundleDflt s.dev.links.bundles = true ∧ (getBundle s.dev b.val).state = .aligning) ∧
    (∃ (s : State) (b : Fin 32), s.steady ∧ tWf bundleDflt s.dev.links.bundles = true ∧ tWf laneDflt s.dev.links.lanes.lanes = true ∧
      reactionOf s.dev fltLaneTable = 0 ∧ (getBundle s.dev b.val).state = .up ∧ (∀ n ∈ bundleLanes s.dev b.val, laneMode s.dev n = 4)) :=
  ⟨⟨⟨[], setR (bundle31 .active { state := .up }) (rReact 5 0) 63 0 0⟩, 2, steady_of (by decide +kernel), by decide +kernel⟩,
  ⟨⟨[], { setRs (bundle31 .off {}) [(rLinkCfg 31, 63, 63, 0), (rReact 5 0, 63, 0, 0)] with links :=
                                                                                             { (bundle31 .off {}).links with bundles := [] }
                                                                                             }⟩, 31, BitVec.ofNat 64 (2 ^ 63 + 2), steady_of
    (by decide +kernel), by decide +kernel⟩,
  ⟨⟨[], { setRs (bundle31 .off {}) [(rLinkCfg 31, 63, 63, 0), (rReact 5 0, 63, 0, 0)] with links :=
                                                                                             { (bundle31 .off {}).links with bundles := [] }
                                                                                             }⟩, 31, BitVec.ofNat 64 (2 ^ 63 + 3), steady_of
    (by decide +kernel), by decide +kernel⟩,
  ⟨⟨[], bundle31 .exchange { state := .exchange }⟩, 127, capFor (bundle31 .exchange { state := .exchange }), 31, ready_of (by decide +kernel),
    by decide +kernel⟩,
  ⟨⟨[], bundle31 .exchange { state := .exchange }⟩, 127, [0, 0, 0, 0], 31, 1, steady_of (by decide +kernel), by decide +kernel⟩,
  ⟨⟨[], bundle31 .active { state := .aligning, peer := 77, sent := 5 }⟩, 31, ready_of (by decide +kernel), by decide +kernel⟩,
  ⟨⟨[], setRs (bundle31 .active { state := .up }) [(rLinkStatus 31, 31, 16, 0xFFFF), (rReact 5 0, 63, 0, 0)]⟩, 31, steady_of
    (by decide +kernel), by decide +kernel⟩⟩

theorem met_BundleTraffic :
    (∃ (s : State) (b : Fin 32) (r : Reasm) (p : Parcel) (e : Endpoint) (x : Bundle), s.ready ∧ tWf bundleDflt s.dev.links.bundles = true ∧
      tWf epDflt s.dev.net.eps = true ∧ serves s.dev b.val = true ∧ netRuns s.dev = true ∧ e = getEp s.dev (bridgeKey b.val) ∧ x = getBundle
      s.dev b.val ∧ e.inq = [] ∧ e.entering = [] ∧ e.splits = [] ∧ e.reasm = [r] ∧ e.completions = [] ∧ r.req = some p ∧ r.refused = false ∧
      complete r = true ∧ (memReq r p).op = .rd ∧ (decodeWord (pWord p 0)).outcome = .clean ∧ x.state = .up ∧ x.owed = [] ∧ x.fwd = [] ∧
      x.buffer = [] ∧ frameRoom x ≠ 0 ∧ bitR s.dev (rLinkXlate b.val (nbits (memReq r p).addr 34 31)) 63 = true) ∧
    (∃ (s : State) (b : Fin 32) (head : BitVec 66) (rest : List (BitVec 66)) (bytes tag : List Nat) (x : Bundle), s.steady ∧ tWf bundleDflt
      s.dev.links.bundles = true ∧ x = getBundle s.dev b.val ∧ x.state = .up ∧ linkEnc s.dev b.val = false ∧ blockSync head = 2 ∧ blockType
      head = 0xE1 ∧ frameBytes false (head :: rest) = some (bytes, tag) ∧ fld head 19 8 = x.expect % 4096 ∧ x.freed < 65536 ∧ x.expect + 1 < 2
      ^ 64 ∧ serves s.dev b.val = false) ∧
    (∃ (s : State) (b : Fin 32) (head : BitVec 66), s.steady ∧ (getBundle s.dev b.val).state = .up ∧ blockSync head = 2 ∧ blockType head =
      0xE1) ∧
    (∃ (s : State) (b : Fin 32) (block : BitVec 66) (g : Nat) (x : Bundle), s.steady ∧ tWf bundleDflt s.dev.links.bundles = true ∧ x =
      getBundle s.dev b.val ∧ x.state = .up ∧ blockSync block = 2 ∧ blockType block = 0xE2 ∧ g = (fld block 19 8 + 4096 - x.expect % 4096) %
      4096 ∧ g < 256) ∧
    (∃ (s : State) (b : Fin 32) (x : Bundle), s.ready ∧ tWf bundleDflt s.dev.links.bundles = true ∧ x = getBundle s.dev b.val ∧ x.state = .up
      ∧ x.buffer = []) ∧
    (∃ (s : State), s.steady) ∧
    (∃ (s : State) (b : Fin 32) (wrapped : List Word) (k : List Nat), s.ready ∧ s.mailbox 0x0403 ((0x1F, b.val) :: wholeWords wrapped) ∧
      unwrapKey s.dev wrapped = (0, 2, k) ∧ tWf bundleDflt s.dev.links.bundles = true) ∧
    (∃ (s : State) (b : Fin 32) (wrapped : List Word) (k : List Nat), s.ready ∧ s.mailbox 0x0403 ((0x1F, b.val) :: wholeWords wrapped) ∧
      unwrapKey s.dev wrapped = (0, 1, k)) :=
  ⟨⟨⟨[], { setR (bundle31 .active { state := .up, counter := 2 ^ 64 - 1, sent := 65535, freedGot := 65535 }) (rLinkXlate 31 0) 63 63 1 with clk := netOn, net := { eps := [(bridgeKey 31, { state := .active, reasm := [{ src := 34, port := 1, tag := 4095, req := some bridgeRead, data := [] }] })] } }⟩,
    31, { src := 34, port := 1, tag := 4095, req := some bridgeRead, data := [] }, bridgeRead,
    { state := .active, reasm := [{ src := 34, port := 1, tag := 4095, req := some bridgeRead, data := [] }] },
    { state := .up, counter := 2 ^ 64 - 1, sent := 65535, freedGot := 65535 }, ready_of (by decide +kernel), by decide +kernel⟩,
  ⟨⟨[], { links := { bundles := [(31, { state := .up, expect := 4095 })] } }⟩, 31, parcelBlock 4095 false, (frameBlocks false false [] 4095
    (mkParcel {} zeroPayload)).tail, linkBytes (mkParcel {} zeroPayload), leB 8 0, { state := .up, expect := 4095 }, steady_of
    (by decide +kernel), by decide +kernel⟩,
  ⟨⟨[], setR { links := { bundles := [(31, { state := .up })] } } (rLinkErr 31) 31 16 0xFFFF⟩, 31, parcelBlock 5 false, steady_of
    (by decide +kernel), by decide +kernel⟩,
  ⟨⟨[], { links := { bundles := [(31, { state := .up, expect := 4095, freed := 65535 })] } }⟩, 31, ctlBlock 0xE2 (254 + 77 * 2 ^ 12), 255,
    { state := .up, expect := 4095, freed := 65535 }, steady_of (by decide +kernel), by decide +kernel⟩,
  ⟨⟨[], { links := { bundles := [(31, { state := .up, counter := 4095, freed := 65535 })] } }⟩, 31,
    { state := .up, counter := 4095, freed := 65535 }, ready_of (by decide +kernel), by decide +kernel⟩,
  ⟨⟨[], setR {} (rLinkErr 31) 47 32 77⟩, steady_of (by decide +kernel)⟩,
  ⟨⟨[], { links := { bundles := [(31, { counter := 5 })] }, bureau := keyRuns 0x0403 (BitVec.ofNat 64 31 :: wrapped0) }⟩, 31, wrapped0,
    List.replicate 32 7 ++ List.replicate 32 0, ready_of (by decide +kernel), mailbox_of (by decide +kernel), unwraps0 rfl,
    by decide +kernel⟩,
  ⟨⟨[], { bureau := keyRuns 0x0403 (BitVec.ofNat 64 (31 * 2 ^ 48 + 31) :: wrapped1) }⟩, 31, wrapped1, List.range 64, ready_of
    (by decide +kernel), mailbox_of (by decide +kernel), unwraps1 rfl⟩⟩

theorem met_FramesAgree :
    ∃ (p : Parcel), p.pay.length = 4 :=
  ⟨mkParcel { src := 5 } zeroPayload, by decide +kernel⟩

theorem met_ControllerLinks :
    (∃ (s : State) (q : Fin 4), s.ready ∧ tWf pcieDflt s.dev.links.pcie = true ∧ tWf laneDflt s.dev.links.lanes.lanes = true ∧ (getPcie s.dev
      q.val).perstHigh = false ∧ s.dev.links.lanes.heldE3 = false ∧ s.dev.cfg.done = false ∧ q.val ≠ 0) ∧
    (∃ (s : State) (q : Fin 4), s.ready ∧ tWf pcieDflt s.dev.links.pcie = true ∧ tWf laneDflt s.dev.links.lanes.lanes = true ∧ (getPcie s.dev
      q.val).perstHigh = false ∧ s.dev.links.lanes.heldE3 = false ∧ s.dev.cfg.done = true ∧ reactionOf s.dev fltLaneTable = 0) ∧
    (∃ (s : State), s.settled ∧ mainUp s.dev = false ∧ tWf pcieDflt s.dev.links.pcie = true) ∧
    (∃ (s : State) (q : Fin 4), s.steady ∧ tWf pcieDflt s.dev.links.pcie = true ∧ (getPcie s.dev q.val).perstHigh = true ∧ (getPcie s.dev
      q.val).out = [] ∧ reactionOf s.dev fltLaneTable = 0) ∧
    (∃ (s : State), s.ready ∧ tWf pcieDflt s.dev.links.pcie = true ∧ tWf laneDflt s.dev.links.lanes.lanes = true ∧ (getPcie s.dev 0).perstHigh
      = true ∧ s.dev.cfg.done = true ∧ s.dev.links.lanes.heldE3 = false ∧ (getPcie s.dev 0).out = [] ∧ (getPcie s.dev 0).links = 1 ∧ (getPcie
      s.dev 0).host = [] ∧ (getPcie s.dev 0).up = [0] ∧ reactionOf s.dev fltLaneTable = 0) ∧
    (∃ (s : State) (q link : Fin 4) (width : Fin 17), s.ready ∧ tWf pcieDflt s.dev.links.pcie = true ∧ tWf laneDflt s.dev.links.lanes.lanes =
      true ∧ (getPcie s.dev q.val).state = .training ∧ link.val ∉ (getPcie s.dev q.val).up ∧ link.val < (getPcie s.dev q.val).links ∧ ([1, 2,
      4, 8, 16] : List Nat).contains ((linkLanes s.dev q.val link.val).take width.val).length = true ∧ (∀ n ∈ linkLanes s.dev q.val link.val,
      quadIn s.dev (n / 4) = true)) ∧
    (∃ (s : State) (q link : Fin 4), s.ready ∧ tWf pcieDflt s.dev.links.pcie = true ∧ tWf laneDflt s.dev.links.lanes.lanes = true ∧ (getPcie
      s.dev q.val).perstHigh = true ∧ (getPcie s.dev q.val).links ≤ 4 ∧ (getPcie s.dev q.val).up = [link.val] ∧ (getPcie s.dev q.val).state =
      .up ∧ (getPcie s.dev q.val).out = []) ∧
    (∃ (s : State) (q : Fin 4) (gen : Fin 6), s.ready ∧ tWf pcieDflt s.dev.links.pcie = true ∧ 0 ∈ (getPcie s.dev q.val).up ∧ (getPcie s.dev
      q.val).state = .up ∧ gen.val ≠ 0 ∧ gen.val ≤ maxGen s.dev q.val ∧ reactionOf s.dev fltLaneTable = 0) :=
  ⟨⟨⟨[], setR {} (rPcieCtrl 3) 1 0 2⟩, 3, ready_of (by decide +kernel), by decide +kernel⟩,
  ⟨⟨[], setRs { cfg := { done := true } } [(rPcieCtrl 3, 1, 0, 2), (rReact 5 0, 63, 0, 0)]⟩, 3, ready_of (by decide +kernel),
    by decide +kernel⟩,
  ⟨⟨[], { power := { por := true } }⟩, settled_of (by decide +kernel), by decide +kernel⟩,
  ⟨⟨[], putR { links := { pcie := [(3, { perstHigh := true, state := .up, up := [0], nextId := 9 })] } } (rReact 5 0) 0⟩, 3, steady_of
    (by decide +kernel), by decide +kernel⟩,
  ⟨⟨[], putR { cfg := { done := true }, links := { pcie := [(0, { perstHigh := true, state := .up, up := [0], gen := 5, width := 16 })] } }
    (rReact 5 0) 0⟩, ready_of (by decide +kernel), by decide +kernel⟩,
  ⟨⟨[], { cfg := { done := true }, links := { pcie := [(3, { perstHigh := true, state := .training, links := 4 })] } }⟩, 3, 3, 16, ready_of
    (by decide +kernel), by decide +kernel⟩,
  ⟨⟨[], { cfg := { done := true }, links := { pcie := [(3, { perstHigh := true, state := .up, links := 4, up := [3], full := true })] } }⟩, 3,
    3, ready_of (by decide +kernel), by decide +kernel⟩,
  ⟨⟨[], putR { cfg := { done := true }, links := { pcie := [(3, { perstHigh := true, state := .up, up := [0], full := true })] } } (rReact 5
    0) 0⟩, 3, 5, ready_of (by decide +kernel), by decide +kernel⟩⟩

theorem met_OutboundWindow :
    (∃ (s : State) (q : Fin 4) (src : RouterAddr) (port : BitVec 2) (tag : BitVec 12) (r : MemReq) (d0 : Dev), s.ready ∧ takeRequest (pcieKey
      q.val) src.toNat port.toNat tag.toNat none (gather (pcieKey q.val) { s.dev with out := [] }) = (.perform r, d0) ∧ d0.due = [] ∧ outOpen
      d0 q.val = false) ∧
    (∃ (s : State) (q : Fin 4) (src : RouterAddr) (port : BitVec 2) (tag : BitVec 12) (lim : TlpLimits) (r : MemReq) (d0 : Dev) (lo hi : Nat),
      s.ready ∧ takeRequest (pcieKey q.val) src.toNat port.toNat tag.toNat none (gather (pcieKey q.val) { s.dev with out := [] }) = (.perform
      r, d0) ∧ d0.due = [] ∧ outOpen d0 q.val = true ∧ r.op = .rd ∧ enablesNone r.len r.first r.last = false ∧ (lo, hi) = reqRange r.addr
      r.len r.first r.last ∧ lo < hi ∧ hi - lo ≤ readLimit lim ∧ lo / 4096 = (hi - 1) / 4096 ∧ ((getPcie d0 q.val).out.map fun o =>
      o.left.length).sum < 256) ∧
    (∃ (s : State) (q : Fin 4) (src : RouterAddr) (port : BitVec 2) (tag : BitVec 12) (r : MemReq) (d0 d1 : Dev), s.ready ∧ d1 = gather
      (pcieKey q.val) { s.dev with out := [] } ∧ d1.due = [] ∧ takeRequest (pcieKey q.val) src.toNat port.toNat tag.toNat none d1 = (.perform
      r, d0) ∧ outOpen d0 q.val = true ∧ r.op = .rd ∧ enablesNone r.len r.first r.last = false ∧ 256 ≤ ((getPcie d0 q.val).out.map fun o =>
      o.left.length).sum) ∧
    (∃ (s : State) (q : Fin 4) (id : Nat) (bytes : List (BitVec 8)) (o : Outbound) (off : Nat), s.steady ∧ tWf pcieDflt s.dev.links.pcie =
      true ∧ linkUp s.dev q.val 0 = true ∧ (getPcie s.dev q.val).out = [o] ∧ o.left = [(id, off, bytes.length)]) ∧
    (∃ (s : State) (q : Fin 4), s.steady ∧ linkUp s.dev q.val 0 = true) ∧
    (∃ (s : State) (q : Fin 4) (id off n : Nat) (o : Outbound), s.ready ∧ tWf pcieDflt s.dev.links.pcie = true ∧ (getPcie s.dev q.val).out =
      [o] ∧ o.left = [(id, off, n)]) :=
  ⟨⟨⟨[], outDev false⟩, 3, 34, 1, 4095, reqAt (pcieKey 3) (readWord (2 ^ 47 + 8)), takenBy (outDev false), ready_of (by decide +kernel),
    by decide +kernel⟩,
  ⟨⟨[], outDev true⟩, 3, 34, 1, 4095, {}, reqAt (pcieKey 3) (readWord (2 ^ 47 + 8)), takenBy (outDev true), 2 ^ 47 + 8, 2 ^ 47 + 16, ready_of
    (by decide +kernel), by decide +kernel⟩,
  ⟨⟨[], outFull⟩, 3, 34, 1, 4095, reqAt (pcieKey 3) (readWord (2 ^ 47 + 8)), takenBy outFull, gather (pcieKey 3) { outFull with out := [] },
    ready_of (by decide +kernel), by decide +kernel⟩,
  ⟨⟨[], outSent⟩, 3, 5, [1, 2, 3, 4, 5, 6, 7, 8], { req := reqAt (pcieKey 3) (readWord (2 ^ 47 + 8)), left := [(5, 8, 8)] }, 8, steady_of
    (by decide +kernel), by decide +kernel⟩,
  ⟨⟨[], outSent⟩, 3, steady_of (by decide +kernel), by decide +kernel⟩,
  ⟨⟨[], outSent⟩, 3, 5, 8, 8, { req := reqAt (pcieKey 3) (readWord (2 ^ 47 + 8)), left := [(5, 8, 8)] }, ready_of (by decide +kernel),
    by decide +kernel⟩⟩

theorem met_DmaEngines :
    (∃ (s : State) (q : Fin 4) (v : Word), s.steady ∧ tWf pcieDflt s.dev.links.pcie = true ∧ tWf dmaDflt (getPcie s.dev q.val).dmas = true ∧
      bit v 63 = false) ∧
    (∃ (s : State) (q e : Fin 4) (v : Word), s.steady ∧ tWf pcieDflt s.dev.links.pcie = true ∧ tWf dmaDflt (getPcie s.dev q.val).dmas = true ∧
      bitR s.dev (rRingCfg q.val e.val) 63 = false ∧ bit v 63 = true ∧ ringHead s.dev q.val e.val ≠ fldR s.dev (rRingTail q.val e.val) 19 0 %
      2 ^ (fld v 3 0 + 4)) ∧
    (∃ (s : State) (q e : Fin 4), s.ready ∧ tWf pcieDflt s.dev.links.pcie = true ∧ tWf dmaDflt (getPcie s.dev q.val).dmas = true ∧ (getDma
      s.dev q.val e.val).state = .running) ∧
    (∃ (s : State) (q e : Fin 4) (tail : BitVec 20), s.steady ∧ tWf pcieDflt s.dev.links.pcie = true ∧ tWf dmaDflt (getPcie s.dev q.val).dmas
      = true ∧ bitR s.dev (rRingCfg q.val e.val) 63 = true ∧ (getDma s.dev q.val e.val).state = .idle ∧ ringHead s.dev q.val e.val ≠
      tail.toNat % ringSize s.dev q.val e.val) ∧
    (∃ (s : State) (q e : Fin 4) (bytes : List (BitVec 8)) (host dev n dr dp : Nat) (x : Issue), s.steady ∧ tWf pcieDflt s.dev.links.pcie =
      true ∧ tWf dmaDflt (getPcie s.dev q.val).dmas = true ∧ tWf epDflt s.dev.net.eps = true ∧ pcieIn s.dev q.val = true ∧ linkUp s.dev q.val
      0 = true ∧ getDma s.dev q.val e.val = { state := .running } ∧ bytes = ((leBytes 8 host) ++ leBytes 8 (2 ^ 63 + dev) ++ leBytes 8 n ++
      leBytes 8 0) ∧ host < 2 ^ 64 ∧ dev < 2 ^ 48 ∧ 0 < n ∧ n ≤ 2048 ∧ dev / 2048 = (dev + n - 1) / 2048 ∧ x = rangeIssue .rd dev
      (List.replicate n (some (0, false))) 0 ∧ decodeAddr s.dev false x.addr x.len x.first x.last = .to dr dp ∧ (getEp s.dev (pcieKey
      q.val)).requests = []) ∧
    (∃ (s : State) (q e : Fin 4) (st : HostStatus), s.ready ∧ tWf pcieDflt s.dev.links.pcie = true ∧ tWf dmaDflt (getPcie s.dev q.val).dmas =
      true ∧ linkUp s.dev q.val 0 = true ∧ getDma s.dev q.val e.val = { state := .running } ∧ hostCode st ≠ 0) ∧
    (∃ (s : State) (q e : Fin 4) (r : DmaRun) (h : Nat), s.steady ∧ tWf pcieDflt s.dev.links.pcie = true ∧ tWf dmaDflt (getPcie s.dev
      q.val).dmas = true ∧ linkUp s.dev q.val 0 = true ∧ (getDma s.dev q.val e.val).run = some r ∧ r.todo = [] ∧ r.tags = [] ∧ r.irq = false ∧
      r.poisoned = false ∧ r.code = 0 ∧ (getDma s.dev q.val e.val).stopping = false ∧ h = ringHead s.dev q.val e.val) ∧
    (∃ (s : State) (q e : Fin 4) (r : DmaRun), s.steady ∧ tWf pcieDflt s.dev.links.pcie = true ∧ tWf dmaDflt (getPcie s.dev q.val).dmas = true
      ∧ linkUp s.dev q.val 0 = true ∧ (getDma s.dev q.val e.val).run = some r ∧ r.todo = [] ∧ r.tags = [] ∧ r.irq = false ∧ r.poisoned = false
      ∧ r.code ≠ 0 ∧ r.code < 256) ∧
    (∃ (p : Endpoint) (a t : Nat), tagFor p (some a) = some t) :=
  ⟨⟨⟨[], dma3 { state := .running }⟩, 3, 7, steady_of (by decide +kernel), by decide +kernel⟩,
  ⟨⟨[], setR (dma3 {}) (rRingCfg 3 3) 63 63 0⟩, 3, 3, BitVec.ofNat 64 (2 ^ 63 + 3), steady_of (by decide +kernel), by decide +kernel⟩,
  ⟨⟨[], dma3 { state := .running }⟩, 3, 3, ready_of (by decide +kernel), by decide +kernel⟩,
  ⟨⟨[], dma3 {}⟩, 3, 3, 0xFFFFF, steady_of (by decide +kernel), by decide +kernel⟩,
  ⟨⟨[], dma3 { state := .running }⟩, 3, 3, ((leBytes 8 64) ++ leBytes 8 (2 ^ 63 + (2 ^ 46 + 2)) ++ leBytes 8 30 ++ leBytes 8 0), 64, 2 ^ 46 +
    2, 30, 4, 0, rangeIssue .rd (2 ^ 46 + 2) (List.replicate 30 (some (0, false))) 0, steady_of (by decide +kernel), by decide +kernel⟩,
  ⟨⟨[], dma3 { state := .running }⟩, 3, 3, .timeout, ready_of (by decide +kernel), by decide +kernel⟩,
  ⟨⟨[], dma3 { state := .running, run := some (runEnd 0) }⟩, 3, 3, runEnd 0, 0, steady_of (by decide +kernel), by decide +kernel⟩,
  ⟨⟨[], dma3 { state := .running, run := some (runEnd 255) }⟩, 3, 3, runEnd 255, steady_of (by decide +kernel), by decide +kernel⟩,
  ⟨{ txns := [{ tag := 3583, op := .rd, addr := 0, len := 0, dstR := 0, dstP := 0, epoch := 0, need := 1 }], nextTag := 511 }, 6, 3072,
    by decide +kernel⟩⟩

theorem met_MemoryWords :
    ∃ (d : Dev) (a : Nat), tWf dieDflt d.mem.sram = true ∧ tWf chDflt d.mem.ddr = true ∧ (∀ n, tWf (fun _ => none) (getDie d n).arr = true) ∧
      (∀ n, tWf (fun _ => none) (getCh d n).arr = true) ∧ storeUnit d (plainAddr a) < 12 ∧ ∃ b, (storeUnit d (plainAddr b), wordIdx (plainAddr
      b)) ≠ (storeUnit d (plainAddr a), wordIdx (plainAddr a)) :=
  ⟨{ mem := { ddr := [(7, chReady)] } }, 2 ^ 46 + 2 ^ 28 - 8, rfl, by decide +kernel,
    arr_wf (dflt := dieDflt) (arr := SramDie.arr) (fun _ => rfl) (t := []) rfl,
    arr_wf (dflt := chDflt) (arr := DdrChan.arr) (fun _ => rfl) (t := [(7, chReady)]) (by decide +kernel), by decide +kernel, 2 ^ 46,
    by decide +kernel⟩

theorem met_SramDies :
    (∃ (s : State) (q : Fin 4), s.ready ∧ tWf dieDflt s.dev.mem.sram = true ∧ tpEdge s.dev q.val = true ∧ (getDie s.dev q.val).tpReads.length
      < 16) ∧
    (∃ (s : State) (q : Fin 4), s.ready ∧ tWf dieDflt s.dev.mem.sram = true ∧ tpEdge s.dev q.val = true ∧ (getDie s.dev q.val).tpWrites.length
      < 16) ∧
    (∃ (s : State) (q : Fin 4), s.ready ∧ tWf dieDflt s.dev.mem.sram = true ∧ tpEdge s.dev q.val = true) ∧
    (∃ (s : State) (n : Fin 4) (a : SramAcc) (u : Nat) (die : SramDie), s.ready ∧ (∀ m, tWf (fun _ => none) (getDie s.dev m).arr = true) ∧ tWf
      dieDflt s.dev.mem.sram = true ∧ die = getDie s.dev n.val ∧ pllRuns s.dev (27 + n.val) = true ∧ sramOut s.dev n.val = false ∧ die.filled
      = true ∧ die.accs = [a] ∧ die.tpReads = [] ∧ die.tpWrites = [] ∧ die.tpPipe = [] ∧ a.req.op = .wr ∧ a.ctx = {} ∧ reqWords a.req = [u] ∧
      wordMask a.req u = 255 ∧ a.left = [u] ∧ a.code = 0 ∧ u % 8 = 0 ∧ storeUnit s.dev (plainAddr u) = 8 + n.val) ∧
    (∃ (s : State) (n : Fin 4) (a : SramAcc) (u : Nat) (die : SramDie), s.ready ∧ tWf dieDflt s.dev.mem.sram = true ∧ die = getDie s.dev n.val
      ∧ pllRuns s.dev (27 + n.val) = true ∧ sramOut s.dev n.val = false ∧ die.filled = true ∧ die.accs = [a] ∧ die.tpReads = [] ∧ die.tpWrites
      = [] ∧ die.tpPipe = [] ∧ a.req.op = .rd ∧ a.ctx = {} ∧ reqWords a.req = [u] ∧ a.left = [u] ∧ a.code = 0 ∧ u % 8 = 0 ∧ (decodeWord
      (memGet s.dev u)).outcome = .clean) ∧
    (∃ (s : State) (n : Fin 4) (a : SramAcc) (die : SramDie), s.ready ∧ tWf dieDflt s.dev.mem.sram = true ∧ die = getDie s.dev n.val ∧ pllRuns
      s.dev (27 + n.val) = true ∧ sramOut s.dev n.val = false ∧ die.filled = true ∧ die.accs = [a] ∧ die.tpReads = [] ∧ die.tpWrites = [] ∧
      die.tpPipe = [] ∧ a.req.op = .rd ∧ a.left = [] ∧ a.age = 17) ∧
    (∃ (s : State) (n : Fin 4) (tp : Bool) (addr : BitVec 48), s.ready ∧ tWf dieDflt s.dev.mem.sram = true ∧ sramOut s.dev n.val = false ∧
      parityRun (getDie s.dev n.val) tp addr.toNat < 15) ∧
    (∃ (s : State) (n : Fin 4) (tp : Bool) (addr : BitVec 48), s.ready ∧ s.calm ∧ tWf dieDflt s.dev.mem.sram = true ∧ sramOut s.dev n.val =
      false ∧ parityRun (getDie s.dev n.val) tp addr.toNat = 15) :=
  ⟨⟨⟨[], tp3 { tpReads := List.replicate 15 0 }⟩, 3, ready_of (by decide +kernel), by decide +kernel⟩,
  ⟨⟨[], tp3 { tpWrites := List.replicate 15 { wa := 0, we := 0, wd := (0, 0), wp := (false, false) } }⟩, 3, ready_of (by decide +kernel),
    by decide +kernel⟩,
  ⟨⟨[], tp3 { tpResp := [{ d0 := 1, d1 := 2, p0 := false, p1 := true, err := false }] }⟩, 3, ready_of (by decide +kernel), by decide +kernel⟩,
  ⟨⟨[], die3 (accOf (writeWord sWord))⟩, 3, accOf (writeWord sWord), sWord, { filled := true, accs := [accOf (writeWord sWord)] }, ready_of
    (by decide +kernel), arr_wf (dflt := dieDflt) (arr := SramDie.arr) (fun _ => rfl) (t := _) (by decide +kernel), by decide +kernel⟩,
  ⟨⟨[], die3 (accOf (readWord sWord))⟩, 3, accOf (readWord sWord), sWord, { filled := true, accs := [accOf (readWord sWord)] }, ready_of
    (by decide +kernel), by decide +kernel⟩,
  ⟨⟨[], die3 { accOf (readWord sWord) with left := [], age := 17 }⟩, 3, { accOf (readWord sWord) with left := [], age := 17 },
    { filled := true, accs := [{ accOf (readWord sWord) with left := [], age := 17 }] }, ready_of (by decide +kernel), by decide +kernel⟩,
  ⟨⟨[], { mem := { sram := [(3, { parityRuns := [((true, 0), 14), ((false, 0), 3)] })] } }⟩, 3, true, 0, ready_of (by decide +kernel),
    by decide +kernel⟩,
  ⟨⟨[], { mem := { sram := [(3, { parityRuns := [((true, 0), 15)] })] } }⟩, 3, true, 0, ready_of (by decide +kernel), calm_of
    (by decide +kernel), by decide +kernel⟩⟩

theorem met_DdrScheduling :
    (∃ (s : State) (n : Fin 8) (c : DdrChan) (t : DdrTxn) (e w : DdrEntry) (a : Nat) (v : PWord), s.ready ∧ tWf chDflt s.dev.mem.ddr = true ∧
      tWf epDflt s.dev.net.eps = true ∧ tWf (fun _ => none) (getCh s.dev n.val).arr = true ∧ c = getCh s.dev n.val ∧ c.state = .ready ∧
      pllRuns s.dev (19 + n.val) = true ∧ (getEp s.dev (chKey n.val)).completions = [] ∧ c.txns = [t] ∧ t.waiting = [] ∧ t.lines ≠ [] ∧ t.part
      = .none ∧ c.sub1 = {} ∧ c.ahead = [] ∧ c.retrain = [] ∧ c.sub0.reads = [e] ∧ c.sub0.writes = [w] ∧ e.line = w.line ∧ e.seq ≠ w.seq ∧
      w.kind = .write ∧ w.data = [(a, v)] ∧ c.power = [] ∧ openRow c.sub0 (bankOf s.dev w.line) = some (rowOf s.dev w.line) ∧ storeUnit s.dev
      (plainAddr a) = n.val) ∧
    (∃ (s : State) (n : Fin 8) (c : DdrChan) (t : DdrTxn) (e : DdrEntry) (w : Nat) (x : PWord), s.ready ∧ tWf chDflt s.dev.mem.ddr = true ∧
      tWf epDflt s.dev.net.eps = true ∧ c = getCh s.dev n.val ∧ c.state = .ready ∧ pllRuns s.dev (19 + n.val) = true ∧ (getEp s.dev (chKey
      n.val)).completions = [] ∧ c.txns = [t] ∧ t.waiting = [] ∧ t.lines = [e.line] ∧ t.part = .none ∧ t.got = [] ∧ t.code = 0 ∧ t.partCode =
      0 ∧ t.ctx = {} ∧ t.req.op = .rd ∧ c.sub1 = {} ∧ c.ahead = [] ∧ c.retrain = [] ∧ c.sub0.reads = [e] ∧ c.sub0.writes = [] ∧ e.kind = .read
      ∧ e.txn = t.id ∧ c.power = [] ∧ openRow c.sub0 (bankOf s.dev e.line) = some (rowOf s.dev e.line) ∧ lineWords t.req e.line = [w] ∧ w < 8
      ∧ x = memGet s.dev (lineBase e.line + 8 * w) ∧ (decodeWord x).outcome = .clean ∧ plainAddr (lineBase e.line) = lineBase e.line) ∧
    (∃ (s : State) (n : Fin 8) (c : DdrChan) (t : DdrTxn) (e : DdrEntry) (b : Nat), s.ready ∧ tWf chDflt s.dev.mem.ddr = true ∧ tWf epDflt
      s.dev.net.eps = true ∧ c = getCh s.dev n.val ∧ c.state = .ready ∧ pllRuns s.dev (19 + n.val) = true ∧ (getEp s.dev (chKey
      n.val)).completions = [] ∧ c.txns = [t] ∧ t.waiting = [] ∧ t.lines ≠ [] ∧ t.part = .none ∧ c.sub1 = {} ∧ c.ahead = [] ∧ c.retrain = [] ∧
      c.sub0.reads = [e] ∧ c.sub0.writes = [] ∧ e.kind ≠ .ahead ∧ c.power = [] ∧ b = bankOf s.dev e.line ∧ b < 128 ∧ openRow c.sub0 b = none ∧
      tWf (fun _ => none) c.sub0.openRows = true ∧ (c.rfmAt = 0 ∨ tGet (fun _ => 0) c.activates b < c.rfmAt) ∧ tWf (fun _ => 0) c.activates =
      true) ∧
    (∃ (s : State) (n : Fin 8) (c : DdrChan) (t : DdrTxn) (e : DdrEntry) (b : Nat), s.ready ∧ tWf chDflt s.dev.mem.ddr = true ∧ tWf epDflt
      s.dev.net.eps = true ∧ c = getCh s.dev n.val ∧ c.state = .ready ∧ pllRuns s.dev (19 + n.val) = true ∧ (getEp s.dev (chKey
      n.val)).completions = [] ∧ c.txns = [t] ∧ t.waiting = [] ∧ t.lines ≠ [] ∧ t.part = .none ∧ c.sub1 = {} ∧ c.ahead = [] ∧ c.retrain = [] ∧
      c.sub0.reads = [e] ∧ c.sub0.writes = [] ∧ e.kind ≠ .ahead ∧ c.power = [] ∧ b = bankOf s.dev e.line ∧ b < 128 ∧ openRow c.sub0 b = none ∧
      tWf (fun _ => 0) c.activates = true ∧ 0 < c.rfmAt ∧ c.rfmAt ≤ tGet (fun _ => 0) c.activates b) ∧
    (∃ (s : State) (n : Fin 8) (c : DdrChan), s.ready ∧ c = getCh s.dev n.val ∧ ddrCommands s.dev n.val = true ∧ c.sub0.reads ≠ [] ∧
      c.postponed < 4) ∧
    (∃ (s : State) (n : Fin 8) (c : DdrChan), s.ready ∧ tWf chDflt s.dev.mem.ddr = true ∧ c = getCh s.dev n.val ∧ ddrCommands s.dev n.val =
      true ∧ c.sub0.reads = [] ∧ c.sub1.reads = [] ∧ bitR s.dev (rDdrCtrl n.val) 0 = false) ∧
    (∃ (s : State) (n : Fin 8) (rank : Fin 4), s.ready ∧ tWf chDflt s.dev.mem.ddr = true ∧ (getCh s.dev n.val).state = .ready ∧ fldR s.dev
      (rDdrCtrl n.val) 39 24 ≠ 0 ∧ rank.val < (getCh s.dev n.val).ranks ∧ rankIdle s.dev n.val rank.val = true ∧ (getCh s.dev n.val).power =
      []) ∧
    (∃ (s : State) (n : Fin 8) (rank : Fin 4), s.ready ∧ tWf chDflt s.dev.mem.ddr = true ∧ (getCh s.dev n.val).state = .ready ∧ fldR s.dev
      (rDdrCtrl n.val) 47 40 ≠ 0 ∧ rank.val < (getCh s.dev n.val).ranks ∧ rankIdle s.dev n.val rank.val = true ∧ (getCh s.dev n.val).power =
      [(rank.val, 1)]) :=
  ⟨⟨⟨[], oneCh chW⟩, 7, chW, ddrTxn (readWord dLine) [77], ddrEnt 2 .read [], ddrEnt 1 .write [(dLine, clean 5)], dLine, clean 5, ready_of
    (by decide +kernel), by decide +kernel⟩,
  ⟨⟨[], oneCh (chR rows77)⟩, 7, chR rows77, ddrTxn (readWord dLine) [77], ddrEnt 2 .read [], 0, memGet (oneCh (chR rows77)) dLine, ready_of
    (by decide +kernel), by decide +kernel⟩,
  ⟨⟨[], oneCh (chR [])⟩, 7, chR [], ddrTxn (readWord dLine) [77], ddrEnt 2 .read [], bankOf (oneCh (chR [])) 77, ready_of (by decide +kernel),
    by decide +kernel⟩,
  ⟨⟨[], oneCh { chR [] with rfmAt := 5, activates := [(bankOf (oneCh (chR [])) 77, 7)] }⟩, 7,
    { chR [] with rfmAt := 5, activates := [(bankOf (oneCh (chR [])) 77, 7)] }, ddrTxn (readWord dLine) [77], ddrEnt 2 .read [], bankOf (oneCh
    (chR [])) 77, ready_of (by decide +kernel), by decide +kernel⟩,
  ⟨⟨[], oneCh { chR [] with postponed := 3 }⟩, 7, { chR [] with postponed := 3 }, ready_of (by decide +kernel), by decide +kernel⟩,
  ⟨⟨[], ctl7 (oneCh { chReady with postponed := 3, sub0 := { openRows := rows77 }, rfmAt := 5, activates := [(255, 9)] }) 0 0 0⟩, 7,
    { chReady with postponed := 3, sub0 := { openRows := rows77 }, rfmAt := 5, activates := [(255, 9)] }, ready_of (by decide +kernel),
    by decide +kernel⟩,
  ⟨⟨[], ctl7 (oneCh { chReady with sub0 := { openRows := rows77 } }) 39 24 100⟩, 7, 0, ready_of (by decide +kernel), by decide +kernel⟩,
  ⟨⟨[], ctl7 (oneCh { chReady with power := [(0, 1)] }) 47 40 255⟩, 7, 0, ready_of (by decide +kernel), by decide +kernel⟩⟩

theorem met_DdrChannels :
    (∃ (s : State) (n : Fin 8) (x : DdrSpd), s.ready ∧ tWf chDflt s.dev.mem.ddr = true ∧ (getCh s.dev n.val).state = .training ∧ (getCh s.dev
      n.val).boot = true ∧ pllRuns s.dev (19 + n.val) = true ∧ s.dev.power.warm = none ∧ spdReason x = none) ∧
    (∃ (s : State) (n : Fin 8), s.ready ∧ s.calm ∧ tWf chDflt s.dev.mem.ddr = true ∧ (getCh s.dev n.val).state = .training ∧ (getCh s.dev
      n.val).firstFill = false ∧ (getCh s.dev n.val).txns = [] ∧ ddrOut s.dev n.val = false) ∧
    (∃ (s : State) (n : Fin 8), s.ready ∧ fldR s.dev (rDdrCtrl n.val) 23 16 = 0) ∧
    (∃ (s : State) (n : Fin 8) (x : DqsCount) (v p : Nat) (c : DdrChan), s.ready ∧ c = getCh s.dev n.val ∧ ddrCommands s.dev n.val = true ∧
      fldR s.dev (rDdrCtrl n.val) 23 16 ≠ 0 ∧ p = 4 * x.sub.toNat + x.rank.val ∧ x.rank.val < c.ranks ∧ c.dqs.find? (fun e => e.1 = 16 * p +
      x.device.val) = some (16 * p + x.device.val, v)) ∧
    (∃ (s : State) (n : Fin 8), s.ready ∧ ddrCommands s.dev n.val = true) ∧
    (∃ (s : State) (n : Fin 8), s.steady ∧ s.calm ∧ tWf chDflt s.dev.mem.ddr = true ∧ (getCh s.dev n.val).state = .ready ∧ (getCh s.dev
      n.val).txns = [] ∧ bitR s.dev (rDdrFreeze n.val) 63 = false) ∧
    (∃ (s : State) (n : Fin 8) (c : DdrCmdAt) (x : SubChannel) (w : DdrEntry) (a : Nat) (v : PWord), s.ready ∧ (∀ m, tWf (fun _ => none)
      (getCh s.dev m).arr = true) ∧ ddrCommands s.dev n.val = true ∧ tWf chDflt s.dev.mem.ddr = true ∧ x = getSub (getCh s.dev n.val)
      c.sub.toNat ∧ x.last = some (w, [(a, v)]) ∧ storeUnit s.dev (plainAddr a) = n.val ∧ x.wcrcRun + 1 < fldR s.dev (rDdrCtrl n.val) 59 56) ∧
    (∃ (s : State) (n : Fin 8) (c : DdrCmdAt) (x : SubChannel), s.steady ∧ s.calm ∧ tWf chDflt s.dev.mem.ddr = true ∧ (getCh s.dev
      n.val).state = .ready ∧ (getCh s.dev n.val).txns = [] ∧ bitR s.dev (rDdrFreeze n.val) 63 = false ∧ x = getSub (getCh s.dev n.val)
      c.sub.toNat ∧ (x.last.all fun y => y.2.all fun z => storeUnit s.dev (plainAddr z.1) = n.val) = true ∧ max 1 (fldR s.dev (rDdrCtrl n.val)
      59 56) ≤ x.wcrcRun + 1) ∧
    (∃ (s : State) (n : Fin 8), s.steady ∧ s.calm ∧ tWf chDflt s.dev.mem.ddr = true ∧ ddrOut s.dev n.val = false ∧ (getCh s.dev n.val).txns =
      []) ∧
    (∃ (s : State), s.steady ∧ s.calm ∧ tWf chDflt s.dev.mem.ddr = true ∧ bitR s.dev rDdrMapCfg 61 = false ∧ bitR s.dev rDdrMapCfg 8 = true ∧
      (∀ n : Nat, n < 8 → (getCh s.dev n).txns = []) ∧ liveChannels s.dev ≠ []) ∧
    (∃ (s : State), s.steady ∧ bitR s.dev rDdrMapCfg 61 = true) ∧
    (∃ (s : State) (n : Fin 8), s.steady ∧ tWf chDflt s.dev.mem.ddr = true ∧ (getCh s.dev n.val).state = .training ∧ (getCh s.dev n.val).boot
      = false ∧ s.dev.power.warm = none) ∧
    (∃ (s : State) (n : Fin 8) (cause : OutCause), s.steady ∧ s.calm ∧ tWf chDflt s.dev.mem.ddr = true ∧ s.dev.units.ddr = [(n.val, cause)] ∧
      cause ≠ .decoder ∧ (getCh s.dev n.val).retry = false ∧ (getCh s.dev n.val).txns = []) :=
  ⟨⟨⟨[], { clk := { plls := [(1, .locked), (26, .locked)] }, mem := { ddr := [(7, { retry := true })] } }⟩, 7, { rfmAt := 40, dqs := [{ sub := true, rank := 3, device := 15, count := 500 }], width := 8, density := 32, ranks := 4, rate := 32 },
    ready_of (by decide +kernel), by decide +kernel⟩,
  ⟨⟨[], {}⟩, 7, ready_of (by decide +kernel), calm_of (by decide +kernel), by decide +kernel⟩,
  ⟨⟨[], ctl7 (oneCh chReady) 23 16 0⟩, 7, ready_of (by decide +kernel), by decide +kernel⟩,
  ⟨⟨[], ctl7 (oneCh { chReady with dqs := [(79, 500)] }) 23 16 1⟩, 7, { sub := true, rank := 0, device := 15, count := 489 }, 500, 4,
    { chReady with dqs := [(79, 500)] }, ready_of (by decide +kernel), by decide +kernel⟩,
  ⟨⟨[], oneCh { chReady with retrain := [4] }⟩, 7, ready_of (by decide +kernel), by decide +kernel⟩,
  ⟨⟨[], oneCh { chReady with buffer := [(5, [])] }⟩, 7, steady_of (by decide +kernel), calm_of (by decide +kernel), by decide +kernel⟩,
  ⟨⟨[], ctl7 (oneCh chCrc) 59 56 3⟩, 7, { sub := true, rank := 3, addr := 5, command := 6 }, chCrc.sub1, ddrEnt 1 .write [(dLine, clean 5)],
    dLine, clean 4, ready_of (by decide +kernel), arr_wf (dflt := chDflt) (arr := DdrChan.arr) (fun _ => rfl) (t := _) (by decide +kernel),
    by decide +kernel⟩,
  ⟨⟨[], ctl7 (oneCh { chReady with sub1 := { wcrcRun := 2 } }) 59 56 3⟩, 7, { sub := true, rank := 3, addr := 5, command := 6 },
    { wcrcRun := 2 }, steady_of (by decide +kernel), calm_of (by decide +kernel), by decide +kernel⟩,
  ⟨⟨[], setR (oneCh { chReady with buffer := [(5, [])] }) (rDdrStatus 7) 15 0 0xFFFF⟩, 7, steady_of (by decide +kernel), calm_of
    (by decide +kernel), by decide +kernel⟩,
  ⟨⟨[], setR (oneCh chReady) rDdrMapCfg 8 8 1⟩, steady_of (by decide +kernel), calm_of (by decide +kernel), by decide +kernel⟩,
  ⟨⟨[], setR {} rDdrMapCfg 61 61 1⟩, steady_of (by decide +kernel), by decide +kernel⟩,
  ⟨⟨[], { mem := { ddr := [(7, { boot := false })] } }⟩, 7, steady_of (by decide +kernel), by decide +kernel⟩,
  ⟨⟨[], { units := { ddr := [(7, .retraining)] }, mem := { ddr := [(7, { chReady with state := .outOfService })] } }⟩, 7, .retraining,
    steady_of (by decide +kernel), calm_of (by decide +kernel), by decide +kernel⟩⟩

theorem met_PowerOn :
    (∃ (s : State), s.settled ∧ s.dev.power.groupA = true) ∧
    (∃ (s : State), s.ready) ∧
    (∃ (s : State), s.settled ∧ s.calm ∧ s.dev.power.groupA = true ∧ s.dev.power.por = true ∧ s.dev.links.lanes.lanes = []) ∧
    (∃ (s : State), s.ready ∧ s.dev.power.groupBC = false ∧ pllRuns s.dev 1 = true ∧ s.dev.clk.reduced = false ∧ tWf (fun _ => PllState.off)
      s.dev.clk.plls = true ∧ pllState s.dev 2 = .off) ∧
    (∃ (s : State) (r : RailState), s.ready ∧ s.calm ∧ s.dev.power.groupBC = false ∧ vitalRail r = true) ∧
    (∃ (s : State) (r : RailState), s.ready ∧ s.calm ∧ vitalRail r = true) ∧
    (∃ (s : State) (r : RailState), s.ready ∧ s.calm ∧ r.rail.val = 3 ∧ (∀ n : Nat, n < 128 → (getLane s.dev n).stage ≠ .active)) :=
  ⟨⟨⟨[], {}⟩, settled_of (by decide +kernel), by decide +kernel⟩,
  ⟨⟨[], {}⟩, ready_of (by decide +kernel)⟩,
  ⟨⟨[], { power := { por := true } }⟩, settled_of (by decide +kernel), calm_of (by decide +kernel), by decide +kernel⟩,
  ⟨⟨[], { power := { groupBC := false }, clk := { plls := [(1, .locked)] } }⟩, ready_of (by decide +kernel), by decide +kernel⟩,
  ⟨⟨[], { power := { groupBC := false } }⟩, { rail := 0, unit := 0, mv := 500 }, ready_of (by decide +kernel), calm_of (by decide +kernel),
    by decide +kernel⟩,
  ⟨⟨[], {}⟩, { rail := 0, unit := 0, mv := 500 }, ready_of (by decide +kernel), calm_of (by decide +kernel), by decide +kernel⟩,
  ⟨⟨[], {}⟩, { rail := 3, unit := 0, mv := 500 }, ready_of (by decide +kernel), calm_of (by decide +kernel), by decide +kernel⟩⟩

theorem met_WarmResets :
    (∃ (s : State), s.steady ∧ s.calm ∧ tWf sectorDflt s.dev.sectors = true ∧ tWf groupDflt s.dev.groups = true ∧ s.dev.cfg.regions = [] ∧
      s.dev.power.warm = none) ∧
    (∃ (s : State) (w : WarmRun), s.ready ∧ s.calm ∧ tWf (fun _ => PllState.off) s.dev.clk.plls = true ∧ s.dev.power.warm = some w ∧ w.event =
      2) ∧
    (∃ (s : State) (w : WarmRun), s.ready ∧ tWf (fun _ => PllState.off) s.dev.clk.plls = true ∧ s.dev.power.warm = some w ∧ w.event = 4 ∧
      pllState s.dev 2 = .locking ∧ (∀ i : Nat, i < 64 → (activeDesc s.dev i).state ≠ .active)) ∧
    (∃ (s : State) (w : WarmRun), s.ready ∧ tWf (fun _ => PllState.off) s.dev.clk.plls = true ∧ tWf chDflt s.dev.mem.ddr = true ∧
      s.dev.power.warm = some w ∧ w.event = 4 ∧ pllState s.dev 2 = .locked ∧ (∀ i : Nat, i < 64 → (activeDesc s.dev i).state ≠ .active) ∧ (∀ n
      : Nat, n < 8 → (getCh s.dev n).resetAfterWarm = false)) :=
  ⟨⟨⟨[], { cfg := { done := true }, sectors := [(63, { state := .active })] }⟩, steady_of (by decide +kernel), calm_of (by decide +kernel),
    by decide +kernel⟩,
  ⟨⟨[], { clk := { plls := [(2, .locked), (3, .locked), (18, .locked)] }, power :=
            { warm := some { event := 2, byE4 := false, rstLow := false } } }⟩, { event := 2, byE4 := false, rstLow := false }, ready_of
    (by decide +kernel), calm_of (by decide +kernel), by decide +kernel⟩,
  ⟨⟨[], { clk := { plls := [(1, .holdover), (2, .locking)] }, power := { warm := some { event := 4, byE4 := false, rstLow := false } } }⟩,
    { event := 4, byE4 := false, rstLow := false }, ready_of (by decide +kernel), by decide +kernel⟩,
  ⟨⟨[], { clk := { plls := [(2, .locked)] }, mem := { ddr := [(7, { chReady with state := .selfRefresh })] }, power :=
            { warm := some { event := 4, byE4 := false, rstLow := false } } }⟩, { event := 4, byE4 := false, rstLow := false }, ready_of
    (by decide +kernel), by decide +kernel⟩⟩

theorem met_ConverterTiles :
    (∃ (s : State) (t : Fin 24) (x : SampleIn) (n d : Nat) (red : Bool), s.settled ∧ tWf tileDflt s.dev.cab.tiles = true ∧ cabClocks s.dev =
      true ∧ n = (nextSlot s.dev.cab).2.2 ∧ red = decide (s.dev.cab.sw.cur = 2) ∧ d = effDiv red 20 (tileCfg s.dev t.val).adcDiv.toNat ∧
      (tileCfg s.dev t.val).measEn = true ∧ n % d = (tileCfg s.dev t.val).adcPhase.toNat % d ∧ (getTile s.dev t.val).out = false ∧ (getTile
      s.dev t.val).cal = .idle ∧ x.tile = t ∧ x.checkOk = true ∧ (∀ k : Nat, k < 24 → (getTile s.dev k).failed = none)) ∧
    (∃ (s : State) (t : Fin 24) (c : Nat), s.settled ∧ tWf tileDflt s.dev.cab.tiles = true ∧ cabUp s.dev = true ∧ (getTile s.dev t.val).failed
      = some c ∧ (∀ k : Nat, k < 24 → k = t.val ∨ (getTile s.dev k).failed = none)) ∧
    (∃ (s : State) (t : Fin 24) (m : Sample) (rest : List Sample), s.settled ∧ tileEdge s.dev t.val = true ∧ (getTile s.dev t.val).out = false
      ∧ (getTile s.dev t.val).cal ≠ .running ∧ (getTile s.dev t.val).waiting = m :: rest) ∧
    (∃ (s : State) (t : Fin 24), s.settled ∧ tileEdge s.dev t.val = true ∧ (getTile s.dev t.val).out = false) ∧
    (∃ (s : State) (n : Nat), s.settled ∧ tWf tileDflt s.dev.cab.tiles = true ∧ cabUp s.dev = true ∧ s.dev.cab.quiet = false ∧
      s.dev.cab.reduced = false ∧ n = (s.dev.cab.slot + slotsPerSecond - 1) % slotsPerSecond) ∧
    (∃ (s : State) (t : Fin 24), s.settled ∧ tileEdge s.dev t.val = true ∧ (getTile s.dev t.val).out = false ∧ (getTile s.dev t.val).cal =
      .idle) ∧
    (∃ (s : State) (t : Fin 24), s.settled ∧ (getTile s.dev t.val).cal = .running) ∧
    (∃ (s : State) (t : Fin 24), s.settled ∧ s.calm ∧ tWf tileDflt s.dev.cab.tiles = true ∧ (getTile s.dev t.val).cal = .running ∧ (getTile
      s.dev t.val).out = false ∧ (getTile s.dev t.val).failed = none) ∧
    (∃ (s : State), s.settled ∧ s.calm ∧ tWf tileDflt s.dev.cab.tiles = true ∧ cabUp s.dev = true) ∧
    (∃ (s : State) (t : Fin 24), s.settled ∧ s.calm ∧ tWf tileDflt s.dev.cab.tiles = true ∧ cabUp s.dev = true ∧ (tileCfg s.dev t.val).srcEn =
      true ∧ (getTile s.dev t.val).limit = false ∧ (getTile s.dev t.val).out = false ∧ (getTile s.dev t.val).failed = none) :=
  ⟨⟨⟨[], onTile { wrapDue := true, valid := true }⟩, 23, { tile := 23, code := 524288 }, 4999999, 3, false, settled_of (by decide +kernel),
    by decide +kernel⟩,
  ⟨⟨[], onTile { failed := some 5, waiting := [{ code := 5, ovr := true, red := false, wrap := true }], dac := 9 }⟩, 23, 5, settled_of
    (by decide +kernel), by decide +kernel⟩,
  ⟨⟨[], onTile { waiting := [{ code := 5, ovr := true, red := false, wrap := true }] }⟩, 23,
    { code := 5, ovr := true, red := false, wrap := true }, [], settled_of (by decide +kernel), by decide +kernel⟩,
  ⟨⟨[], onTile {}⟩, 23, settled_of (by decide +kernel), by decide +kernel⟩,
  ⟨⟨[], { onTile { code := 5 } with cab := { (onTile { code := 5 }).cab with slot := 1 } }⟩, 0, settled_of (by decide +kernel),
    by decide +kernel⟩,
  ⟨⟨[], onTile {}⟩, 23, settled_of (by decide +kernel), by decide +kernel⟩,
  ⟨⟨[], onTile { cal := .running }⟩, 23, settled_of (by decide +kernel), by decide +kernel⟩,
  ⟨⟨[], onTile { cal := .running }⟩, 23, settled_of (by decide +kernel), calm_of (by decide +kernel), by decide +kernel⟩,
  ⟨⟨[], onTile {}⟩, settled_of (by decide +kernel), calm_of (by decide +kernel), by decide +kernel⟩,
  ⟨⟨[], onTile {}⟩, 23, settled_of (by decide +kernel), calm_of (by decide +kernel), by decide +kernel⟩⟩

theorem met_CabinetPorts :
    (∃ (s : State), s.settled ∧ cabClocks s.dev = true ∧ s12Up s.dev = true ∧ s.dev.cab.sampleQ.words.length + s.dev.cab.sampleQ.freed < 64) ∧
    (∃ (s : State), s.settled ∧ cabClocks s.dev = true ∧ s12Up s.dev = true ∧ 64 ≤ s.dev.cab.sampleQ.words.length + s.dev.cab.sampleQ.freed) ∧
    (∃ (s : State) (w v : PWord) (rest : List PWord), s.settled ∧ s12Up s.dev = true ∧ edgeAt s.dev 12 (cabPortClk (items s.dev 12) false) =
      true ∧ s.dev.cab.spOut.isSome = true ∧ s.dev.cab.sampleQ.words = w :: v :: rest ∧ s.dev.cab.sampleQ.unseen ≤ rest.length ∧ (decodeWord
      v).outcome = .clean) ∧
    (∃ (s : State) (w v : PWord) (rest : List PWord), s.settled ∧ tWf regReset s.dev.regs = true ∧ s12Up s.dev = true ∧ edgeAt s.dev 12
      (cabPortClk (items s.dev 12) false) = true ∧ s.dev.cab.spOut.isSome = true ∧ s.dev.cab.sampleQ.words = w :: v :: rest ∧
      s.dev.cab.sampleQ.unseen ≤ rest.length ∧ (decodeWord v).outcome = .uncorrectable) ∧
    (∃ (s : State) (w : PWord), s.settled ∧ s12Up s.dev = true ∧ edgeAt s.dev 12 (cabPortClk (items s.dev 12) false) = true ∧
      s.dev.cab.spOut.isSome = true ∧ s.dev.cab.sampleQ.words = [w]) ∧
    (∃ (s : State), s.settled ∧ s12Up s.dev = true ∧ edgeAt s.dev 12 (cabPortClk (items s.dev 12) true) = true ∧
      s.dev.cab.sourceQ.words.length + s.dev.cab.sourceQ.freed < 64) ∧
    (∃ (s : State) (w : SourceWord) (rest : List SourceWord) (t : Nat), s.settled ∧ cabUp s.dev = true ∧ s.dev.cab.quiet = false ∧
      s.dev.cab.sourceQ.words = w :: rest ∧ s.dev.cab.sourceQ.unseen ≤ rest.length ∧ (decodeWord w.word).outcome = .clean ∧ (decodeWord
      w.word).poison = false ∧ fld (decodeWord w.word).data 62 60 = 1 ∧ nth 24 w.tiles 0 = t ∧ t < 24 ∧ (activeDecl s.dev).srcTiles.testBit t
      = true) ∧
    (∃ (s : State) (w : SourceWord) (rest : List SourceWord) (t : Nat), s.settled ∧ cabUp s.dev = true ∧ s.dev.cab.quiet = false ∧
      s.dev.cab.sourceQ.words = w :: rest ∧ s.dev.cab.sourceQ.unseen ≤ rest.length ∧ (decodeWord w.word).outcome = .clean ∧ (decodeWord
      w.word).poison = false ∧ fld (decodeWord w.word).data 62 60 = 1 ∧ nth 24 w.tiles 0 = t ∧ (24 ≤ t ∨ (activeDecl s.dev).srcTiles.testBit t
      = false)) :=
  ⟨⟨⟨[], s12On fun c => { c with sampleQ := { words := List.replicate 63 (clean 1) } }⟩, settled_of (by decide +kernel), by decide +kernel⟩,
  ⟨⟨[], s12On fun c => { c with sampleQ := { words := List.replicate 63 (clean 1), freed := 1 }, spDrops := 2 ^ 24 - 1 }⟩, settled_of
    (by decide +kernel), by decide +kernel⟩,
  ⟨⟨[], s12On fun c => { c with spOut := some (1, false), sampleQ := { words := [clean 1, encodeWord 9 true], freed := 2 } }⟩, clean 1,
    encodeWord 9 true, [], settled_of (by decide +kernel), by decide +kernel⟩,
  ⟨⟨[], s12On fun c => { c with spOut := some (1, false), sampleQ := { words := [clean 1, clean 9 ^^^ 0x111, clean 2], unseen := 1 } }⟩, clean
    1, clean 9 ^^^ 0x111, [clean 2], settled_of (by decide +kernel), by decide +kernel⟩,
  ⟨⟨[], s12On fun c => { c with spOut := some (1, false), sampleQ := { words := [clean 1], unseen := 0 } }⟩, clean 1, settled_of
    (by decide +kernel), by decide +kernel⟩,
  ⟨⟨[], s12On fun c => { c with sourceQ := { words := List.replicate 63 { word := clean 1, tiles := [] } } }⟩, settled_of (by decide +kernel),
    by decide +kernel⟩,
  ⟨⟨[], cabOn [] fun c => { c with sourceQ := { words := [{ word := clean (2 ^ 60 + 77), tiles := [23] }], unseen := 0 }, inCnt := [(23,
                                     65535)] }⟩, { word := clean (2 ^ 60 + 77), tiles := [23] }, [], 23, settled_of (by decide +kernel),
    by decide +kernel⟩,
  ⟨⟨[], cabOn [] fun c => { c with sourceQ := { words := [{ word := clean (2 ^ 60 + 77), tiles := [22] }] }, srcRefused := 2 ^ 24 - 1 }⟩,
    { word := clean (2 ^ 60 + 77), tiles := [22] }, [], 22, settled_of (by decide +kernel), by decide +kernel⟩⟩

theorem met_CabinetStarts :
    (∃ (s : State), s.settled ∧ s.dev.cab.powered = false ∧ s.dev.cab.rstN = true) ∧
    (∃ (s : State), s.settled ∧ s.dev.cab.powered = true ∧ s.dev.cab.rstN = false) ∧
    (∃ (s : State), s.settled ∧ s.dev.cab.rstN = true) ∧
    (∃ (s : State), s.settled ∧ s.dev.cab.powered = true) ∧
    (∃ (s : State), s.ready ∧ s.calm ∧ cabUp s.dev = true ∧ s.dev.cab.state = .start ∧ s.dev.cab.active = none ∧ s.dev.cab.audit = {}) ∧
    (∃ (s : State) (p k n : Nat) (img : ImageWords), s.ready ∧ cabUp s.dev = true ∧ s.dev.cab.state = .noImage ∧ s.dev.cab.run = none ∧
      s.dev.cab.active = none ∧ s.dev.cab.leaves.length = 2 ∧ lastNamed [0x01, 0x02] s.dev = some p ∧ k < 4 ∧ img = copyImage (getCopy s.dev
      (copyKey 2 0 0 + k)) ∧ (getCopy s.dev (copyKey 2 0 0 + k)).valid = true ∧ digestPrefix (imgWords img) = p ∧ (∀ j, j < k → (getCopy s.dev
      (copyKey 2 0 0 + j)).valid = false) ∧ sealedError s.dev img false = 0 ∧ sealedSigner s.dev img = some n) ∧
    (∃ (s : State) (src : Fin 3), s.settled ∧ cabClocks s.dev = true ∧ cabGood s.dev src.val = true) :=
  ⟨⟨⟨[], { cab := { powered := false } }⟩, settled_of (by decide +kernel), by decide +kernel⟩,
  ⟨⟨[], { cab := { rstN := false } }⟩, settled_of (by decide +kernel), by decide +kernel⟩,
  ⟨⟨[], cabOn tile23 fun c => { c with logFault := true, slot := 5 }⟩, settled_of (by decide +kernel), by decide +kernel⟩,
  ⟨⟨[], cabOn tile23 fun c => { c with logFault := true, slot := 5 }⟩, settled_of (by decide +kernel), by decide +kernel⟩,
  ⟨⟨[], { cab := { byRst := true } }⟩, ready_of (by decide +kernel), calm_of (by decide +kernel), by decide +kernel⟩,
  ⟨⟨[], sealStore { cab := { state := .noImage, onDie := [(0, auditRecord 1 1 3 0 0 (digestPrefix (imgWords sealedImg)))] } }⟩, digestPrefix
    (imgWords sealedImg), 3, 3, sealedImg, ready_of (by decide +kernel), by decide +kernel⟩,
  ⟨⟨[], cabOn [] id⟩, 2, settled_of (by decide +kernel), by decide +kernel⟩⟩

theorem met_CabinetChanges :
    (∃ (d : Dev) (w : Word) (img : ImageWords), d.cab.run = none ∧ d.cab.state ≠ .start ∧ fld w 63 56 = 0x10 ∧ fld w 55 2 = 0 ∧ mainUp d =
      true ∧ logIsFull d = false ∧ logWorn d = false ∧ (getCopy d (copyKey 2 (fld w 1 1) (fld w 0 0))).valid = true ∧ img = copyImage (getCopy
      d (copyKey 2 (fld w 1 1) (fld w 0 0))) ∧ tilesMissing d (imageDecl img).reqTiles = false ∧ tWf leafDflt d.cfg.leaves = true) ∧
    (∃ (d : Dev) (w : Word) (k : Nat), d.cab.run = none ∧ d.cab.state = .running ∧ fld w 63 56 = 0x11 ∧ fld w 55 3 = 0 ∧ mainUp d = true ∧
      logIsFull d = false ∧ logWorn d = false ∧ (getLeaf d 64 (otherLeaf d 64)).state = .retired ∧ (getLeaf d 64 (otherLeaf d 64)).seq <
      (getLeaf d 64 (activeLeaf d 64)).seq ∧ (getLeaf d 64 (otherLeaf d 64)).unavail = false ∧ k < 4 ∧ (getCopy d (copyKey 2 0 k)).valid =
      true ∧ ofLe (imageDigest (imgWords (getCopy d (copyKey 2 0 k)).image)) = (nth {} d.cab.leaves (otherLeaf d 64)).digest ∧ tilesMissing d
      (nth {} d.cab.leaves (otherLeaf d 64)).decl.reqTiles = false ∧ (sealEntry d (nth {} d.cab.leaves (otherLeaf d 64)).signer).revoked =
      false) ∧
    (∃ (d : Dev) (w : Word) (t : Token), t = tokenOf d ∧ d.cab.run = none ∧ d.cab.state = .running ∧ fld w 63 56 = 0x12 ∧ fld w 55 3 = 0 ∧
      mainUp d = true ∧ logIsFull d = false ∧ logWorn d = false ∧ t.headOk = true ∧ t.counter = d.cab.c ∧ tokenSigner t d = true ∧ t.kind = 1
      ∧ (sealEntry d (t.arg % 4)).programmed = false) ∧
    (∃ (d : Dev) (r : CabRun), d.cab.run = some r ∧ reactionOf d (fltCab 6) = 0) ∧
    (∃ (s : State) (slot copy : Fin 2) (img : ImageWords), s.ready ∧ s.mailbox 0x0501 [(7, packNat [(0, 2), (slot.val, 1), (copy.val, 0)])] ∧
      s.dev.cab.run = none ∧ s.dev.cab.state ≠ .start ∧ logIsFull s.dev = false ∧ logWorn s.dev = false ∧ (getCopy s.dev (copyKey 2 slot.val
      copy.val)).valid = true ∧ img = copyImage (getCopy s.dev (copyKey 2 slot.val copy.val)) ∧ tilesMissing s.dev (imageDecl img).reqTiles =
      false) ∧
    (∃ (s : State) (r : CabRun), s.ready ∧ s.mailbox 0x0502 [] ∧ s.dev.cab.run = some r ∧ reactionOf s.dev (fltCab 6) = 0) ∧
    (∃ (s : State) (k : Nat), s.ready ∧ s.mailbox 0x0502 [] ∧ s.dev.cab.run = none ∧ s.dev.cab.state = .running ∧ logIsFull s.dev = false ∧
      logWorn s.dev = false ∧ (getLeaf s.dev 64 (otherLeaf s.dev 64)).state = .retired ∧ (getLeaf s.dev 64 (otherLeaf s.dev 64)).seq <
      (getLeaf s.dev 64 (activeLeaf s.dev 64)).seq ∧ (getLeaf s.dev 64 (otherLeaf s.dev 64)).unavail = false ∧ k < 4 ∧ (getCopy s.dev (copyKey
      2 0 k)).valid = true ∧ ofLe (imageDigest (imgWords (getCopy s.dev (copyKey 2 0 k)).image)) = (nth {} s.dev.cab.leaves (otherLeaf s.dev
      64)).digest ∧ tilesMissing s.dev (nth {} s.dev.cab.leaves (otherLeaf s.dev 64)).decl.reqTiles = false ∧ (sealEntry s.dev (nth {}
      s.dev.cab.leaves (otherLeaf s.dev 64)).signer).revoked = false) ∧
    (∃ (s : State) (token : List Word) (d0 : Dev) (t : Token), s.ready ∧ s.mailbox 0x0504 (wholeWords token) ∧ t = tokenOf d0 ∧ cabUp s.dev =
      true ∧ s.dev.cab.run = none ∧ s.dev.cab.state ≠ .start ∧ d0 = { s.dev with cab := { s.dev.cab with staging := (token.take 33).zipIdx.foldl (fun t w => tSet (fun _ => 0) t w.2 w.1) s.dev.cab.staging }
                                                                                   } ∧ t.headOk = true ∧ t.kind = 4 ∧ t.sigOk = true ∧
      (matchEntry d0 t.signer 1).isSome = true ∧ s.dev.cab.e < t.counter ∧ t.counter ≤ s.dev.cab.c ∧ ofLe (sha384 (exportedBytes d0
      t.counter)) = t.value) ∧
    (∃ (s : State) (r : CabRun) (slot copy n : Nat), s.settled ∧ s.dev.cab.run = some r ∧ r.change = .load slot copy ∧ r.event = 1 ∧
      s.dev.cab.leaves.length = 2 ∧ tWf leafDflt s.dev.cfg.leaves = true ∧ sealedError s.dev r.image false = 0 ∧ sealedSigner s.dev r.image =
      some n ∧ tilesMissing s.dev (imageDecl r.image).reqTiles = false) ∧
    (∃ (s : State) (v : Bool) (r : CabRun) (slot copy : Nat), s.settled ∧ s.calm ∧ s.dev.cab.run = some r ∧ r.change = .load slot copy ∧
      r.event = 1 ∧ r.mailbox = false ∧ sealedError s.dev r.image v ≠ 0) ∧
    (∃ (s : State) (r : CabRun) (slot copy : Nat), s.settled ∧ s.dev.cab.run = some r ∧ r.event = 3 ∧ (r.change = .rollback ∨ r.change = .load
      slot copy) ∧ logIsFull s.dev = false ∧ logWorn s.dev = false) ∧
    (∃ (s : State) (r : CabRun) (e role hash : Nat), s.settled ∧ s.dev.cab.run = some r ∧ r.event = 3 ∧ r.change = .keyAdd e role hash ∧
      r.mailbox = false ∧ logIsFull s.dev = false ∧ logWorn s.dev = false ∧ tWf sealDflt s.dev.cab.otp = true) ∧
    (∃ (s : State) (r : CabRun), s.settled ∧ s.dev.cab.run = some r ∧ r.event = 4) ∧
    (∃ (s : State) (r : CabRun), s.settled ∧ s.dev.cab.run = some r ∧ r.event = 5 ∧ tWf leafDflt s.dev.cfg.leaves = true ∧ tWf (fun _ => 0)
      s.dev.cfg.active = true ∧ s.dev.cab.active.isSome = true) ∧
    (∃ (s : State) (r : CabRun), s.settled ∧ s.dev.cab.run = some r ∧ r.event = 6 ∧ r.mailbox = false ∧ s.dev.cab.active.isSome = true ∧
      (s.dev.cab.reachedTarget = true ∨ (cabTarget s.dev = s.dev.cab.sw.cur ∧ s.dev.cab.sw.target = none))) ∧
    (∃ (s : State) (r : CabRun), s.settled ∧ s.dev.cab.run = some r ∧ r.event = 6 ∧ r.mailbox = false ∧ s.dev.cab.active.isSome = true ∧
      s.dev.cab.reachedTarget = false ∧ s.dev.cab.sw.cur = 2 ∧ s.dev.cab.sw.target = none ∧ cabTarget s.dev = 1 ∧ cabGood s.dev 1 = true) ∧
    (∃ (s : State) (n : Nat) (rest : List Nat), s.ready ∧ cabUp s.dev = true ∧ s.dev.cab.ringBDue = n :: rest) :=
  ⟨⟨sealStore (cabOn [] id), BitVec.ofNat 64 (0x10 * 2 ^ 56 + 3), sealedImg, by decide +kernel⟩,
  ⟨rollbackReady, BitVec.ofNat 64 (0x11 * 2 ^ 56), 3, by decide +kernel⟩,
  ⟨cabOn [] (staged keyToken), BitVec.ofNat 64 (0x12 * 2 ^ 56), tokenOf (cabOn [] (staged keyToken)), rfl, by decide +kernel⟩,
  ⟨putR (cabOn [] fun c => { c with run := some (loadRun 4 false) }) (rReact 7 0) 0, loadRun 4 false, by decide +kernel⟩,
  ⟨⟨[], { sealStore (cabOn [] id) with bureau := { mbx := mbxRuns 0x0501 [3] } }⟩, 1, 1, sealedImg, ready_of (by decide +kernel), mailbox_of
    (by decide +kernel), by decide +kernel⟩,
  ⟨⟨[], { putR (cabOn [] (fun c => { c with run := some (loadRun 4 false) })) (rReact 7 0) 0 with bureau := { mbx := mbxRuns 0x0502 [] } }⟩,
    loadRun 4 false, ready_of (by decide +kernel), mailbox_of (by decide +kernel), by decide +kernel⟩,
  ⟨⟨[], { rollbackReady with bureau := { mbx := mbxRuns 0x0502 [] } }⟩, 3, ready_of (by decide +kernel), mailbox_of (by decide +kernel),
    by decide +kernel⟩,
  ⟨⟨[], { cabOn [] (fun c => { c with c := 1, onDie := [(0, auditRecord 1 0x10 0 0 0 0)], otp := [(3,
                                        { hash := tokenHash, role := 2, programmed := true })] }) with bureau := { mbx := mbxRuns 0x0504 exportToken } }⟩,
    exportToken, ({ cabOn [] (fun c => staged exportToken { c with c := 1, onDie := [(0, auditRecord 1 0x10 0 0 0 0)], otp := [(3,
                                                                     { hash := tokenHash, role := 2, programmed := true })] }) with bureau := { mbx := mbxRuns 0x0504 exportToken } }),
    tokenOf (cabOn [] (staged exportToken)), ready_of (by decide +kernel), mailbox_of (by decide +kernel), rfl, by decide +kernel⟩,
  ⟨⟨[], sealStore (cabOn [] fun c => { c with run := some (loadRun 1 true) })⟩, loadRun 1 true, 1, 1, 3, settled_of (by decide +kernel),
    by decide +kernel⟩,
  ⟨⟨[], sealStore (cabOn [] fun c => { c with run := some { loadRun 1 false with image := [(5, false)] } })⟩, false,
    { loadRun 1 false with image := [(5, false)] }, 1, 1, settled_of (by decide +kernel), calm_of (by decide +kernel), by decide +kernel⟩,
  ⟨⟨[], { rollbackReady with cab := { rollbackReady.cab with run := some (loadRun 3 true) } }⟩, loadRun 3 true, 1, 1, settled_of
    (by decide +kernel), by decide +kernel⟩,
  ⟨⟨[], cabOn [] fun c => { c with run := some { opcode := 0x12, change := .keyAdd 3 1 77, event := 3 } }⟩,
    { opcode := 0x12, change := .keyAdd 3 1 77, event := 3 }, 3, 1, 77, settled_of (by decide +kernel), by decide +kernel⟩,
  ⟨⟨[], cabOn [] fun c => { c with run := some (loadRun 4 true) }⟩, loadRun 4 true, settled_of (by decide +kernel), by decide +kernel⟩,
  ⟨⟨[], { rollbackReady with cab := { rollbackReady.cab with run := some (loadRun 5 true), quiet := true } }⟩, loadRun 5 true, settled_of
    (by decide +kernel), by decide +kernel⟩,
  ⟨⟨[], cabOn [] fun c => { c with run := some (loadRun 6 false), quiet := true, sw := { cur := 0 } }⟩, loadRun 6 false, settled_of
    (by decide +kernel), by decide +kernel⟩,
  ⟨⟨[], cabOn [] fun c => { c with run := some (loadRun 6 false), quiet := true, leaves := [{ decl := { startTarget := 1 } }, {}], active :=
                                     some 0, sw := { cur := 2 }, cxo := { state := .stable } }⟩, loadRun 6 false, settled_of
    (by decide +kernel), by decide +kernel⟩,
  ⟨⟨[], cabOn [] fun c => { c with ringBDue := [1024, 1025] }⟩, 1024, [1025], ready_of (by decide +kernel), by decide +kernel⟩⟩

theorem met_Gateway :
    (∃ (s : State) (src : RouterAddr) (port : BitVec 2) (tag : BitVec 12) (q : MemReq) (d0 : Dev), s.settled ∧ cabUp s.dev = true ∧
      s.dev.cab.quiet = false ∧ gwHeld (gather gwKey { s.dev with out := [] }) src.toNat port.toNat tag.toNat = some q ∧ takeRequest gwKey
      src.toNat port.toNat tag.toNat none (gather gwKey { s.dev with out := [] }) = (.perform q, d0) ∧ q.op = .rd ∧ d0.due = [] ∧ (gwRenew q
      d0) = d0) ∧
    (∃ (s : State) (src : RouterAddr) (port : BitVec 2) (tag : BitVec 12) (q : MemReq) (d0 : Dev) (c : Instr) (a : GwArea) (op : Nat),
      s.settled ∧ (∀ w ∈ (reqWords q).map (carriedWord q), (decodeWord w).outcome = .clean ∧ (decodeWord w).poison = false) ∧ cabUp s.dev =
      true ∧ s.dev.cab.quiet = false ∧ (c, a, op) ∈ [(Instr.sealedLoad src port tag, GwArea.cmd, 0x10), (Instr.gatewayRollback src port tag,
      GwArea.cmd, 0x11), (Instr.token src port tag, GwArea.cmd, 0x12), (Instr.exportAck src port tag, GwArea.cmd, 0x13),
      (Instr.stagingBufferWrite src port tag, GwArea.staging, 0), (Instr.setpointWrite src port tag, GwArea.setpoints, 0),
      (Instr.nonLegalParameterWrite src port tag, GwArea.nonLegal, 0), (Instr.timeAlign src port tag, GwArea.timeAlign, 0)] ∧ gwHeld (gather
      gwKey { s.dev with out := [] }) src.toNat port.toNat tag.toNat = some q ∧ gwKindOf q = (if a = .cmd then .command op else .area a) ∧
      takeRequest gwKey src.toNat port.toNat tag.toNat none (gather gwKey { s.dev with out := [] }) = (.perform q, d0) ∧ q.op = .wr ∧ gwAdmits
      a q d0 = true ∧ d0.units.gatewayDec = false ∧ (gwApply a q d0).due = []) ∧
    (∃ (q : MemReq) (t : Nat) (v : Word), t < 24 ∧ gwWrites q = [(0x50000 + 8 * t, 255, v)]) ∧
    (∃ (q : MemReq) (lo hi : Word), gwWrites q = [(0x60000, 255, lo), (0x60008, 255, hi)]) ∧
    (∃ (s : State), s.settled ∧ cabClocks s.dev = true ∧ s.dev.cab.ringRun = true ∧ gwRingSize s.dev < ringUsed s.dev + 2 * 2048) ∧
    (∃ (s : State) (dr dp : Nat), s.ready ∧ tWf epDflt s.dev.net.eps = true ∧ cabClocks s.dev = true ∧ s.dev.cab.ringRun = true ∧ netRuns
      s.dev = true ∧ ringUsed s.dev + 2 * 2048 ≤ gwRingSize s.dev ∧ decodeAddr s.dev false (ringBase s.dev + s.dev.cab.ringOff) 63 (2 ^ 32 -
      1) (2 ^ 32 - 1) = .to dr dp ∧ (getEp s.dev gwKey).requests = [] ∧ (getEp s.dev gwKey).outq = []) ∧
    (∃ (s : State) (k : Fin 2048) (n : Nat), s.settled ∧ cabClocks s.dev = true ∧ n = fld (decodeWord (tGet pairDflt s.dev.cab.status0
      k.val)).data 63 48) :=
  ⟨⟨⟨[], gwDev gwRd⟩, 34, 1, 4095, reqAt gwKey gwRd, gwTake gwRd, settled_of (by decide +kernel), by decide +kernel⟩,
  ⟨⟨[], gwDev (gwWr 0x500b8 [1, 2, 3, 4, 5, 6, 7, 8])⟩, 34, 1, 4095, reqAt gwKey (gwWr 0x500b8 [1, 2, 3, 4, 5, 6, 7, 8]), gwTake (gwWr 0x500b8
    [1, 2, 3, 4, 5, 6, 7, 8]), .setpointWrite 34 1 4095, .setpoints, 0, settled_of (by decide +kernel), words_of (by decide +kernel),
    by decide +kernel⟩,
  ⟨reqAt gwKey (gwWr 0x500B8 [1, 2, 3, 4, 5, 6, 7, 8]), 23, 0x0807060504030201, by decide +kernel⟩,
  ⟨reqAt gwKey (gwWr 0x60000 [1, 2, 3, 4, 5, 6, 7, 8, 9, 10, 0, 0, 0, 0, 0, 0]), 0x0807060504030201, 0x0A09, by decide +kernel⟩,
  ⟨⟨[], ringDev 6144 0⟩, settled_of (by decide +kernel), by decide +kernel⟩,
  ⟨⟨[], ringDev 6144 2048⟩, 4, 0, ready_of (by decide +kernel), by decide +kernel⟩,
  ⟨⟨[], cabOn [] fun c => { c with status0 := [(2047, encodeWord (BitVec.ofNat 64 (65535 * 2 ^ 48)) false)] }⟩, 2047, 65535, settled_of
    (by decide +kernel), by decide +kernel⟩⟩


theorem met_SourceLimit :
    (∃ (s : State), s.settled ∧ cabUp s.dev = true ∧ tWf tileDflt s.dev.cab.tiles = true) ∧
    (∃ (s : State) (t : Fin 24), s.settled ∧ cabUp s.dev = true ∧ (getTile s.dev t.val).out = false) :=
  ⟨⟨⟨[], cabOn [] id⟩, settled_of (by decide +kernel), by decide +kernel⟩,
  ⟨⟨[], cabOn [] id⟩, 23, settled_of (by decide +kernel), by decide +kernel⟩⟩

theorem met_UnoccupiedAddresses :
    (∃ (a : Nat), regFields a = [] ∧ (¬(a / 2 ^ 21 = 2 ∧ a % 2 ^ 20 < 0xC0000))) ∧
    (∃ (s : State) (a : BitVec 26) (b : List (Option (BitVec 8))), s.ready ∧ (∀ i, i < (a.toNat % 8 + b.length + 7) / 8 → regFields (a.toNat /
      8 * 8 + 8 * i) = [])) ∧
    (∃ (s : State) (off : BitVec 36) (b : List (Option (BitVec 8))), s.ready ∧ linkUp s.dev 0 0 = true ∧ (∀ i, i < (off.toNat % 2 ^ 26 % 8 +
      b.length + 7) / 8 → regFields (off.toNat % 2 ^ 26 / 8 * 8 + 8 * i) = [])) ∧
    (∃ (s : State) (off : BitVec 36), s.ready ∧ linkUp s.dev 0 0 = true ∧ off.toNat % 8 = 0 ∧ regFields (off.toNat % 2 ^ 26) = [] ∧
      (¬(off.toNat % 2 ^ 26 / 2 ^ 21 = 2 ∧ off.toNat % 2 ^ 20 < 0xC0000))) ∧
    (∃ (s : State) (a3 a2 a1 a0 : BitVec 8), s.ready ∧ regFields ((a3.toNat * 2 ^ 24 + a2.toNat * 2 ^ 16 + a1.toNat * 2 ^ 8 + a0.toNat) / 8 *
      8) = [] ∧ (¬((a3.toNat * 2 ^ 24 + a2.toNat * 2 ^ 16 + a1.toNat * 2 ^ 8 + a0.toNat) / 2 ^ 21 = 2 ∧ (a3.toNat * 2 ^ 24 + a2.toNat * 2 ^ 16
      + a1.toNat * 2 ^ 8 + a0.toNat) % 2 ^ 20 < 0xC0000))) :=
  ⟨⟨8, by decide +kernel⟩,
  ⟨⟨[], {}⟩, 16, List.replicate 8 (some 255), ready_of (by decide +kernel), by decide +kernel⟩,
  ⟨⟨[], { links := hostUp }⟩, 16, List.replicate 8 (some 255), ready_of (by decide +kernel), by decide +kernel⟩,
  ⟨⟨[], { links := hostUp }⟩, 16, ready_of (by decide +kernel), by decide +kernel⟩,
  ⟨⟨[], {}⟩, 0, 0, 0, 16, ready_of (by decide +kernel), by decide +kernel⟩⟩







theorem met_OneTimeMemory :
    ∃ s s' : State, step s = .next s' ∧ (getSign s.dev 3).programmed = true ∧ s.dev.bureau.keys.devKey.isSome = true :=
  ⟨⟨[.keystoreSignRevoke 3], { bureau := { keyRuns 0x0404 [4 * 2 ^ 60 + 3] with
    keys := { devKey := some [1], sign := [(3, { hash := 1, programmed := true })] } } }⟩, _, rfl, by decide +kernel, rfl⟩

theorem met_RegistersCanonical : ∃ s s' : State, tWf regReset s.dev.regs = true ∧ s.dev.regs ≠ [] ∧ step s = .next s' :=
  ⟨⟨[.hitsClr 63], setR {} (rRights 63 3) 31 0 5⟩, _, by decide +kernel, by decide +kernel, rfl⟩

theorem met_WordCodePairs : ∃ i j : Fin 80, i ≠ j := ⟨0, 79, by decide⟩

end Sys2Proof.Tests
end

section
/-! PROOFS. Flip-flops, wires and Benches at a clock edge (O29): rules for running a sector's command, what each fabric operation does
where its clock runs, and the statement assembled from them. -/

namespace Sys2Proof.Machine.FabricEdges

/-! ## What a command forgets is not read

Every command starts from the device with the last output dropped; none of these reads `out`. -/

section
variable (d : Dev) (o : List Output)

@[simp] theorem getSec_out (i : Nat) : getSec { d with out := o } i = getSec d i := rfl

@[simp] theorem getCell_out (c : Nat) : getCell { d with out := o } c = getCell d c := rfl

@[simp] theorem items_out (i : Nat) : items { d with out := o } i = items d i := rfl

@[simp] theorem fabricLive_out (i : Nat) : fabricLive { d with out := o } i = fabricLive d i := rfl

@[simp] theorem clkRuns_out (i : Nat) (c : ClkSel) : clkRuns { d with out := o } i c = clkRuns d i c := rfl

@[simp] theorem edgeAt_out (i : Nat) (c : ClkSel) : edgeAt { d with out := o } i c = edgeAt d i c := rfl

@[simp] theorem ioOwner_out (c : Nat) : ioOwner { d with out := o } c = ioOwner d c := rfl

@[simp] theorem stdMismatch_out (c std : Nat) : stdMismatch { d with out := o } c std = stdMismatch d c std := rfl

@[simp] theorem pinLevel_out (l : List Setting) (i u v rows : Nat) (via : List PinMux) (pin : Nat) (b : Bool) :
    pinLevel { d with out := o } l i u v rows via pin b = pinLevel d l i u v rows via pin b := rfl

@[simp] theorem routedBlock_out (l : List Setting) (i u v : Nat) (b : BlockIn) :
    routedBlock { d with out := o } l i u v b = routedBlock d l i u v b := rfl

@[simp] theorem routedBench_out (l : List Setting) (i col : Nat) (x : BenchIn) :
    routedBench { d with out := o } l i col x = routedBench d l i col x := rfl

end

/-! ## Which parts an operation leaves alone -/

section
variable {ps : List Part} {a t : Dev}

theorem sameBut_updSec (hp : .sectors ∈ ps) (h : sameBut ps a t) (i : Nat) (f : Sector → Sector) : sameBut ps a (updSec t i f) :=
  { h with sectors := .inl hp }

theorem sameBut_updEp (hp : .net ∈ ps) (h : sameBut ps a t) (k : Nat) (f : Endpoint → Endpoint) : sameBut ps a (updEp t k f) :=
  { h with net := .inl hp }

theorem sameBut_updCell (hp : .io ∈ ps) (h : sameBut ps a t) (c : Nat) (f : IoCell → IoCell) : sameBut ps a (updCell t c f) :=
  { h with io := .inl hp }

theorem sameBut_foldl {ι : Type} {f : Dev → ι → Dev} (hf : ∀ t x, sameBut ps a t → sameBut ps a (f t x)) (h : sameBut ps a t)
    (l : List ι) : sameBut ps a (l.foldl f t) :=
  List.foldlRecOn l f h fun t ht x _ => hf t x ht

/-- The depth that regulators take lies in the network (R271). -/
theorem sameBut_fillTokens (hp : .net ∈ ps) (h : sameBut ps a t) (i : Nat) : sameBut ps a (fillTokens t i) :=
  sameBut_foldl (fun _ _ ht => sameBut_updEp hp ht _ _) h _

/-- Registers of I/O cells under global set/reset are those of the I/O banks (R56). -/
theorem sameBut_ioGsr (hp : .io ∈ ps) (h : sameBut ps a t) (i : Nat) : sameBut ps a (ioGsr i t) :=
  sameBut_foldl (fun _ _ ht => sameBut_updCell hp ht _ _) h _

theorem sameBut_self (hp : .out ∈ ps) (a : Dev) : sameBut ps a a := { sameBut_refl ps a with out := .inl hp }

theorem getSec_of_sameBut (h : sameBut ps a t) (hp : .sectors ∉ ps) (i : Nat) : getSec t i = getSec a i := by
  simp only [getSec, h.sectors.resolve_left hp]

/-- What is left to carry out lies in `due` and `cfg`. -/
theorem settled_of_sameBut (h : sameBut ps a t) (hd : .due ∉ ps) (hc : .cfg ∉ ps) (ha : a.settled) : t.settled := by
  simpa only [Dev.settled, h.due.resolve_left hd, h.cfg.resolve_left hc] using ha

end

/-! ## Running a command of a sector or of the main side -/

section
variable {s : State} {c : Instr} {f : Dev → Dev} {ps : List Part} {P : Dev → Prop} {d : Dev}

/-- An operation that touches neither `due` nor `cfg` performs what it makes of the device. -/
theorem performs_of_run (hc : exec c s = run f s) (hs : s.ready) (he : f { s.dev with out := [] } = d) (hd : sameBut ps s.dev d)
    (hdue : .due ∉ ps) (hcfg : .cfg ∉ ps) (hP : P d) : s.performs c ps P := by
  subst he
  exact ⟨_, hc.trans (run_quiet (settled_of_sameBut hd hdue hcfg hs.2)), hd, hP⟩

/-- A row of a sector that updates one sector performs what holds wherever that sector has the new contents and every other one those
it had. -/
theorem performs_updSec {sec : Sec} {i : Nat} {g : Sector → Sector} (hc : exec c s = run (whenSec sec f) s) (hs : s.ready)
    (he : f { s.dev with out := [] } = updSec { s.dev with out := [] } i g) (hw : tWf sectorDflt s.dev.sectors = true)
    (hP : ∀ d, getSec d i = g (getSec s.dev i) → (∀ j, j ≠ i → getSec d j = getSec s.dev j) → P d) : s.performs c [.sectors] P := by
  have hup : mainUp { s.dev with out := [] } = true := hs.1
  have hget := fun j => getSec_updSec (s := { s.dev with out := [] }) hw i j g
  exact performs_of_run hc hs ((whenSec_up hup).trans he) (sameBut_updSec (by decide) (sameBut_refl _ _) i g) (by decide) (by decide)
    (hP _ ((hget i).trans (if_pos rfl)) fun j hj => (hget j).trans (if_neg hj))

/-- The device becomes what a row of a sector makes of it by an update of sectors. -/
theorem becomes_updSec {sec : Sec} {i : Nat} {g : Dev → Sector → Sector} (hc : exec c s = run (whenSec sec f) s) (hs : s.ready)
    (he : f { s.dev with out := [] } = updSec { s.dev with out := [] } i (g { s.dev with out := [] })) :
    s.becomes c fun d => updSec d i (g d) := by
  have h := hc.trans (run_sec hs (by rw [he]; exact hs.2))
  rwa [he] at h

end

/-! ## Two writes at each step of a fold -/

section
variable {α ι : Type} [DecidableEq α] {dflt : Nat → α} {k0 k1 : ι → Nat} {a b : ι → α} {k : Nat}

/-- A key that no step writes reads as before. -/
theorem tGet_foldl_tSet_pair_other (l : List ι) {t : Tbl α} (h : tWf dflt t = true) (hk : ∀ i ∈ l, k ≠ k0 i ∧ k ≠ k1 i) :
    tGet dflt (l.foldl (fun t i => tSet dflt (tSet dflt t (k0 i) (a i)) (k1 i) (b i)) t) k = tGet dflt t k := by
  induction l generalizing t with
  | nil => rfl
  | cons j l ih =>
    obtain ⟨h0, h1⟩ := hk j List.mem_cons_self
    have hw := tWf_tSet dflt (k0 j) (a j) h
    rw [List.foldl_cons, ih (tWf_tSet dflt _ _ hw) fun i hi => hk i (List.mem_cons_of_mem _ hi), tGet_tSet dflt _ _ _ hw, if_neg h1,
      tGet_tSet dflt _ _ _ h, if_neg h0]

/-- The first key of a step reads as that step wrote it, where no two steps share one. -/
theorem tGet_foldl_tSet_pair_first (hk : ∀ i j, k0 i = k0 j → i = j) (hne : ∀ i j, k0 i ≠ k1 j) {i : ι} (l : List ι) {t : Tbl α}
    (h : tWf dflt t = true) (hi : i ∈ l) :
    tGet dflt (l.foldl (fun t i => tSet dflt (tSet dflt t (k0 i) (a i)) (k1 i) (b i)) t) (k0 i) = a i := by
  induction l generalizing t with
  | nil => cases hi
  | cons j l ih =>
    have h0 := tWf_tSet dflt (k0 j) (a j) h
    have h1 := tWf_tSet dflt (k1 j) (b j) h0
    by_cases hl : i ∈ l
    · exact ih h1 hl
    · obtain rfl : i = j := (List.mem_cons.mp hi).resolve_right hl
      have hother : ∀ j ∈ l, k0 i ≠ k0 j ∧ k0 i ≠ k1 j := fun j hj => ⟨fun e => hl (hk i j e ▸ hj), hne i j⟩
      rw [List.foldl_cons, tGet_foldl_tSet_pair_other l h1 hother, tGet_tSet dflt _ _ _ h0, if_neg (hne i i), tGet_tSet dflt _ _ _ h,
        if_pos rfl]

end

/-! ## Half-blocks (R52, R55) -/

theorem edgeAt_iff {s : Dev} {i : Nat} {c : ClkSel} : edgeAt s i c = true ↔ fabricLive s i = true ∧ clkRuns s i c = true := by
  simp [edgeAt]

section
variable {l : List Setting} {ffs : Tbl Bool} {u v h : Nat} {edge ce sr : Bool} {b : BlockIn} {below : List BlockIn}

/-- An event at a half-block writes its eight pairs of flip-flops, the first of a pair by R55 from DX0 where its data input is direct. -/
theorem clockHalf_eq_foldl (l : List Setting) (ffs : Tbl Bool) (u v h : Nat) (edge ce sr : Bool) (b : BlockIn) (below : List BlockIn) :
    ∃ n0 n1 : Nat → Bool,
      clockHalf l ffs u v h edge ce sr b below =
        (List.range 8).foldl (fun t i => tSet (fun _ => false) (tSet (fun _ => false) t (ffKey u v (8 * h + i) 0) (n0 i))
          (ffKey u v (8 * h + i) 1) (n1 i)) ffs ∧
      ∀ i, (cellCfg l u v (8 * h + i)).ff0d = 2 →
        n0 i = ffNext (halfCfg l u v h).asyncSr edge (cellCfg l u v (8 * h + i)).ff0srUse sr (cellCfg l u v (8 * h + i)).ff0ceUse ce
          (cellCfg l u v (8 * h + i)).ff0sr (nth {} b.cells (8 * h + i)).dx0
          (tGet (fun _ => false) ffs (ffKey u v (8 * h + i) 0)) := by
  unfold clockHalf
  dsimp only
  refine ⟨_, _, rfl, fun i hd => ?_⟩
  simp [hd, ffData]

/-- A flip-flop whose data input is direct takes, at an event, what R55 gives for the value at its DX0. -/
theorem clockHalf_ff0_direct (hw : tWf (fun _ => false) ffs = true) {i : Nat} (hi : i < 8) (hd : (cellCfg l u v (8 * h + i)).ff0d = 2) :
    tGet (fun _ => false) (clockHalf l ffs u v h edge ce sr b below) (ffKey u v (8 * h + i) 0) =
      ffNext (halfCfg l u v h).asyncSr edge (cellCfg l u v (8 * h + i)).ff0srUse sr (cellCfg l u v (8 * h + i)).ff0ceUse ce
        (cellCfg l u v (8 * h + i)).ff0sr (nth {} b.cells (8 * h + i)).dx0
        (tGet (fun _ => false) ffs (ffKey u v (8 * h + i) 0)) := by
  obtain ⟨n0, n1, heq, hn0⟩ := clockHalf_eq_foldl l ffs u v h edge ce sr b below
  rw [heq, ← hn0 i hd]
  exact tGet_foldl_tSet_pair_first (k0 := fun i => ffKey u v (8 * h + i) 0) (fun i j e => by simp only [ffKey] at e; omega)
    (fun i j e => by simp only [ffKey] at e; omega) _ hw (List.mem_range.mpr hi)

/-- An event at a half-block changes no flip-flop of another one. -/
theorem clockHalf_other (hw : tWf (fun _ => false) ffs = true) {k : Nat} (hk : k / 16 ≠ (u * 96 + v) * 2 + h) :
    tGet (fun _ => false) (clockHalf l ffs u v h edge ce sr b below) k = tGet (fun _ => false) ffs k := by
  obtain ⟨n0, n1, heq, -⟩ := clockHalf_eq_foldl l ffs u v h edge ce sr b below
  rw [heq]
  refine tGet_foldl_tSet_pair_other _ hw fun i hi => ?_
  have := List.mem_range.mp hi
  simp only [ffKey]
  omega

end

/-- At an active edge a flip-flop takes its set/reset value, else its data where enabled, else keeps its value (R55). -/
theorem ffNext_edge (async srUse sr ceUse ce srval d q : Bool) :
    ffNext async true srUse sr ceUse ce srval d q = if srUse && sr then srval else if !ceUse || ce then d else q := by
  simp [ffNext]

/-- DX0 of a cell is what its multiplexer selects, where the block's multiplexers are given (R66). -/
theorem routedBlock_dx0 (s : Dev) (l : List Setting) (i u v : Nat) (b : BlockIn) {c : Nat} (hc : c < 16) :
    (nth {} (routedBlock s l i u v b).cells c).dx0 = pinLevel s l i u v 1 b.via (8 * c + 6) (nth {} b.cells c).dx0 := by
  unfold routedBlock
  split
  · have hvia : b.via = [] := List.isEmpty_iff.mp ‹_›
    simp [pinLevel, hvia]
  · simp [blockInputs, nth, hc]

/-- An edge at a half-block of a logic column whose clock runs is an event at its flip-flops. -/
theorem halfEdge_of_edgeAt {s : Dev} (o : List Output) {i u v h : Nat} {ce sr : Bool} {b : BlockIn} {below : List BlockIn}
    (he : edgeAt s i (halfCfg (items s i) u v h).clk = true) (hu : isLogicColumn u = true) :
    halfEdge i u v h true ce sr b below { s with out := o } = updSec { s with out := o } i fun c => { c with
      ffs := clockHalf (items s i) c.ffs u v h true (pinLevel s (items s i) i u v 1 b.via (130 + 2 * h) ce)
        (pinLevel s (items s i) i u v 1 b.via (131 + 2 * h) sr) (routedBlock s (items s i) i u v b)
        (below.zipIdx.map fun x => routedBlock s (items s i) i u (v - 1 - x.2) x.1) } := by
  obtain ⟨hlive, hclk⟩ := edgeAt_iff.mp he
  simp [halfEdge, hlive, hu, hclk]

/-! ## Lanes and I/O cells (R70, R474) -/

theorem laneEdge_of_edgeAt {s : Dev} {i col lane : Nat} {index : BitVec 6} {via : List PinMux}
    (hdyn : (laneCfgOf (items s i) col lane).dynamic = true) (he : edgeAt s i (laneCfgOf (items s i) col lane).clk = true) :
    laneEdge i col lane index via s = updSec s i fun c => { c with
      laneIdx := tSet (fun _ => 63) c.laneIdx (2 * col + lane) (routedIndex s (items s i) i col lane via index).toNat } := by
  simp [laneEdge, hdyn, he]

/-- In the single-rate modes with static taps a rising edge takes pad and data and leaves the taps. -/
theorem cellEdge_singleRate {g : IoCfg} {e : IoEdge} {pad : Bool} {x : IoCell} (he : e.rising = true) (hin : g.inMode = 1)
    (hout : g.outMode = 1) (hdly : g.dlyDyn = false) :
    cellEdge g e pad x = { x with q1 := pad, d1 := e.d1, oe := if g.oeMode then e.oe else x.oe } := by
  cases hoe : g.oeMode <;> simp [cellEdge, he, hin, hout, hdly, hoe]

theorem ioEdge_of_edgeAt {s : Dev} (o : List Output) {c i : Nat} {e : IoEdge} (ho : ioOwner s c = some i)
    (he : edgeAt s i (cellFields (items s i) c).clk = true) :
    ioEdge c e { s with out := o } = updCell { s with out := o } c (cellEdge (cellFields (items s i) c) e
      (e.pad && knownStd c (cellFields (items s i) c).std.toNat && !stdMismatch s c (cellFields (items s i) c).std.toNat)) := by
  simp [ioEdge, ho, he]

/-! ## Wires (R61, R66) -/

theorem driveWires_single {s : Dev} {i : Nat} {w : Wire} {ls : List Level} (hi : i ≠ 64) (hw : wireExists w = true)
    (hv : (getSec s i).vcc = true) (hst : (getSec s i).state ≠ .initialLoad) :
    driveWires i [{ wire := w, inputs := ls }] s = updSec s i fun c => { c with
      wires := tSet (fun _ => false) c.wires (wireKey w)
        (muxOut (ls.map (levelAt s i w.u.val w.v.val 1)) (wireSelect (items s i) w)) } := by
  simp [driveWires, hi, hw, hv, hst]

/-! ## Release of global set/reset (R56, R57) -/

theorem gsrComplete_due {s : Dev} (o : List Output) {i : Nat} (h : (getSec s i).gsrDue = true) :
    gsrComplete i { s with out := o } = fillTokens (ioGsr i (updSec { s with out := o } i fun c =>
      { c with gsr := false, gsrDue := false, clocks := true, ffs := initFfs (items s i) })) i := by
  simp [gsrComplete, gsrRelease, h]

/-- The registers of I/O cells and the regulators' depth are no part of a sector. -/
theorem getSec_fillTokens_ioGsr (s : Dev) (i j : Nat) : getSec (fillTokens (ioGsr i s) i) j = getSec s j :=
  getSec_of_sameBut (ps := [.io, .net, .out])
    (sameBut_fillTokens (by decide) (sameBut_ioGsr (by decide) (sameBut_self (by decide) s) i) i) (by decide) j

/-! ## Benches (R75, R77 to R82, R90, R91) -/

/-- DUAL mode with operands from routing, no pre-adders and each accumulator adding to itself. -/
structure PlainDual (g : BenchCfg) : Prop where
  mode : g.mode = .dual
  preOp0 : g.preOp0 = 0
  preOp1 : g.preOp1 = 0
  tsrc : g.tsrc = 0
  accIn0 : g.accIn0 = 0
  accIn1 : g.accIn1 = 0
  cascadeOpd : g.cascadeOpd = false

/-- What such a Bench captures of its inputs. -/
def capturePlain (x : BenchIn) : BenchCap :=
  { a := (List.range 4).map (nth 0 x.a), b := (List.range 4).map (nth 0 x.b), d0 := x.d0, d1 := x.d1, c := x.c
    clr0 := x.clr0, clr1 := x.clr1, pA := List.replicate 4 false, pB := List.replicate 4 false }

@[simp] theorem routedBench_site (s : Dev) (l : List Setting) (i col : Nat) (x : BenchIn) : (routedBench s l i col x).site = x.site := by
  unfold routedBench
  split <;> rfl

/-- An edge of one Bench whose clock runs replaces that Bench. -/
theorem benchCapture_single {s : Dev} (o : List Output) {i col : Nat} {x : BenchIn}
    (he : edgeAt s i (benchCfg (items s i) col x.site.val).clk = true) :
    benchCapture i col [x] { s with out := o } = updSec { s with out := o } i fun c => { c with
      benches := tSet benchDflt c.benches (32 * col + x.site.val)
        (benchStep (items s i) (getSec s i) col (routedBench s (items s i) i col x)) } := by
  simp [benchCapture, he]

theorem benchRst_of_edgeAt {s : Dev} {i col site : Nat} (he : edgeAt s i (benchCfg (items s i) col site).clk = true) :
    benchRst i col site s = updSec s i fun c => { c with benches := tSet benchDflt c.benches (32 * col + site) {} } := by
  simp [benchRst, he]

/-- Taking an integer to a width by its two's complement value changes nothing modulo that width. -/
theorem ofInt_sint_wrap (v : Int) : BitVec.ofInt 64 (sint 64 (wrap 64 v)) = BitVec.ofInt 64 v := by
  apply BitVec.eq_of_toNat_eq
  simp only [BitVec.toNat_ofInt, sint, wrap]
  omega

theorem outputsFor_acc (g : BenchCfg) (s : Bench) (e : BenchCap) :
    (outputsFor g s e).acc0 = s.acc0 ∧ (outputsFor g s e).acc1 = s.acc1 := by
  unfold outputsFor
  split <;> exact ⟨rfl, rfl⟩

section
variable {g : BenchCfg} (hg : PlainDual g)
include hg

theorem captureOperands_plain (x : BenchIn) (t : Word) (tp : Bool) (casc : List (BitVec 20 × Bool)) :
    captureOperands g x t tp casc = capturePlain x := by
  simp [captureOperands, capturePlain, effTsrc, selectOperand, hg.mode, hg.tsrc, hg.cascadeOpd, List.map_const']

/-- The sums of products that DUAL mode forms (R79). -/
theorem benchSums_plain (e : BenchCap) :
    benchSums g e = ((nth 0 e.a 0).toInt * (nth 0 e.b 0).toInt + (nth 0 e.a 1).toInt * (nth 0 e.b 1).toInt,
      (nth 0 e.a 2).toInt * (nth 0 e.b 2).toInt + (nth 0 e.a 3).toInt * (nth 0 e.b 3).toInt) := by
  simp [benchSums, operandA, operandB, preAdd, hg.mode, hg.preOp0, hg.preOp1]

/-- Without CLR each accumulator adds its sum to itself, wrapping (R81). -/
theorem accumulateStage_plain (s below : Bench) (e : BenchCap) (h0 : e.clr0 = false) (h1 : e.clr1 = false) :
    (accumulateStage g s below e).acc0 = s.acc0 + BitVec.ofInt 64 (benchSums g e).1 ∧
    (accumulateStage g s below e).acc1 = s.acc1 + BitVec.ofInt 64 (benchSums g e).2 := by
  simp [accumulateStage, accumulate, hg.mode, hg.accIn0, hg.accIn1, h0, h1, ofInt_sint_wrap, BitVec.ofInt_add]

/-- An enabled edge accumulates the capture of three edges before (R91). -/
theorem benchEdge_plain (s below : Bench) (x : BenchCap) (h0 : (nth {} s.pipe 2).clr0 = false) (h1 : (nth {} s.pipe 2).clr1 = false)
    (hp : s.pipe.length ≤ 6) :
    (benchEdge g s below x).acc0 = s.acc0 + BitVec.ofInt 64 (benchSums g (nth {} s.pipe 2)).1 ∧
    (benchEdge g s below x).acc1 = s.acc1 + BitVec.ofInt 64 (benchSums g (nth {} s.pipe 2)).2 ∧
    (benchEdge g s below x).pipe = x :: s.pipe := by
  have hL : benchLatency g = 4 := by simp [benchLatency, hg.mode, hg.preOp0, hg.preOp1]
  have htake : (x :: s.pipe).take 7 = x :: s.pipe := List.take_of_length_le (by simp; omega)
  have hnth : nth {} (x :: s.pipe) (4 - 1) = nth {} s.pipe 2 := rfl
  obtain ⟨ho0, ho1⟩ := outputsFor_acc g s (nth {} (x :: s.pipe) 4)
  obtain ⟨ha0, ha1⟩ := accumulateStage_plain hg (outputsFor g s (nth {} (x :: s.pipe) 4)) below (nth {} s.pipe 2) h0 h1
  simp only [benchEdge, hL, htake, hnth]
  exact ⟨by rw [ha0, ho0], by rw [ha1, ho1], trivial⟩

end

/-- A plain Bench at an edge, whatever its column's lanes and the Bench below hold: it captures its operands and accumulates the products
of its third capture `e`. -/
theorem benchStep_plain {l : List Setting} {c : Sector} {col site : Nat} {x : BenchIn} {e : BenchCap} (hx : x.site.val = site)
    (hg : PlainDual (benchCfg l col site)) (he : nth {} (getBench c col site).pipe 2 = e) (h0 : e.clr0 = false) (h1 : e.clr1 = false)
    (hp : (getBench c col site).pipe.length ≤ 6) :
    (benchStep l c col x).acc0 = (getBench c col site).acc0 +
      BitVec.ofInt 64 ((nth 0 e.a 0).toInt * (nth 0 e.b 0).toInt + (nth 0 e.a 1).toInt * (nth 0 e.b 1).toInt) ∧
    (benchStep l c col x).acc1 = (getBench c col site).acc1 +
      BitVec.ofInt 64 ((nth 0 e.a 2).toInt * (nth 0 e.b 2).toInt + (nth 0 e.a 3).toInt * (nth 0 e.b 3).toInt) ∧
    (benchStep l c col x).pipe = capturePlain x :: (getBench c col site).pipe := by
  subst hx he
  have hedge := fun below => benchEdge_plain hg (getBench c col x.site.val) below (capturePlain x) h0 h1 hp
  simp only [benchSums_plain hg] at hedge
  simp only [benchStep, captureOperands_plain hg]
  exact hedge _

end Sys2Proof.Machine.FabricEdges
end

section
open Sys2Proof Sys2Proof.Machine Sys2Proof.Machine.FabricEdges

/-- Settles O29: each clause runs one command by what its operation does where the clock runs. -/
theorem flipFlopsAndBenches : Obligations.FlipFlopsAndBenches := by
  unfold Obligations.FlipFlopsAndBenches
  refine ⟨?halfBlock, ?lane, ?ioCell, ?wire, ?wireEnd, ?setReset, ?benchCapture, ?benchRst⟩
  case halfBlock =>
    intro s sec u v h ce sr b below i hs hsecs hffs hclk hu hd
    refine performs_updSec (sec := sec) rfl hs (halfEdge_of_edgeAt [] hclk hu) hsecs fun d hnew hold => ⟨?_, fun k hk => ?_, hold⟩
    · have hc : 8 * h.val + i.val < 16 := by omega
      rw [hnew, clockHalf_ff0_direct hffs i.isLt hd, ffNext_edge, routedBlock_dx0 _ _ _ _ _ _ hc]
    · rw [hnew, clockHalf_other hffs hk]
  case lane =>
    intro s sec col lane index via hs hdyn hclk
    exact becomes_updSec (sec := sec) rfl hs (laneEdge_of_edgeAt hdyn hclk)
  case ioCell =>
    intro s c i e hs ho hrise hclk hin hout hdly hcells
    have hup : mainUp { s.dev with out := [] } = true := hs.1
    refine performs_of_run rfl hs ((whenMain_up hup).trans (ioEdge_of_edgeAt [] ho hclk))
      (sameBut_updCell (by decide) (sameBut_refl _ _) _ _) (by decide) (by decide) ?_
    have hcell := fun n f => getCell_updCell (s := { s.dev with out := [] }) hcells c.val n f
    simp only [hcell, getCell_out, cellEdge_singleRate hrise hin hout hdly, if_true]
    exact ⟨trivial, trivial, fun hk hm => by simp [hk, hm], fun n hn => if_neg hn⟩
  case wire =>
    intro s sec w ls hs hw hv hst
    exact becomes_updSec (sec := sec.castLT (Nat.lt_trans sec.isLt (by decide))) rfl hs
      (driveWires_single (Nat.ne_of_lt sec.isLt) hw hv hst)
  case wireEnd =>
    exact fun i w => ⟨(wireEnd_within w i.isLt).2.1, fun h => wireEnd_sector h i.val⟩
  case setReset =>
    intro s sec hs hsecs hdue
    have hup : mainUp { s.dev with out := [] } = true := hs.1
    refine performs_of_run rfl hs ((whenSec_up (i := sec) hup).trans (gsrComplete_due [] hdue))
      (sameBut_fillTokens (by decide) (sameBut_ioGsr (by decide) (sameBut_updSec (by decide) (sameBut_refl _ _) _ _) _) _)
      (by decide) (by decide) ?_
    have hsec := fun j f => getSec_updSec (s := { s.dev with out := [] }) hsecs sec.val j f
    simp only [getSec_fillTokens_ioGsr, hsec, getSec_out, if_true]
    exact ⟨trivial, fun j hj => if_neg hj⟩
  case benchCapture =>
    intro s sec col x g e hs hsecs hbenches hg hclk hmode hp0 hp1 htsrc ha0 ha1 hcasc he hclr0 hclr1 hlen
    subst hg he
    have hplain : PlainDual (benchCfg (items s.dev sec.val) col.val x.site.val) := ⟨hmode, hp0, hp1, htsrc, ha0, ha1, hcasc⟩
    refine performs_updSec (sec := sec) rfl hs (benchCapture_single [] hclk) hsecs fun d hnew hold => ⟨?_, fun k hk => ?_, hold⟩
    · intro o n y
      have hn : n = benchStep (items s.dev sec.val) (getSec s.dev sec.val) col.val y := by
        simp only [n, getBench, hnew, tGet_tSet benchDflt _ _ _ hbenches, if_true, y]
      rw [hn]
      exact benchStep_plain (congrArg Fin.val (routedBench_site ..)) hplain rfl hclr0 hclr1 hlen
    · rw [hnew, tGet_tSet benchDflt _ _ _ hbenches, if_neg hk]
  case benchRst =>
    intro s sec col site hs hclk
    exact becomes_updSec (sec := sec) rfl hs (benchRst_of_edgeAt hclk)

end

section
/-! PROOFS. Drawers and Runners (O30, O31): rules for running an operation of one Drawer, what a raw port does with a whole row, what
initialisation, the background pass and RST do to a Drawer, and the statements settled from them. -/

namespace Sys2Proof.Machine.DrawerAccess

open Sys2Proof.Machine.FabricEdges

/-! ## One Drawer of a sector -/

/-- A sector with one Drawer changed. -/
def updDrawer (n : Nat) (g : Drawer → Drawer) (c : Sector) : Sector := { c with drawers := tUpd drawerDflt c.drawers n g }

theorem getDrawer_updDrawer {c : Sector} (hw : tWf drawerDflt c.drawers = true) (n k : Nat) (g : Drawer → Drawer) :
    getDrawer (updDrawer n g c) k = if k = n then g (getDrawer c n) else getDrawer c k :=
  tGet_tUpd drawerDflt n k g hw

/-- An operation that reports nothing changes its Drawer alone. -/
theorem drawerOp_quiet {s : Dev} {i n : Nat} {f : Drawer → Drawer × List DrawerNote} {g : Drawer → Drawer}
    (h : f (getDrawer (getSec s i) n) = (g (getDrawer (getSec s i) n), [])) : drawerOp i n f s = updSec s i (updDrawer n g) := by
  simp only [drawerOp, h, List.foldl_nil]
  rfl

section
variable {s : State} {c : Instr} {sec : Sec} {n : Nat} {f : Dev → Dev} {e : Drawer → Drawer × List DrawerNote} {g : Drawer → Drawer}

/-- A row of a sector that performs a Drawer operation without a report becomes the device with that Drawer changed. -/
theorem becomes_updDrawer (hc : exec c s = run (whenSec sec f) s) (hs : s.ready)
    (hf : f { s.dev with out := [] } = drawerOp sec.val n e { s.dev with out := [] })
    (he : e (getDrawer (getSec s.dev sec.val) n) = (g (getDrawer (getSec s.dev sec.val) n), [])) :
    s.becomes c fun d => updSec d sec.val (updDrawer n g) :=
  becomes_updSec (g := fun _ => updDrawer n g) hc hs (hf.trans (drawerOp_quiet he))

/-- Such a row performs what holds wherever that Drawer is `x` and every other Drawer and sector is as before. -/
theorem performs_updDrawer {x : Drawer} {P : Dev → Prop} (hc : exec c s = run (whenSec sec f) s) (hs : s.ready)
    (hf : f { s.dev with out := [] } = drawerOp sec.val n e { s.dev with out := [] })
    (he : e (getDrawer (getSec s.dev sec.val) n) = (x, []))
    (hsecs : tWf sectorDflt s.dev.sectors = true) (hdrs : tWf drawerDflt (getSec s.dev sec.val).drawers = true)
    (hP : ∀ d, getDrawer (getSec d sec.val) n = x →
      (∀ k, k ≠ n → getDrawer (getSec d sec.val) k = getDrawer (getSec s.dev sec.val) k) →
      (∀ j, j ≠ sec.val → getSec d j = getSec s.dev j) → P d) : s.performs c [.sectors] P :=
  performs_updSec hc hs (hf.trans (drawerOp_quiet (g := fun _ => x) he)) hsecs fun d hnew hold =>
    hP d (by rw [hnew, getDrawer_updDrawer hdrs, if_pos rfl]) (fun k hk => by rw [hnew, getDrawer_updDrawer hdrs, if_neg hk]) hold

end

/-! ## Whole rows in raw mode (R95 to R99) -/

/-- A Drawer without a Runner whose port A takes raw rows of 80 bits from routing. -/
structure RawRows (g : DrawerCfg) : Prop where
  runner : g.runner = .none
  raw : g.raw = true
  widthA : g.widthA = 0
  wsrcA : g.wsrcA = 0

/-- A port of 80 bits has one entry in each row. -/
theorem entryAt_row (a : Nat) : entryAt 80 a = (a % 1024, 0) := by
  simp [entryAt, Nat.mod_one]

/-- The entry of 80 bits is the row. -/
theorem entryGet_row (row : PWord) : entryGet 80 0 row = row := by
  have hrow := row.isLt
  apply BitVec.eq_of_toNat_eq
  simp only [entryGet, fld, nbits, BitVec.toNat_ofNat, Nat.shiftRight_zero]
  omega

/-- Copying a field from `v` gives the bits of `v` there and leaves the others. -/
theorem testBit_putFld_fld {n : Nat} (w v : BitVec n) (hi lo : Nat) {i : Nat} (h : i < n) :
    (putFld w hi lo (fld v hi lo)).toNat.testBit i = if lo ≤ i ∧ i ≤ hi then v.toNat.testBit i else w.toNat.testBit i := by
  rw [putFld_toNat_testBit, decide_eq_true h, Bool.true_and, fld, testBit_nbits]
  split
  · have hfield : i - lo < hi + 1 - lo := by omega
    have hbit : lo + (i - lo) = i := by omega
    rw [decide_eq_true hfield, hbit, Bool.true_and]
  · rfl

/-- A write that enables all four groups replaces the row: each of its bits lies in one of them. -/
theorem entryPut_row (din row : PWord) : entryPut 80 0 15 din row = din := by
  have hgroups : entryPut 80 0 15 din row =
      putFld (putFld (putFld (putFld row 19 0 (fld din 19 0)) 39 20 (fld din 39 20)) 59 40 (fld din 59 40)) 79 60 (fld din 79 60) := rfl
  apply BitVec.eq_of_getLsbD_eq
  intro i hi
  simp only [BitVec.getLsbD, hgroups, testBit_putFld_fld _ _ _ _ hi]
  by_cases h3 : 60 ≤ i ∧ i ≤ 79
  · rw [if_pos h3]
  · rw [if_neg h3]
    by_cases h2 : 40 ≤ i ∧ i ≤ 59
    · rw [if_pos h2]
    · rw [if_neg h2]
      by_cases h1 : 20 ≤ i ∧ i ≤ 39
      · rw [if_pos h1]
      · have h0 : 0 ≤ i ∧ i ≤ 19 := by omega
        rw [if_neg h1, if_pos h0]

/-- In raw mode an output stage is presented as it stands, without a report (R104). -/
theorem presentStage_raw (portB aware : Bool) (o : PortOut) (st : ReadStage) :
    presentStage portB aware true o st = ({ o with dout := st.data, poison := false, valid := st.valid, stage := none }, []) := by
  simp [presentStage]

section
variable {g : DrawerCfg} (hg : RawRows g)
include hg

theorem effWidth_rawRows : effWidth g false = 80 := by
  simp [effWidth, portWidth, hg.raw, hg.widthA]

theorem portRowIndex_rawRows (p : PortIn) : portRowIndex g false p = p.addr.toNat % 1024 := by
  rw [portRowIndex, effWidth_rawRows hg, entryAt_row]

/-- A whole-row write leaves its data in the row. -/
theorem portRow_rawRows {p : PortIn} (hwe : p.we = 15) (old : PWord) : portRow g false p old = p.din := by
  simp only [portRow, hg.raw, if_true, effWidth_rawRows hg, entryAt_row, hwe, entryPut_row]

theorem readRow_rawRows (addr r : Nat) (row : PWord) (valid : Bool) :
    readRow g false addr r row valid = ({ data := row, poison := false, row := r, valid }, []) := by
  simp only [readRow, hg.raw, if_true, effWidth_rawRows hg, entryAt_row, entryGet_row]

/-- An edge of a raw port reports nothing. -/
theorem readPortEdge_rawRows_none (aware : Bool) (o : PortOut) : (readPortEdge g false aware o none).2 = [] := by
  unfold readPortEdge
  cases o.stage with
  | none => rfl
  | some st => simp only [hg.raw, presentStage_raw]

/-- Without the output register the word read appears at its own edge (R99). -/
theorem readPortEdge_rawRows_read (hreg : g.outReg = false) {aware : Bool} {o : PortOut} (ho : o.stage = none) (st : ReadStage) :
    readPortEdge g false aware o (some st) =
      ({ o with dout := st.data, poison := false, valid := st.valid, stage := none }, []) := by
  have hlat : readLatency g = 1 := by simp [readLatency, hg.raw, hreg]
  simp only [readPortEdge, ho, hlat, if_true, hg.raw, presentStage_raw, List.append_nil]

/-- A whole-row write in the mode that reads nothing stores the row (R97, R98, R100). -/
theorem onePort_rawRows_write (hmode : g.writeModeA = 2) {p : PortIn} (hen : p.en = true) (hwe : p.we = 15) (x : Drawer) :
    onePort g false p x =
      (rowPut { x with a := (readPortEdge g false g.awareA x.a none).1 } (p.addr.toNat % 1024) p.din, []) := by
  have hwrites : portWrites g p = true := by simp [portWrites, hen, hg.raw, hwe]
  have hread : ∀ pre, portRead g false p pre = (none, []) := by simp [portRead, hen, hwrites, hmode]
  simp [onePort, hread, hwrites, portRowIndex_rawRows hg, portRow_rawRows hg hwe, readPortEdge_rawRows_none hg]

/-- A read without the output register shows the row and stores nothing (R97, R99). -/
theorem onePort_rawRows_read (hreg : g.outReg = false) {p : PortIn} (hen : p.en = true) (hwe : p.we = 0) {x : Drawer}
    (hx : x.a.stage = none) :
    onePort g false p x =
      ({ x with a := { x.a with dout := rowGet x (p.addr.toNat % 1024), poison := false, valid := false, stage := none } }, []) := by
  have hwrites : portWrites g p = false := by simp [portWrites, hg.raw, hwe]
  have hread : ∀ pre, portRead g false p pre =
      (some { data := pre, poison := false, row := p.addr.toNat % 1024, valid := false }, []) := by
    simp [portRead, hen, hwrites, readRow_rawRows hg, portRowIndex_rawRows hg]
  simp [onePort, hread, hwrites, portRowIndex_rawRows hg, readPortEdge_rawRows_read hg hreg hx]

end

/-- A row reads as it was last stored. -/
theorem rowGet_rowPut {x : Drawer} (hw : tWf (fun _ => 0) x.arr = true) (r k : Nat) (v : PWord) :
    rowGet (rowPut x r v) k = if k = r then v else rowGet x k :=
  tGet_tSet _ r k v hw

/-- Write data from routing is what the port presents (R95). -/
theorem portSignals_routing (l : List Setting) (c : Sector) (n : Nat) (p : PortIn) : portSignals l c n 0#2 p = p := rfl

/-- An access of port A alone is that port's access with its routed inputs. -/
theorem drawerPortAccess_portA {s : Dev} {i n : Nat} {p q : PortIn} (hg : RawRows (drawerCfg (items s i) n))
    (hq : q = routedPort s (items s i) i n false p) (hclk : edgeAt s i (drawerCfg (items s i) n).clkA = true) :
    drawerPortAccess i n (some p) none false false s = drawerOp i n (drawerAccess (drawerCfg (items s i) n) (some q) none false none) s := by
  simp [drawerPortAccess, hg.runner, hclk, hg.wsrcA, portSignals_routing, ← hq]

theorem drawerAccess_portA {x : Drawer} (hx : x.initing = false) (g : DrawerCfg) (p : PortIn) :
    drawerAccess g (some p) none false none x = onePort g false p x := by
  simp [drawerAccess, hx]

/-! ## Initialisation and the background pass (R108, R109, R119, R120) -/

/-- The last edge of initialisation leaves the leaf's content, where RST is 0. -/
theorem initComplete_of_initing {x : Drawer} (hi : x.initing = true) (hr : x.rst = false) (g : DrawerCfg) (rows : List PWord) :
    initComplete g rows x = { x with arr := initArray rows g.raw, initing := false } := by
  simp [initComplete, hi, hr]

@[simp] theorem regionOf_updSec (s : Dev) (i j : Nat) (f : Sector → Sector) : regionOf (updSec s i f) j = regionOf s j := rfl

/-- In a sector of no region the end of initialisation concerns its Drawer alone. -/
theorem drawerInitDone_of_initClock {s : Dev} {i n : Nat}
    (hlive : (fabricLive s i || ((getSec s i).vcc && decide (i < 64))) = true)
    (hclk : initClock s i (drawerCfg (items s i) n) = true) (hreg : regionOf s i = none) :
    drawerInitDone i n s =
      drawerOp i n (fun x => (initComplete (drawerCfg (items s i) n) (drawerRows s i n) x, [])) s := by
  have hend : drawerOp i n (fun x => (initEnd s i n x, [])) s =
      updSec s i (updDrawer n (initComplete (drawerCfg (items s i) n) (drawerRows s i n))) :=
    drawerOp_quiet (by simp [initEnd, hclk])
  simp [drawerInitDone, hlive, hend, hreg, drawerOp_quiet]

theorem passOp_of_edgeAt {s : Dev} {i n : Nat} (ph : PassPhase)
    (hclk : edgeAt s i (if (drawerCfg (items s i) n).runner = .single then (drawerCfg (items s i) n).clkA
      else (drawerCfg (items s i) n).clkB) = true) :
    passOp i n ph s = drawerOp i n (passAttempt (drawerCfg (items s i) n) ph) s := by
  simp [passOp, hclk]

/-- An attempt that reads a clean row goes on to the next one. -/
theorem passAttempt_read_clean {g : DrawerCfg} {x : Drawer} (hruns : passRuns g x = true) (hpend : x.passPend = none)
    (hclean : (decodeWord (rowGet x x.passRow)).outcome = .clean) :
    passAttempt g .read x = ({ x with passRow := (x.passRow + 1) % 1024 }, []) := by
  simp [passAttempt, hruns, hpend, hclean]

/-- A write-back stores the word that waits. -/
theorem passAttempt_writeBack {g : DrawerCfg} {x : Drawer} (hruns : passRuns g x = true) {r : Nat} {v : PWord}
    (hpend : x.passPend = some (r, v)) :
    passAttempt g .writeBack x = ({ x with arr := tSet (fun _ => 0) x.arr r v, passPend := none }, []) := by
  simp [passAttempt, hruns, hpend]

/-! ## RST during initialisation (R109, R117) -/

/-- While initialisation runs, a rise of RST is only remembered: the Runner holds its state. -/
theorem runnerRst_rise_of_initing {x : Drawer} (hi : x.initing = true) (g : DrawerCfg) :
    runnerRst g .rise x = { x with rst := true } := by
  simp [runnerRst, hi]

theorem queueRstOp_rise {s : Dev} {i n : Nat} (hr : (drawerCfg (items s i) n).runner ≠ .none)
    (hlive : fabricLive s i = true) :
    queueRstOp i n .rise s =
      drawerOp i n (fun x => (runnerRst (drawerCfg (items s i) n) .rise x, [])) s := by
  simp [queueRstOp, hr, hlive]

/-- A dual-clock queue in S63 with one word written, while its Drawer initialises. -/
def initialisingQueue : State :=
  { dev := {
      sectors := [(63, { state := .active, gsr := false, clocks := true, fresh := false
                         drawers := [(127, { initing := true, wp := 1 })] })]
      cfg := { frames := [(frameKey 63 0 0, { meaning := [.drawer 127 { runner := .dual }] })] } } }

theorem initialisingQueue_ready : initialisingQueue.ready := ⟨by decide, rfl, by decide⟩

/-- RST rises at that queue and its write pointer stays. -/
theorem initialisingQueue_rise :
    initialisingQueue.becomes (.queueRst 63 127 .rise) fun d => updSec d 63 (updDrawer 127 fun x => { x with rst := true }) :=
  becomes_updDrawer (sec := 63) rfl initialisingQueue_ready (queueRstOp_rise (by decide) (by decide))
    (congrArg (·, []) (runnerRst_rise_of_initing (by decide) _))

end Sys2Proof.Machine.DrawerAccess
end

section
open Sys2Proof Sys2Proof.Machine Sys2Proof.Machine.FabricEdges Sys2Proof.Machine.DrawerAccess

/-- Settles O30: each clause runs one Drawer operation that reports nothing. -/
theorem drawerAccesses : Obligations.DrawerAccesses := by
  unfold Obligations.DrawerAccesses
  refine ⟨?rawWrite, ?rawRead, ?initComplete, ?passRead, ?passWriteBack⟩
  case rawWrite =>
    intro s sec dr p q g hs hsecs hdrs harr hg hrun hraw hwidth hmode hsrc hq hclk hinit hen hwe
    subst hg
    have hrows : RawRows (drawerCfg (items s.dev sec.val) dr.val) := ⟨hrun, hraw, hwidth, hsrc⟩
    refine performs_updDrawer (sec := sec) rfl hs (drawerPortAccess_portA hrows hq hclk)
      ((drawerAccess_portA hinit _ q).trans (onePort_rawRows_write hrows hmode hen hwe _)) hsecs hdrs
      fun d hnew hdr hsec => ?_
    have hrow : ∀ r, rowGet (getDrawer (getSec d sec.val) dr.val) r =
        if r = q.addr.toNat % 1024 then q.din else rowGet (getDrawer (getSec s.dev sec.val) dr.val) r := fun r => by
      rw [hnew]
      exact rowGet_rowPut harr _ r _
    exact ⟨(hrow _).trans (if_pos rfl), fun r hr => (hrow r).trans (if_neg hr), hdr, hsec⟩
  case rawRead =>
    intro s sec dr p q g hs hsecs hdrs hq hg hrun hraw hreg hwidth hsrc hclk hinit hstage hen hwe
    subst hg
    have hrows : RawRows (drawerCfg (items s.dev sec.val) dr.val) := ⟨hrun, hraw, hwidth, hsrc⟩
    refine performs_updDrawer (sec := sec) rfl hs (drawerPortAccess_portA hrows hq hclk)
      ((drawerAccess_portA hinit _ q).trans (onePort_rawRows_read hrows hreg hen hwe hstage)) hsecs hdrs
      fun d hnew _ _ => ?_
    rw [hnew]
    exact ⟨rfl, rfl⟩
  case initComplete =>
    intro s sec dr hs hlive hclk hrst hreg hinit
    exact becomes_updDrawer (sec := sec) rfl hs (drawerInitDone_of_initClock hlive hclk hreg)
      (congrArg (·, []) (initComplete_of_initing hinit hrst _ _))
  case passRead =>
    intro s sec dr g hs hg hruns hclk hpend hclean
    subst hg
    exact becomes_updDrawer (sec := sec) rfl hs (passOp_of_edgeAt .read hclk) (passAttempt_read_clean hruns hpend hclean)
  case passWriteBack =>
    intro s sec dr g r v hs hg hruns hclk hpend
    subst hg
    exact becomes_updDrawer (sec := sec) rfl hs (passOp_of_edgeAt .writeBack hclk) (passAttempt_writeBack hruns hpend)

/-- Refutes O31: "RST clears" does not ask that initialisation has ended. In `initialisingQueue` RST rises while initialisation runs, the
Runner holds its state (R109), and the write pointer stays at 1. -/
theorem not_runnerQueues : ¬ Obligations.RunnerQueues := by
  unfold Obligations.RunnerQueues
  rintro ⟨-, -, -, -, hrst, -⟩
  obtain ⟨d, hexec, -, hwp, -⟩ := hrst initialisingQueue 63 127 _ initialisingQueue_ready (by decide) (by decide) rfl (by decide) (by decide)
  cases hexec.symm.trans initialisingQueue_rise
  exact absurd hwp (by decide)

end

section
/-! PROOFS. Clock sources, switches and timebase references (O2, O3, O4): what each clock operation does to the clocks and registers, and
the three statements assembled from the rules for running a command of the main side. -/

namespace Sys2Proof.Machine.ClockEvents

open Sys2Proof.Machine.FabricEdges

/-! ## Which parts an operation leaves alone -/

section
variable {ps : List Part} {a t : Dev}

theorem sameBut_updClk (hp : .clk ∈ ps) (h : sameBut ps a t) (f : Clocks → Clocks) : sameBut ps a (updClk t f) :=
  { h with clk := .inl hp }

theorem sameBut_setPll (hp : .clk ∈ ps) (h : sameBut ps a t) (p : Nat) (st : PllState) : sameBut ps a (setPll t p st) :=
  { h with clk := .inl hp }

theorem sameBut_setR (hp : .regs ∈ ps) (h : sameBut ps a t) (r hi lo v : Nat) : sameBut ps a (setR t r hi lo v) :=
  { h with regs := .inl hp }

/-- A fault whose reaction is below 3 shows in its group, the log, the registers and a message (R489, R490, R499). -/
theorem sameBut_raise (hg : .groups ∈ ps) (hf : .flog ∈ ps) (hr : .regs ∈ ps) (ho : .out ∈ ps) (h : sameBut ps a t) {i : Nat}
    (hi : reactionOf t i ≠ 3) (x c : Nat) : sameBut ps a (raise t i x c) := by
  constructor <;> simp only [raise_sectors, raise_eccLog, raise_thr, raise_clk, raise_cfg, raise_net, raise_mem, raise_enc, raise_cab,
    raise_links, raise_io, raise_tb, raise_units, raise_power, raise_bureau, raise_free, raise_due hi, h.sectors, h.eccLog, h.thr, h.clk,
    h.cfg, h.net, h.mem, h.enc, h.cab, h.links, h.io, h.tb, h.units, h.power, h.bureau, h.free, h.due, hg, hf, hr, ho, true_or]

end

/-! ## Running a clock command of the main side -/

section
variable {s : State} {c : Instr} {f : Dev → Dev} {P : Dev → Prop}

/-- A row of the main side that touches neither `due` nor `cfg` performs what it makes of the device. -/
theorem performs_main {ps : List Part} {d : Dev} (hc : exec c s = run (whenMain f) s) (hs : s.ready)
    (he : f { s.dev with out := [] } = d) (hd : sameBut ps s.dev d) (hdue : .due ∉ ps) (hcfg : .cfg ∉ ps) (hP : P d) :
    s.performs c ps P := by
  have hup : mainUp { s.dev with out := [] } = true := hs.1
  exact performs_of_run hc hs ((whenMain_up hup).trans he) hd hdue hcfg hP

/-- A row that updates the clocks. -/
theorem performs_updClk {g : Clocks → Clocks} (hc : exec c s = run (whenMain f) s) (hs : s.ready)
    (he : f { s.dev with out := [] } = updClk { s.dev with out := [] } g) (hP : ∀ d, d.clk = g s.dev.clk → P d) :
    s.performs c [.clk] P :=
  performs_main hc hs he (sameBut_updClk (by decide) (sameBut_refl _ _) g) (by decide) (by decide) (hP _ rfl)

/-- A row that writes one field of one register. -/
theorem performs_setR {r hi lo v : Nat} (hc : exec c s = run (whenMain f) s) (hs : s.ready) (hw : tWf regReset s.dev.regs = true)
    (he : f { s.dev with out := [] } = setR { s.dev with out := [] } r hi lo v)
    (hP : ∀ d, getR d r = putFld (getR s.dev r) hi lo v → (∀ a, a ≠ r → getR d a = getR s.dev a) → P d) :
    s.performs c [.regs] P := by
  have hw' : tWf regReset ({ s.dev with out := [] } : Dev).regs = true := hw
  exact performs_main hc hs he (sameBut_setR (by decide) (sameBut_refl _ _) r hi lo v) (by decide) (by decide)
    (hP _ (getR_setR hw' r hi lo v) fun a ha => getR_setR_ne hw' ha hi lo v)

/-- A row that sets one bit of one register. -/
theorem performs_setBit {r i : Nat} (hi : i < 64) (hc : exec c s = run (whenMain f) s) (hs : s.ready)
    (hw : tWf regReset s.dev.regs = true) (he : f { s.dev with out := [] } = setR { s.dev with out := [] } r i i 1) :
    s.performs c [.regs] fun d => bitR d r i = true ∧ ∀ a, a ≠ r → getR d a = getR s.dev a :=
  performs_setR hc hs hw he fun d hr hother => ⟨by rw [bitR, hr, bit_putFld _ _ _ hi]; rfl, hother⟩

end

/-! ## Clock switches (R133, R134) -/

section
variable {w : ClkSwitch} {t : Nat}

theorem requestSwitch_idle {new : Nat} (ht : w.target = none) (hne : w.cur ≠ new) :
    requestSwitch new w = { w with target := some new, connected := false, forced := false } := by
  simp [requestSwitch, ht, hne]

theorem connectSwitch_requested (ht : w.target = some t) : connectSwitch w = { w with connected := true } := by
  simp [connectSwitch, ht]

theorem forceSwitch_requested (ht : w.target = some t) (hc : w.connected = false) :
    forceSwitch w = { w with connected := true, forced := true } := by
  simp [forceSwitch, ht, hc]

theorem completeSwitch_last (ht : w.target = some t) (hc : w.connected = true) (hq : w.queued = none) :
    completeSwitch w = { cur := t } := by
  simp [completeSwitch, ht, hc, hq]

/-- A second request is acted on after event 3 of the first. -/
theorem completeSwitch_queued {q : Nat} (ht : w.target = some t) (hc : w.connected = true) (hq : w.queued = some q) (hne : q ≠ t) :
    completeSwitch w = { cur := t, target := some q } := by
  simp only [completeSwitch, ht, hc, hq, if_true]
  exact requestSwitch_idle rfl hne.symm

end

/-! ## PLLs (R126, R129, R130) -/

/-- `t` is `s` but for the states of PLLs. -/
def OnlyPlls (s t : Dev) : Prop := ∃ l, t = updClk s fun c => { c with plls := l }

theorem OnlyPlls.refl (s : Dev) : OnlyPlls s s := ⟨s.clk.plls, rfl⟩

theorem OnlyPlls.setPll {s t : Dev} (h : OnlyPlls s t) (p : Nat) (st : PllState) : OnlyPlls s (setPll t p st) := by
  obtain ⟨l, rfl⟩ := h
  exact ⟨_, rfl⟩

theorem OnlyPlls.pllStart {s t : Dev} (h : OnlyPlls s t) (p : Nat) : OnlyPlls s (pllStart t p) := by
  unfold Machine.pllStart
  split
  · exact h.setPll p .locking
  · exact h

theorem OnlyPlls.startDevicePlls {s t : Dev} (h : OnlyPlls s t) : OnlyPlls s (startDevicePlls t) := by
  unfold Machine.startDevicePlls
  split
  · exact List.foldlRecOn _ _ h fun _ ht p _ => ht.pllStart p
  · exact h

theorem OnlyPlls.startQuadPlls {s t : Dev} (h : OnlyPlls s t) : OnlyPlls s (startQuadPlls t) := by
  refine List.foldlRecOn _ _ h fun t ht j _ => ?_
  split
  · exact ht.pllStart _
  · exact ht

/-- The lock of the management PLLs requests the move of the management clock and starts other PLLs. -/
theorem managementPllLocked_of_stable {s : Dev} (hsrc : s.clk.pll1Src = 0) (hxo : s.clk.xo.state = .stable)
    (hred : s.clk.reduced = false) (hgoal : switchGoal s.clk.mgmt = 0) :
    ∃ l, managementPllLocked s = updClk s fun c => { c with mgmt := requestSwitch 1 c.mgmt, plls := l } := by
  have hlock : managementLocked s = startDevicePlls
      (updClk (setPll (setPll s 1 .locked) 0 .locked) fun c => { c with mgmt := requestSwitch 1 c.mgmt }) := by
    simp [managementLocked, hsrc, hxo, hred, hgoal]
  have hmove : OnlyPlls (updClk s fun c => { c with mgmt := requestSwitch 1 c.mgmt })
      (updClk (setPll (setPll s 1 .locked) 0 .locked) fun c => { c with mgmt := requestSwitch 1 c.mgmt }) := ⟨_, rfl⟩
  obtain ⟨l, hl⟩ := hmove.startDevicePlls.startQuadPlls
  exact ⟨l, by rw [managementPllLocked, hlock, hl]; rfl⟩

/-- The fabric, DDR5 and SRAM PLLs have nothing that waits for their lock. -/
theorem pllLocked_of_locking {s : Dev} {p : Nat} (h2 : 2 < p) (h31 : p < 31) (hst : pllState s p = .locking)
    (href : pllHasRef s p = true) :
    pllLocked p s = updClk s fun c => { c with plls := tSet (fun _ => .off) c.plls p .locked } := by
  have h1' : p ≠ 1 := by omega
  have h2' : p ≠ 2 := by omega
  have h31' : ¬ 31 ≤ p := by omega
  simp [pllLocked, hst, href, h1', h2', h31', setPll, updClk]

theorem pllLossOfLock_of_runs {s : Dev} {p : Nat} (h1 : p ≠ 1) (hr : pllRuns s p = true) :
    pllLossOfLock s p = raise (setPll s p .unlocked) fltPllUnlock (p * 2 ^ 56) (pllScope p) := by
  simp [pllLossOfLock, hr, h1]

/-! ## Judging of the XO (R123, R124) -/

/-- Climbing to the start target moves the timebase switch only. -/
theorem tbClimb_clk (s : Dev) : ∃ w r, tbClimb s = updClk s fun c => { c with tb := w, reachedTarget := r } := by
  unfold tbClimb
  split
  · exact ⟨s.clk.tb, s.clk.reachedTarget, rfl⟩
  · split
    · exact ⟨s.clk.tb, true, rfl⟩
    · dsimp only
      split
      · exact ⟨_, s.clk.reachedTarget, rfl⟩
      · exact ⟨s.clk.tb, s.clk.reachedTarget, rfl⟩

/-- The eighth good window in a row of one class makes a source STABLE. -/
theorem judgeWindow_eighth {khz tol count k : Nat} {j : Judge} (hk : matchClass khz tol count = some k) (hg : j.good = 7)
    (hl : j.last = k) : judgeWindow khz tol count j = { j with state := .stable, good := 8, last := k } := by
  simp [judgeWindow, hk, hg, hl]

section
variable {s : Dev} {count : Nat} {j : Judge}

theorem judgeMain_xo_stable (hx : s.clk.xo.state = .judging)
    (hj : judgeWindow (fldR s rRefCfg 23 0) (tolSteps s) count s.clk.xo = j) (hst : j.state = .stable) :
    judgeMain s 0 count =
      tbClimb (armMonitor (updClk s fun c => { c with xo := j, xoKhz := classKhz (fldR s rRefCfg 23 0) j.last }) 1
        (classKhz (fldR s rRefCfg 23 0) j.last)) := by
  simp only [judgeMain, if_true, hx, ne_eq, not_true_eq_false, if_false, hj, hst]
  rfl

theorem judgeMain_xo_judging (hx : s.clk.xo.state = .judging)
    (hj : judgeWindow (fldR s rRefCfg 23 0) (tolSteps s) count s.clk.xo = j) (hst : j.state ≠ .stable) (hf : j.state ≠ .failed) :
    judgeMain s 0 count = updClk s fun c => { c with xo := j } := by
  simp only [judgeMain, if_true, hx, ne_eq, not_true_eq_false, if_false, hj]

end

/-- A window that does not make the XO FAILED leaves its judge, and the frequency of its class where it becomes STABLE. -/
theorem performs_judgingWindow_xo {s : State} {count : BitVec 24} {j : Judge} {P : Dev → Prop} (hs : s.ready)
    (hx : s.dev.clk.xo.state = .judging)
    (hj : judgeWindow (fldR s.dev rRefCfg 23 0) (tolSteps s.dev) count.toNat s.dev.clk.xo = j) (hf : j.state ≠ .failed)
    (hP : ∀ d, d.clk.xo = j → d.clk.chref = s.dev.clk.chref →
      (j.state = .stable → d.clk.xoKhz = classKhz (fldR s.dev rRefCfg 23 0) j.last) → P d) :
    s.performs (.judgingWindow .xo count) [.clk, .regs] P := by
  by_cases hst : j.state = .stable
  · have he := judgeMain_xo_stable (s := { s.dev with out := [] }) hx hj hst
    obtain ⟨w, r, hw⟩ := tbClimb_clk (armMonitor (updClk { s.dev with out := [] } fun c =>
      { c with xo := j, xoKhz := classKhz (fldR s.dev rRefCfg 23 0) j.last }) 1 (classKhz (fldR s.dev rRefCfg 23 0) j.last))
    have harm : ∀ t k, sameBut [.clk, .regs] s.dev t → sameBut [.clk, .regs] s.dev (armMonitor t 1 k) := fun t k h =>
      sameBut_setR (by decide) (sameBut_setR (by decide) (sameBut_setR (by decide) h _ _ _ _) _ _ _ _) _ _ _ _
    exact performs_main rfl hs (he.trans hw)
      (sameBut_updClk (by decide) (harm _ _ (sameBut_updClk (by decide) (sameBut_refl _ _) _)) _) (by decide) (by decide)
      (hP _ rfl rfl fun _ => rfl)
  · exact performs_main rfl hs (judgeMain_xo_judging (s := { s.dev with out := [] }) hx hj hst hf)
      (sameBut_updClk (by decide) (sameBut_refl _ _) _) (by decide) (by decide) (hP _ rfl rfl fun h => absurd h hst)

/-! ## Timebase references (R127, R135, R136) -/

section
variable {s : Dev}

theorem tbMay_stream (hg : streamGood s = true) (hr : s.clk.reduced = false ∨ s.clk.xo.state = .stable) : tbMay s 0 = true := by
  rcases hr with hr | hr <;> simp [tbMay, tbGood, hg, hr]

/-- Reduced service keeps the stream out of reach (R127). -/
theorem tbMay_stream_reduced (hr : s.clk.reduced = true) (hx : s.clk.xo.state ≠ .stable) : tbMay s 0 = false := by
  simp [tbMay, hr, hx]

theorem tbMay_crystal (s : Dev) : tbMay s 1 = decide (s.clk.xo.state = .stable) := by simp [tbMay, tbGood]

theorem tbMay_internal (s : Dev) : tbMay s 2 = true := rfl

theorem tbGo_may {src : Nat} (h : tbMay s src = true) : tbGo s src = updClk s fun c => { c with tb := requestSwitch src c.tb } := if_pos h

theorem tbGo_refused {src : Nat} (h : tbMay s src = false) : tbGo s src = setR s rTbClkStatus 4 4 1 := by simp [tbGo, h]

theorem tbReturn_better {src : Nat} (hm : bitR s rTbClkCtrl 8 = true) (ht : tbTarget s ≤ src) (hg : src < switchGoal s.clk.tb)
    (hmay : tbMay s src = true) : tbReturn s src = updClk s fun c => { c with tb := requestSwitch src c.tb } := by
  simp [tbReturn, hm, ht, hg, hmay, tbMove]

/-! ## Monitors (R140, R141) -/

/-- No PLL and no source of the timebase hangs on monitors 0, 9 and 10. -/
theorem tripUsers_unused {n : Nat} (hn : n = 0 ∨ n = 9 ∨ n = 10) : tripUsers s n = s := by
  rcases hn with rfl | rfl | rfl <;> rfl

/-- The reactions of faults do not stand in the monitors. -/
theorem reactionOf_setR_clkMon (hw : tWf regReset s.regs = true) {n : Nat} (hn : n < 13) (hi lo v i : Nat) :
    reactionOf (setR s (rClkMon n) hi lo v) i = reactionOf s i := by
  have hne : ∀ g k, rReact g k ≠ rClkMon n := fun g k => by simp only [rReact, rClkMon, blk]; omega
  simp only [reactionOf, fldR_setR_ne hw (hne _ _)]

theorem missingEdge_masked (hw : tWf regReset s.regs = true) {n : Nat} (hn : n = 0 ∨ n = 9 ∨ n = 10)
    (hen : bitR s (rClkMon n) 63 = true) (hr : reactionOf s fltClkMissing = 0) :
    missingEdge s n = setR s (rClkMon n) 62 62 1 := by
  have hmask : reactionOf (setR s (rClkMon n) 62 62 1) fltClkMissing = 0 :=
    (reactionOf_setR_clkMon hw (by omega) 62 62 1 _).trans hr
  rw [missingEdge, if_pos hen, tripUsers_unused hn, raiseD, raise_masked hmask]

theorem frequencyWindow_within (hw : tWf regReset s.regs = true) {n count : Nat} (hc : count < 2 ^ 24)
    (hen : bitR s (rClkMon n) 63 = true) (hlo : fldR s (rClkMon n) 23 0 ≤ count) (hhi : count ≤ fldR s (rClkMon n) 47 24) :
    frequencyWindow s n count = setR s (rClkMonLast n) 23 0 count := by
  have hne : rClkMon n ≠ rClkMonLast n := by simp only [rClkMon, rClkMonLast]; omega
  simp only [frequencyWindow, hen, if_true, Nat.mod_eq_of_lt hc, fldR_setR_ne hw hne, Nat.not_lt.mpr hlo, Nat.not_lt.mpr hhi,
    decide_false, Bool.or_self, Bool.and_false, Bool.false_eq_true, if_false]

end

end Sys2Proof.Machine.ClockEvents
end

section
open Sys2Proof Sys2Proof.Machine Sys2Proof.Machine.FabricEdges Sys2Proof.Machine.ClockEvents

/-- Settles O2: a window and a lock change the clocks as their operation does; the loss of a lock raises one fault besides. -/
theorem clockSourcesAndPlls : Obligations.ClockSourcesAndPlls := by
  unfold Obligations.ClockSourcesAndPlls
  refine ⟨?window, ?eighthWindow, ?rejudge, ?managementLock, ?lock, ?lossOfLock⟩
  case window =>
    intro s count hs hx hf
    exact performs_judgingWindow_xo hs hx rfl hf fun d hxo hchref _ => ⟨hxo, hchref⟩
  case eighthWindow =>
    intro s count k hs hx hk hg hl
    exact performs_judgingWindow_xo hs hx (judgeWindow_eighth hk hg hl) (by simp) fun d hxo _ hkhz => by
      simp only [hxo, hkhz rfl, and_self]
  case rejudge =>
    intro s hs
    refine performs_updClk rfl hs rfl fun d hd => ?_
    rw [hd]
    refine ⟨rfl, rfl, fun h => ?_, fun h => ?_⟩
    · simp [judgeAgain, judgeStart, h]
    · simp [judgeAgain, h]
  case managementLock =>
    intro s hs hsrc hxo hred hm
    obtain ⟨l, hl⟩ := managementPllLocked_of_stable (s := { s.dev with out := [] }) hsrc hxo hred (congrArg switchGoal hm)
    refine performs_updClk rfl hs hl fun d hd => ?_
    rw [hd, hm]
    exact ⟨rfl, rfl, rfl⟩
  case lock =>
    intro s p hs h2 h31 hst href
    exact performs_updClk rfl hs (pllLocked_of_locking h2 h31 hst href) fun d hd => hd
  case lossOfLock =>
    intro s p hs h1 hr hreact
    have hreact' : reactionOf (setPll { s.dev with out := [] } p.val .unlocked) fltPllUnlock ≠ 3 :=
      fun h => hreact ((reactionOf_regs (b := s.dev) rfl _).symm.trans h)
    refine performs_main rfl hs (pllLossOfLock_of_runs (s := { s.dev with out := [] }) h1 hr)
      (sameBut_raise (by decide) (by decide) (by decide) (by decide) (sameBut_setPll (by decide) (sameBut_refl _ _) _ _) hreact' _ _)
      (by decide) (by decide) ?_
    rw [raise_clk]
    rfl

/-- Settles O3: each clause is one event of a switch, or one write of a gate. -/
theorem clockSwitches : Obligations.ClockSwitches := by
  unfold Obligations.ClockSwitches
  refine ⟨?connect, ?force, ?complete, ?completeQueued, ?globalLine, ?globalGate, ?regionalGate⟩
  case connect =>
    intro s t hs ht
    refine performs_updClk (g := fun c => { c with mgmt := connectSwitch c.mgmt }) rfl hs rfl fun d hd => ?_
    rw [hd]
    exact ⟨connectSwitch_requested ht, rfl, rfl⟩
  case force =>
    intro s t hs ht hc
    refine performs_updClk (g := fun c => { c with mgmt := forceSwitch c.mgmt }) rfl hs rfl fun d hd => ?_
    rw [hd]
    exact forceSwitch_requested ht hc
  case complete =>
    intro s t gap blocks hs ht hc hq
    refine performs_updClk (g := fun c => { c with mgmt := completeSwitch c.mgmt }) rfl hs rfl fun d hd => ?_
    rw [hd]
    exact ⟨completeSwitch_last ht hc hq, rfl⟩
  case completeQueued =>
    intro s t q gap blocks hs ht hc hq hne
    refine performs_updClk (g := fun c => { c with mgmt := completeSwitch c.mgmt }) rfl hs rfl fun d hd => ?_
    rw [hd]
    exact completeSwitch_queued ht hc hq hne
  case globalLine =>
    intro s q n side hs
    refine performs_updClk (g := fun c =>
      { c with glines := tUpd glineDflt c.glines (32 * q.val + n.val) fun l => { l with sw := requestSwitch side.toNat l.sw } })
      rfl hs rfl fun d hd => ?_
    rw [hd]
    exact ⟨rfl, rfl, rfl⟩
  case globalGate =>
    intro s q v hs hw
    refine performs_updClk rfl hs rfl fun d hd p => ?_
    rw [gclkGate, hd, tGet_tSet (fun _ => 0) _ _ _ hw]
    simp only [Fin.ext_iff, gclkGate]
  case regionalGate =>
    intro s sec line en hs hw
    exact performs_updSec (sec := sec) rfl hs rfl hw fun d hnew hother => ⟨by rw [hnew], hother⟩

/-- Settles O4: a request moves the timebase switch or sets go_refused; a monitor writes its own register. -/
theorem timebaseReferencesAndMonitors : Obligations.TimebaseReferencesAndMonitors := by
  unfold Obligations.TimebaseReferencesAndMonitors
  refine ⟨?stream, ?streamRefused, ?crystal, ?internal, ?crystalRefused, ?returnHold, ?missingEdge, ?window⟩
  case stream =>
    intro s hs hg hr
    exact performs_updClk rfl hs (tbGo_may (tbMay_stream hg hr)) fun d hd => hd
  case streamRefused =>
    intro s hs hr hx hw
    exact performs_setBit (by decide) rfl hs hw (tbGo_refused (tbMay_stream_reduced hr hx))
  case crystal =>
    intro s hs hx
    exact performs_updClk rfl hs (tbGo_may ((tbMay_crystal _).trans (decide_eq_true hx))) fun d hd => hd
  case internal =>
    intro s hs
    exact performs_updClk rfl hs (tbGo_may (tbMay_internal _)) fun d hd => hd
  case crystalRefused =>
    intro s hs hx hw
    exact performs_setBit (by decide) rfl hs hw (tbGo_refused ((tbMay_crystal _).trans (decide_eq_false hx)))
  case returnHold =>
    intro s hs hmode ht hx htb
    have hgoal : 1 < switchGoal s.dev.clk.tb := by rw [htb]; decide
    refine performs_updClk rfl hs (tbReturn_better hmode ht hgoal
      ((tbMay_crystal _).trans (decide_eq_true hx))) fun d hd => ?_
    rw [hd, htb]
    rfl
  case missingEdge =>
    intro s n hs hn hen hr hw
    have hmain : missingEdgeTrip n.val = whenMain (fun d => missingEdge d n.val) := funext fun d => if_pos (by omega)
    exact performs_setBit (by decide) (congrArg (run · s) hmain) hs hw (missingEdge_masked (s := { s.dev with out := [] }) hw hn hen hr)
  case window =>
    intro s n count hs hen hlo hhi hw
    refine performs_setR rfl hs hw (frequencyWindow_within (s := { s.dev with out := [] }) hw count.isLt hen hlo hhi)
      fun d hlast hother => ⟨?_, hother⟩
    rw [fldR, hlast, fld_putFld _ _ _ _ (by decide)]
    exact Nat.mod_eq_of_lt count.isLt

end

section
/-! PROOFS. Hinges (O32): rules for running an operation of one Hinge, what an edge does to a side that is out of reset, what a pulse,
W_CLR and RST do, and the statement assembled from them. -/

namespace Sys2Proof.Machine.HingeCrossings

open Sys2Proof.Machine.FabricEdges

/-! ## Inputs that no multiplexer drives -/

theorem testBit_foldl_or_two_pow (l : List Nat) (m k : Nat) :
    (l.foldl (fun m i => m ||| 2 ^ i) m).testBit k = (m.testBit k || decide (k ∈ l)) := by
  induction l generalizing m with
  | nil => simp
  | cons i l ih => simp [ih, Nat.testBit_two_pow, Bool.or_assoc, eq_comm]

/-- A mask has the bits that its list names. -/
theorem testBit_maskOf (l : List Nat) (k : Nat) : (maskOf l).testBit k = decide (k ∈ l) := by
  simp [maskOf, testBit_foldl_or_two_pow]

/-- Inputs that keep their levels give the value they carry. -/
theorem pinBits_self {n : Nat} (base : Nat) (x : BitVec n) : pinBits (fun _ level => level) base x = x := by
  apply BitVec.eq_of_getLsbD_eq
  intro i hi
  rw [pinBits, BitVec.getLsbD_ofNat, testBit_maskOf]
  simp [hi]

@[simp] theorem hingePin_nil (s : Dev) (i h : Nat) : hingePin s i h [] = fun _ level => level := rfl

@[simp] theorem hingePin_out (d : Dev) (o : List Output) (i h : Nat) (via : List PinMux) :
    hingePin { d with out := o } i h via = hingePin d i h via := rfl

/-! ## One Hinge of a sector -/

/-- An update of a Hinge counts only at what that Hinge holds. -/
theorem updHinge_congr {s : Dev} {i h : Nat} {f g : Hinge → Hinge}
    (e : f (getHinge (getSec s i) h) = g (getHinge (getSec s i) h)) : updHinge i h f s = updHinge i h g s := by
  have e' : f (tGet hingeDflt (tGet sectorDflt s.sectors i).hinges h) = g (tGet hingeDflt (tGet sectorDflt s.sectors i).hinges h) := e
  simp only [updHinge, updSec, tUpd, e']

/-- An edge on the clock of its side acts on a Hinge of its kind. -/
theorem hingeEdge_runs {s : Dev} {kind : HingeKind} {dst : Bool} {i h : Nat} {f : HingeCfg → Hinge → Hinge}
    (hk : (hingeCfg (items s i) h).kind = kind)
    (he : edgeAt s i (if dst then (hingeCfg (items s i) h).dstClk else (hingeCfg (items s i) h).srcClk) = true) :
    hingeEdge kind dst i h f s = updHinge i h (f (hingeCfg (items s i) h)) s := by
  simp [hingeEdge, hk, he]

section
variable {s : State} {c : Instr} {sec : Sec} {h : Nat} {op : Dev → Dev} {g : Hinge → Hinge}

/-- The device becomes what a row of a sector makes of it, where nothing is left to carry out. -/
theorem becomes_sec {r : Dev → Dev} (hc : exec c s = run (whenSec sec op) s) (hs : s.ready)
    (hop : op { s.dev with out := [] } = r { s.dev with out := [] }) (hr : (r { s.dev with out := [] }).settled) : s.becomes c r := by
  have hexec := hc.trans (run_sec hs (hop ▸ hr))
  rwa [hop] at hexec

/-- A row of a sector that updates one Hinge becomes the device with that Hinge changed. -/
theorem becomes_updHinge {f : Hinge → Hinge} (hc : exec c s = run (whenSec sec op) s) (hs : s.ready)
    (hop : op { s.dev with out := [] } = updHinge sec.val h f { s.dev with out := [] })
    (hfg : f (getHinge (getSec s.dev sec.val) h) = g (getHinge (getSec s.dev sec.val) h)) :
    s.becomes c fun d => updHinge sec.val h g d :=
  becomes_sec hc hs (hop.trans (updHinge_congr hfg)) hs.2

variable {kind : HingeKind} {dst : Bool} {f : HingeCfg → Hinge → Hinge}

/-- So does a row that is an edge of one side of a Hinge, where the clock of that side runs. -/
theorem becomes_hingeEdge (hc : exec c s = run (whenSec sec op) s) (hs : s.ready)
    (hop : op { s.dev with out := [] } = hingeEdge kind dst sec.val h f { s.dev with out := [] })
    (hk : (hingeCfg (items s.dev sec.val) h).kind = kind)
    (he : edgeAt s.dev sec.val
      (if dst then (hingeCfg (items s.dev sec.val) h).dstClk else (hingeCfg (items s.dev sec.val) h).srcClk) = true)
    (hfg : f (hingeCfg (items s.dev sec.val) h) (getHinge (getSec s.dev sec.val) h) = g (getHinge (getSec s.dev sec.val) h)) :
    s.becomes c fun d => updHinge sec.val h g d :=
  becomes_updHinge hc hs (hop.trans (hingeEdge_runs (s := { s.dev with out := [] }) hk he)) hfg

/-- Such an edge performs what holds wherever that Hinge is `x` and every other sector is as before. -/
theorem performs_hingeEdge {x : Hinge} {P : Dev → Prop} (hc : exec c s = run (whenSec sec op) s) (hs : s.ready)
    (hop : op { s.dev with out := [] } = hingeEdge kind dst sec.val h f { s.dev with out := [] })
    (hk : (hingeCfg (items s.dev sec.val) h).kind = kind)
    (he : edgeAt s.dev sec.val
      (if dst then (hingeCfg (items s.dev sec.val) h).dstClk else (hingeCfg (items s.dev sec.val) h).srcClk) = true)
    (hsecs : tWf sectorDflt s.dev.sectors = true) (hhinges : tWf hingeDflt (getSec s.dev sec.val).hinges = true)
    (hx : f (hingeCfg (items s.dev sec.val) h) (getHinge (getSec s.dev sec.val) h) = x)
    (hP : ∀ d, getHinge (getSec d sec.val) h = x → (∀ j, j ≠ sec.val → getSec d j = getSec s.dev j) → P d) :
    s.performs c [.sectors] P :=
  performs_updSec hc hs (hop.trans (hingeEdge_runs (s := { s.dev with out := [] }) hk he)) hsecs fun d hnew hold =>
    hP d (by rw [getHinge, hnew, tGet_tUpd hingeDflt _ _ _ hhinges, if_pos rfl]; exact hx) hold

end

/-! ## Value crossings (R150 to R152) -/

section
variable (i h : Nat) (load : Bool) (data : PWord) (clr late : Bool) (via : List PinMux) (s : Dev)

theorem valueLoadOp_load :
    valueLoadOp false i h load data clr late via s = hingeEdge .value false i h (fun g => valueLoad g (hingePin s i h via 0 load)
      (hingePin s i h via 81 clr) (pinBits (hingePin s i h via) 1 data) late) s := rfl

theorem valueLoadOp_complete :
    valueLoadOp true i h load data clr late via s = hingeEdge .value false i h (fun g => valueComplete g (hingePin s i h via 0 load)
      (hingePin s i h via 81 clr) (pinBits (hingePin s i h via) 1 data) late) s := rfl

end

section
variable {g : HingeCfg} {x : Hinge} (late : Bool)

@[simp] theorem srcBusy_ackArrives : srcBusy (ackArrives g late x) = srcBusy x := rfl

theorem valueLoad_running (hb : srcBusy x = false) (load clr : Bool) (data : PWord) :
    valueLoad g load clr data late x = valueSource g load clr data (ackArrives g late x) := by
  simp [valueLoad, hb]

/-- With no value under way a load takes its value and flips the take flag. -/
theorem valueSource_load_idle (hv : valueBusy x = false) (hp : x.pendFull = false) (data : PWord) :
    valueSource g true false data x = { x with hold := clipValue g data, take := !x.take } := by
  have hseen : x.ackSeen = x.take := by simpa [valueBusy] using hv
  simp [valueSource, hseen, hp]

/-- A load over a pending value replaces it, and the one replaced counts as superseded. -/
theorem valueSource_load_pending (hv : valueBusy x = true) (hp : x.pendFull = true) (data : PWord) :
    valueSource g true false data x = { x with pending := clipValue g data, super := min (x.super + 1) 65535 } := by
  have hseen : x.ackSeen ≠ x.take := by simpa [valueBusy] using hv
  simp [valueSource, hseen, hp]

/-- The returned acknowledge starts the pending value. -/
theorem valueSource_start_pending (hv : valueBusy x = false) (hp : x.pendFull = true) (data : PWord) :
    valueSource g false false data x = { x with hold := x.pending, pendFull := false, take := !x.take } := by
  have hseen : x.ackSeen = x.take := by simpa [valueBusy] using hv
  simp [valueSource, hseen, hp]

/-- A handshake ends at the source edge at which the last stage of the acknowledge chain equals the take flag. -/
theorem valueComplete_ended (hb : srcBusy x = false) (hv : valueBusy x = true) (he : chainEnd g false x.ackChain = x.take)
    (load clr : Bool) (data : PWord) : valueComplete g load clr data late x = valueSource g load clr data (ackArrives g late x) := by
  have hseen : (x.ackSeen != x.take) = true := hv
  simp [valueComplete, hb, hseen, he, valueLoad_running late hb]

/-- Such an edge without a load starts the pending value. -/
theorem valueComplete_start_pending (hb : srcBusy x = false) (hv : valueBusy x = true) (he : chainEnd g false x.ackChain = x.take)
    (hp : x.pendFull = true) (data : PWord) :
    valueComplete g false false data late x = { x with
      ackSeen := x.take, ackChain := chainShift g (firstStage late x.ack x.ackPrev) x.ackChain, ackPrev := x.ack
      hold := x.pending, pendFull := false, take := !x.take } := by
  have harrive : ackArrives g late x = { x with
      ackSeen := x.take, ackChain := chainShift g (firstStage late x.ack x.ackPrev) x.ackChain, ackPrev := x.ack } := by
    rw [ackArrives, he]
  have hidle : valueBusy (ackArrives g late x) = false := by simp [valueBusy, harrive]
  rw [valueComplete_ended late hb hv he, valueSource_start_pending hidle hp, harrive]

/-- A destination edge delivers the held value and acknowledges it where the synchronised take flag differs from the acknowledge. -/
theorem valueDeliver_running (hb : dstBusy x = false) :
    valueDeliver g late x = { x with
      takeChain := chainShift g (firstStage late x.take x.takePrev) x.takeChain, takePrev := x.take
      dNew := chainEnd g false x.takeChain != x.ack, ack := chainEnd g false x.takeChain
      dData := if chainEnd g false x.takeChain = x.ack then x.dData else x.hold } := by
  by_cases htaken : chainEnd g false x.takeChain = x.ack
  · simp [valueDeliver, hb, htaken]
  · simp [valueDeliver, hb, htaken]

end

/-! ## Counter crossings (R155, R156) -/

section
variable {g : HingeCfg} {x : Hinge} (late : Bool)

/-- An event is counted while fewer than 255 are unacknowledged. -/
theorem counterEvent_counted (hb : srcBusy x = false) (hu : unack x < 255) :
    counterEvent g true late x = { countReturns g late x with
      cs := ((countReturns g late x).cs + 1) % 256
      ovf := (countReturns g late x).ovf ||
        decide (unack { countReturns g late x with cs := ((countReturns g late x).cs + 1) % 256 } = 192) } := by
  simp [counterEvent, hb, Nat.not_le.mpr hu]

/-- At 255 it is refused. -/
theorem counterEvent_refused (hb : srcBusy x = false) (hu : unack x = 255) :
    counterEvent g true late x = { countReturns g late x with drop := true } := by
  simp [counterEvent, hb, hu]

/-- Without an event only the delivered count comes nearer. -/
theorem counterAck_running (hb : srcBusy x = false) : counterAck g late x = countReturns g late x := by
  simp [counterAck, counterEvent, hb]

end

/-- A destination edge delivers at most 127 of the sampled events. -/
theorem counterDeliver_running {g : HingeCfg} {x : Hinge} (hb : dstBusy x = false) (late : Nat) :
    counterDeliver g late x = { x with
      cChain := chainShift g ((x.cs + 256 - min late ((x.cs + 256 - x.csPrev) % 256)) % 256) x.cChain, csPrev := x.cs
      cd := (x.cd + min ((chainEnd g 0 x.cChain + 256 - x.cd) % 256) 127) % 256
      delta := min ((chainEnd g 0 x.cChain + 256 - x.cd) % 256) 127 } := by
  simp [counterDeliver, hb]

/-! ## Level synchronisers, wake requests and RST (R147, R157, R158, R160) -/

theorem levelSample_running {g : HingeCfg} {x : Hinge} (hb : dstBusy x = false) (inp late : BitVec 8) :
    levelSample g inp late x = { x with
      chain := chainShift g ((inp &&& ~~~late) ||| (x.lPrev &&& late)) x.chain, lPrev := inp } := by
  simp [levelSample, hb]

section
variable {s : Dev} {i h : Nat} {via : List PinMux}

/-- A pulse of 250 ps or more takes no free value. -/
theorem wakeRequest_long (hk : (hingeCfg (items s i) h).kind = .wake) (hl : fabricLive s i = true) {ps : Nat} (hps : 250 ≤ ps) :
    wakeRequest i h ps s = updHinge i h (fun x => { x with latch := true }) s := by
  simp [wakeRequest, hk, hl, hps]

/-- A shorter one takes one, and that value sets the latch or leaves it (assumption 3). -/
theorem wakeRequest_short (hk : (hingeCfg (items s i) h).kind = .wake) (hl : fabricLive s i = true) {ps : Nat} (hps : ps < 250) :
    wakeRequest i h ps s =
      updHinge i h (fun x => { x with latch := x.latch || Config.freeBit s.free }) { s with free := s.free + 1 } := by
  simp [wakeRequest, takeBit, hk, hl, Nat.not_le.mpr hps]

theorem wakeClear_runs (hk : (hingeCfg (items s i) h).kind = .wake)
    (he : edgeAt s i { sel := BitVec.ofNat 6 (32 + (hingeCfg (items s i) h).wakeLine.toNat) } = true)
    {wReq : Bool} (hreq : hingePin s i h via 0 wReq = false) (hclr : hingePin s i h via 1 true = true) :
    wakeClear i h wReq via s = updHinge i h (fun x => { x with latch := false }) s := by
  simp [wakeClear, hk, he, hreq, hclr]

theorem hingeRstOp_rise (hk : (hingeCfg (items s i) h).kind ≠ .wake) (hl : fabricLive s i = true) :
    hingeRstOp i h .rise s = updHinge i h (hingeRst (hingeCfg (items s i) h) .rise) s := by
  simp [hingeRstOp, hk, hl]

end

end Sys2Proof.Machine.HingeCrossings
end

section
open Sys2Proof Sys2Proof.Machine Sys2Proof.Machine.FabricEdges Sys2Proof.Machine.HingeCrossings

/-- Settles O32: each clause is one update of one Hinge, which the equation of its operation gives. -/
theorem hinges : Obligations.Hinges := by
  unfold Obligations.Hinges
  refine ⟨?load, ?supersede, ?deliver, ?startPending, ?event, ?refusedEvent, ?deliverCount, ?acknowledge, ?level, ?longPulse,
    ?shortPulse, ?wakeClear, ?rst⟩
  case load =>
    intro s sec h data v late via g x hs hg hk he hx hb hv hp hdata hload hclr
    subst hg hx hdata
    refine becomes_hingeEdge (sec := sec) (dst := false) rfl hs (valueLoadOp_load ..) hk he ?_
    rw [srcBusy_ackArrives] at hb
    simp only [hingePin_out, hload, hclr, valueLoad_running late hb, valueSource_load_idle hv hp]
  case supersede =>
    intro s sec h data late g x hs hg hk he hx hb hv hp
    subst hg hx
    refine becomes_hingeEdge (sec := sec) (dst := false) rfl hs (valueLoadOp_load ..) hk he ?_
    rw [srcBusy_ackArrives] at hb
    simp only [hingePin_nil, pinBits_self, valueLoad_running late hb, valueSource_load_pending hv hp]
  case deliver =>
    intro s sec h g late x hs hg hk he hx hb
    subst hg hx
    exact becomes_hingeEdge (sec := sec) (dst := true) rfl hs rfl hk he (valueDeliver_running late hb)
  case startPending =>
    intro s sec h g data late x hs hg hk he hx hb hv hend hp
    subst hg hx
    exact becomes_hingeEdge (sec := sec) (dst := false) rfl hs (valueLoadOp_complete ..) hk he
      (valueComplete_start_pending late hb hv hend hp _)
  case event =>
    intro s sec h late via g x hs hg hk he hb hx hevt hu
    subst hg hx
    refine becomes_hingeEdge (sec := sec) (dst := false) rfl hs rfl hk he ?_
    rw [hingePin_out, hevt]
    exact counterEvent_counted late hb hu
  case refusedEvent =>
    intro s sec h late g hs hg hk he hb hu
    subst hg
    exact becomes_hingeEdge (sec := sec) (dst := false) rfl hs rfl hk he (counterEvent_refused late hb hu)
  case deliverCount =>
    intro s sec h g late x hs hsecs hhinges hg hk he hx hb
    subst hg hx
    refine performs_hingeEdge (sec := sec) (dst := true) rfl hs rfl hk he hsecs hhinges (counterDeliver_running hb late)
      fun d hnew hold => ?_
    rw [hnew]
    exact ⟨rfl, rfl, rfl, rfl, hold⟩
  case acknowledge =>
    intro s sec h g late hs hg hk he hb
    subst hg
    exact becomes_hingeEdge (sec := sec) (dst := false) rfl hs rfl hk he (counterAck_running late hb)
  case level =>
    intro s sec h inp late via v g hs hv hg hk he hb
    subst hg hv
    exact becomes_hingeEdge (sec := sec) (dst := true) rfl hs rfl hk he (levelSample_running hb _ late)
  case longPulse =>
    intro s sec h ps hs hk hl hps
    exact becomes_updHinge (sec := sec) rfl hs (wakeRequest_long (s := { s.dev with out := [] }) hk hl hps) rfl
  case shortPulse =>
    intro s sec h ps hs hk hl hps
    exact becomes_sec (sec := sec) rfl hs (wakeRequest_short (s := { s.dev with out := [] }) hk hl hps) hs.2
  case wakeClear =>
    intro s sec h via g hs hg hk he hreq hclr
    subst hg
    exact becomes_updHinge (sec := sec) rfl hs (wakeClear_runs (s := { s.dev with out := [] }) hk he hreq hclr) rfl
  case rst =>
    intro s sec h g hs hg hk hl
    subst hg
    exact becomes_updHinge (sec := sec) rfl hs (hingeRstOp_rise (s := { s.dev with out := [] }) hk hl) rfl

end
